-- ==== Sys2Proof/Word.lean ====
section
/-!
DEFINITION. The word types of the device: a byte and a 32-bit register word (R4).
-/
namespace Sys2Proof

/-- One byte of memory. -/
abbrev Byte := BitVec 8

/-- One register word: every register is 32 bits wide (R4). -/
abbrev Word := BitVec 32

/-- The word with every bit set: what a read of an absent register returns (R16). -/
def allOnes : Word := 0xFFFFFFFF#32

end Sys2Proof
end

