-- ==== Sys2Proof/Syntax.lean ====
section
/-!
DEFINITION. The commands of the GL144: one constructor for every row of the spec's table of operations and events, in
the table's order, with the row's operands. A command is a register access of an initiator, an event on a link or a
pin, or an event of one of the device's own engines.
-/
namespace Sys2Proof

/-- Who can make a register access (R8): the host, a control core, the debug port; and the configuration engine,
whose own writes are held neither by LOCK nor by once (R10). -/
inductive Ini where
  | host
  | core (n : Fin 4)
  | debug
  | cfg
  deriving DecidableEq, Repr

/-- The size of a register access (R5, R339): one whole word, or a host request with some byte enable clear, given with
its byte enables and its length in DWs. -/
inductive Size where
  | whole
  | part (be : BitVec 8) (dws : BitVec 10)
  deriving DecidableEq, Repr

/-- A frame as the receiver delivers it (R78 to R82): the group's first lane, the header fields but TYPE, the payload,
the number of DATA blocks, the FCS received, and what the block parser saw on the way: an error-marked block (R81),
an IDLE block inside the frame (R80), or a START that may not stand where it stood (kind 7 of R122). -/
structure RxFrame where
  lane : Fin 128
  cls : Fin 4
  dst : BitVec 12
  src : BitVec 12
  acnt : Byte
  len : BitVec 16
  ret0 : BitVec 16
  ret1 : BitVec 16
  ret2 : BitVec 16
  ret3 : BitVec 16
  payload : List Byte
  blocks : Nat
  fcs : Word
  marked : Bool
  idle : Bool
  nested : Bool
  deriving DecidableEq, Repr

/-- A codeword of 20 blocks on a lane (R62, R66): whether the codeword before it was uncorrectable too; its marker block, where
it holds one; and its blocks, each by whether it read as a START, with the TYPE and the innermost frame it finds open. -/
structure Codeword where
  again : Bool
  marker : Option (BitVec 257) := none
  blocks : List (Bool × Option (Byte × RxFrame)) := []
  deriving DecidableEq, Repr

/-- A block outside the framing of R78: a DATA block or an END block outside any frame, a reserved control block, an
error-marked block, or an error-marked block that reads as START (R76, R81). -/
inductive Stray where
  | data
  | endBlock
  | reserved
  | marked
  | markedStart
  deriving DecidableEq, Repr

/-- An error of an ECC word that an access to device memory meets: the device address of the word, and whether the word
is uncorrectable (R310, R311). -/
structure EccFind where
  addr : BitVec 40
  uncorr : Bool
  deriving DecidableEq, Repr

/-- Who accesses device memory, and where: the host through an aperture at an offset (R337), a core or a Mover channel
at a device address (R290). -/
inductive MemFrom where
  | host (k : Fin 3) (o : BitVec 28)
  | core (n : Fin 4) (a : BitVec 40)
  | mover (c : Fin 64) (a : BitVec 40)
  deriving DecidableEq, Repr

/-- A read of DWs, or a write of bytes, none where the byte enable is clear (R340). -/
inductive MemOp where
  | read (dws : BitVec 11)
  | write (bytes : List (Option Byte))
  deriving DecidableEq, Repr

/-- A received TLP the gateway cannot accept (R347): poisoned, malformed, with an ECRC mismatch, a completion that no
read waits for, or a completion with UR, CA or CRS status to the read of its tag. -/
inductive TlpBad where
  | poisoned
  | malformed
  | ecrc
  | unexpected (tag : BitVec 10)
  | status (tag : BitVec 10)
  deriving DecidableEq, Repr

/-- A host write of MSI-X state: a vector's table entry, or the Enable and Function Mask bits of Message Control
(R345, R346). -/
inductive MsixWrite where
  | entry (vec : Fin 64) (addr : BitVec 64) (data : Word) (masked : Bool)
  | control (enable fmask : Bool)
  deriving DecidableEq, Repr

/-- A cause of DOWN (R351, R357). -/
inductive DownCause where
  | linkDown | hotReset | linkDisabled | perst
  deriving DecidableEq, Repr

/-- The trained speeds, 2.5 to 64.0 GT/s, and widths (R333). -/
inductive LinkSpeed where
  | g25 | g50 | g80 | g160 | g320 | g640
  deriving DecidableEq, Repr

inductive LinkWidth where
  | x1 | x2 | x4 | x8 | x16
  deriving DecidableEq, Repr

/-- What a host write of the Command, Device Control and Link Control registers sets (R333, R344, R347, R350, R354):
Memory Space Enable, Bus Master Enable, the Max_Payload_Size and Max_Read_Request_Size codes, 10-Bit Tag Requester
Enable, ASPM L1 enable; and the AER status bits the write clears. -/
structure CfgSpace where
  mse : Bool
  bme : Bool
  mps : Fin 3
  mrrs : Fin 6
  tag10 : Bool
  aspm : Bool
  aerClear : BitVec 32
  deriving DecidableEq, Repr

/-- How the routes of an instance, or of a section, resolve onto physical tracks (R53): each route that is lengthened with
its added hops, or a route that cannot be resolved within 6 hops. -/
inductive RouteFit where
  | ok (added : List (BitVec 16 × Fin 7))
  | fail (route : BitVec 16)
  deriving DecidableEq, Repr

/-- What the self-test schedule starts (R447): a free tile or spare, a region, or a rotation of a running tile. -/
inductive TestPick where
  | tile (p : Fin 2304)
  | region (r : Fin 16)
  | rotate (l : Fin 2176)
  deriving DecidableEq, Repr

/-- How a transfer of a two-wire bus ends (R464, R465): with the bytes read; or after `k` data bytes were acknowledged, on an
address or a data byte that is not acknowledged, or on a lost arbitration. -/
inductive XferEnd where
  | ok (bytes : List (BitVec 8))
  | nackAddr (k : BitVec 6)
  | nackData (k : BitVec 6)
  | arbLost (k : BitVec 6)
  deriving DecidableEq, Repr

/-- One candidate of a load (R384, R387): the flash or memory could be read, and how its routes resolve. -/
structure Candidate where
  readable : Bool
  fit : RouteFit
  deriving DecidableEq, Repr

/-- The commands of the device, one constructor per row of the table. -/
inductive Instr where
  /-- REGISTER_WRITE (R10). A 32-bit write to a register that has no row of its own takes effect field by field
  under the access codes, keeping lk and once fields. -/
  | registerWrite (ini : Ini) (off : BitVec 26) (size : Size) (v : Word)
  /-- LOCK_SET (R10). Writing 1 to a block's LOCK bit locks its lk fields until reset. -/
  | lockSet (ini : Ini) (off : BitVec 26) (v : Word)
  /-- LATCHED_READ (R8). A read of an rl low word returns it and latches the higher words for that initiator. -/
  | latchedRead (ini : Ini) (off : BitVec 26) (size : Size)
  /-- WIDE_WRITE_APPLY (R9). A write of the highest word of a wide quantity applies it together with the lower
  words held for that initiator. -/
  | wideWriteApply (ini : Ini) (off : BitVec 26) (v : Word)
  /-- UNMAPPED_ACCESS (R16). An access to an unimplemented offset reads all ones or is dropped and raises
  UNMAPPED_ACCESS. -/
  | unmappedAccess (ini : Ini) (bar : Fin 3) (off : BitVec 30) (write : Option Word)
  /-- LEVEL_WRITE (R20). A write of a block's LEVEL bit updates LEVEL_NOW at once and schedules the change for the
  block's boundary. -/
  | levelWrite (ini : Ini) (off : BitVec 26) (v : Word)
  /-- LEVEL_BOUNDARY (R20). At the block's boundary the last written LEVEL takes effect. -/
  | levelBoundary (unit : BitVec 26)
  /-- EVT_HEAD_WRITE (R488). The consumer advances EVT_Q_HEAD; invalid values are ignored. -/
  | evtHeadWrite (ini : Ini) (v : Word)
  /-- EVT_FAULT_CLEAR (R491). Writing 1 to an EVT_FAULT bit clears it and the matching EVT_HALT bit. -/
  | evtFaultClear (ini : Ini) (v : Word)
  /-- EVT_CORE_PEND_CLEAR (R493). A core writes 1 to its EVT_CORE_PEND bit to clear its EVENT interrupt. -/
  | evtCorePendClear (ini : Ini) (v : Word)
  /-- EVT_INT_CLEAR (R494). Writing 1 to EVT_INT.PEND clears it and may release INT_N. -/
  | evtIntClear (ini : Ini) (v : Word)
  /-- DL_WINDOW_END (R496). A deadline-count window of 2^29 raw ticks ends and the per-class counts restart. -/
  | dlWindowEnd
  /-- FCLK_STEP (R43). At each 100 us step boundary the fabric clocks move by at most 100 MHz toward their
  targets. -/
  | fclkStep
  /-- TILE_ECC_UNCORR (R40). An uncorrectable error in tile local memory marks lines CHECK_MARK and the instance
  keeps running. -/
  | tileEccUncorr (p : Fin 2304)
  /-- LOCAL_ECC_CORR (R40). A corrected tile-memory error raises LOCAL_ECC_CORR and increments ERG_ECC_CORR. -/
  | localEccCorr (p : Fin 2304) (word : BitVec 12)
  /-- OCTET_POWER_WRITE (R73). A write of an octet's POWER moves it among OFF, STANDBY and ACTIVE, taking groups
  down when leaving ACTIVE. -/
  | octetPowerWrite (ini : Ini) (o : Fin 16) (v : Word)
  /-- LANE_ENABLE_WRITE (R73). Setting or clearing ENABLE on a group's first lane starts training or takes the
  group down to GATED. -/
  | laneEnableWrite (ini : Ini) (n : Fin 128) (v : Word)
  /-- LANE_RETRAIN (R73). Setting RETRAIN takes the group down and restarts training from RATE_MAX. -/
  | laneRetrain (ini : Ini) (n : Fin 128) (v : Word)
  /-- AUTO_RETRAIN_WRITE (R65). Setting AUTO_RETRAIN while a lane is in BACKOFF starts the retry sequence at once. -/
  | autoRetrainWrite (ini : Ini) (v : Word)
  /-- SIGNAL_DETECTED (R63). Signal energy has been present for 100 us, ending SIGNAL and starting ADAPT. -/
  | signalDetected (n : Fin 128)
  /-- ADAPT_DONE (R63). The equaliser has converged and CDR locked, starting ALIGN. -/
  | adaptDone (n : Fin 128)
  /-- ALIGN_DONE (R63). Eight clean codewords decode and the group is deskewed, starting MEASURE. -/
  | alignDone (n : Fin 128) (skew : BitVec 32) (latest : Fin 128)
  /-- MEASURE_DONE (R69). The training measurement completes with sufficient margin and the group enters READY. -/
  | measureDone (n : Fin 128) (il : List (BitVec 12)) (margin : List (BitVec 8))
  /-- PHASE_TIMEOUT (R64). A training phase exceeds its limit or margin is too low, failing the attempt into
  QUIET. -/
  | phaseTimeout (n : Fin 128)
  /-- TRAIN_SIGNAL_ABSENT (R64). Received signal absent for 500 us after SIGNAL fails the attempt at once. -/
  | trainSignalAbsent (n : Fin 128)
  /-- QUIET_END (R64). The 1 ms QUIET period ends and the next attempt starts at the next rate. -/
  | quietEnd (n : Fin 128)
  /-- RETRY_TIMER (R65). A retry wait in BACKOFF expires and the lane retrains from RATE_MAX. -/
  | retryTimer (n : Fin 128)
  /-- LANE_SIGNAL_LOSS (R65). Signal absent for 2 us takes an up group down. -/
  | laneSignalLoss (n : Fin 128)
  /-- UNCORR_CODEWORD (R66). An uncorrectable codeword is counted, its blocks are error-marked, and four in a row
  take the lane down. -/
  | uncorrCodeword (n : Fin 128) (again : Codeword)
  /-- OCTET_PLL_LOSS (R65). Loss of the octet PLL takes its up lanes down. -/
  | octetPllLoss (o : Fin 16) (refclk : Bool)
  /-- MEAS_GO (R69). Setting MEAS_GO requests a channel measurement, waiting until READY and merging with a
  running one. -/
  | measGo (ini : Ini) (n : Fin 128) (v : Word)
  /-- MEAS_DONE (R69). A measurement completes, writes IL, MARGIN and LEN_CM together and raises MEAS_DONE. -/
  | measDone (n : Fin 128) (il : BitVec 12) (margin : BitVec 8)
  /-- EQ_ADAPT_STEP (R72). Every 1 ms the receiver equaliser adapts within its range and applies written centres. -/
  | eqAdaptStep (n : Fin 128) (ctle : BitVec 5) (pre : BitVec 8) (dfe : BitVec 8) (corrected : BitVec 32)
  /-- LEAN_LANE_WAKE (R74). PRBS13 for 100 us on a gated lean lane raises a partner wake to Hamada. -/
  | leanLaneWake (n : Fin 128)
  /-- FRAME_TRANSMIT (R88). The device starts the next frame on a group by class priority and round-robin once
  credit allows, charging its cost. -/
  | frameTransmit (n : Fin 128)
  /-- CREDIT_SEND (R91). Within 2 us of freeing credits with no other frame due, the device sends a CREDIT
  message. -/
  | creditSend (p : BitVec 12)
  /-- ALIVE_SEND (R96). Once per alive interval the device sends ALIVE with its SENT counts. -/
  | aliveSend (p : BitVec 12)
  /-- ALIVE_RECEIVE (R94). An ALIVE from a partner resyncs credit counts and, in ACCEPTING, makes the entry
  ACTIVE. -/
  | aliveReceive (f : RxFrame)
  /-- ALIVE_TIMEOUT (R96). Three alive intervals pass without ALIVE and the partner is declared LOST. -/
  | aliveTimeout (p : BitVec 12)
  /-- CREDIT_RECEIVE (R90). A CREDIT message updates the returned credit counts. -/
  | creditReceive (f : RxFrame)
  /-- PROBE (R97). On a group with PROBING entries the device sends PROBE to broadcast each probe interval. -/
  | probe (n : Fin 128)
  /-- HELLO_RECEIVE (R101). A HELLO is matched to a PROBING entry and answered with ASSIGN, or refused. -/
  | helloReceive (f : RxFrame)
  /-- DESC_RECEIVE (R101). A DESC page is stored; after both pages the descriptor is checked and ACCEPT or BYE
  follows. -/
  | descReceive (f : RxFrame)
  /-- DESC_TIMEOUT (R103). No DESC after 500 us causes a retry, and after 3 attempts BYE with reason 6. -/
  | descTimeout (p : BitVec 12)
  /-- BYE_RECEIVE (R98). A BYE from a partner moves its entry to LOST. -/
  | byeReceive (f : RxFrame)
  /-- LOST_INTERVAL_END (R98). One alive interval after LOST the entry moves to PROBING or WAITING. -/
  | lostIntervalEnd (p : BitVec 12)
  /-- REFUSED_INTERVAL_END (R98). One second after REFUSED the entry moves to PROBING or WAITING. -/
  | refusedIntervalEnd (p : BitVec 12)
  /-- KICK (R98). Setting PT_CTRL.KICK restarts discovery of the entry according to its state. -/
  | kick (ini : Ini) (p : BitVec 12) (v : Word)
  /-- PROBE_EN_WRITE (R98). Clearing or setting PROBE_EN stops or resumes discovery and moves waiting entries. -/
  | probeEnWrite (ini : Ini) (v : Word)
  /-- LINE_SEG_RECEIVE (R110). A LINE_SEG frame is checked and its data appended to the pipeline's open line. -/
  | lineSegReceive (f : RxFrame) (room : Bool)
  /-- FRAME_END_RECEIVE (R111). A FRAME_END closes the pipeline's open frame and checks its line count. -/
  | frameEndReceive (f : RxFrame)
  /-- SYNC_RECEIVE (R106). A SYNC from the time-source partner is a servo measurement and is relayed downstream. -/
  | syncReceive (f : RxFrame)
  /-- DELAY_REQ_RECEIVE (R107). A DELAY_REQ is answered with DELAY_RESP carrying the turnaround. -/
  | delayReqReceive (f : RxFrame)
  /-- DELAY_RESP_RECEIVE (R107). A DELAY_RESP gives the mean path delay, recorded in PT_DELAY. -/
  | delayRespReceive (f : RxFrame)
  /-- EVENT_RECEIVE (R125). An EVENT message from a partner is turned into a device event. -/
  | eventReceive (f : RxFrame)
  /-- CORR_ACK_RECEIVE (R115). A CORR_ACK records the frame's status for its module and cycle. -/
  | corrAckReceive (f : RxFrame)
  /-- CORR_RESEND (R115). 100 us after sending or after a BUSY ack, an unacknowledged CORR frame is resent. -/
  | corrResend (m : Fin 1024) (frame : Fin 16)
  /-- REG_RD_RESP_RECEIVE (R118). A REG_RD_RESP completes its tunnel read with data or failure. -/
  | regRdRespReceive (f : RxFrame)
  /-- REG_WR_RESP_RECEIVE (R118). A REG_WR_RESP completes its tunnel write. -/
  | regWrRespReceive (f : RxFrame)
  /-- PARTNER_WINDOW_READ (R119). A host read in the BAR2 partner window sends one REG_RD and completes with its
  data. -/
  | partnerWindowRead (p : BitVec 12) (a : BitVec 16)
  /-- PARTNER_WINDOW_WRITE (R119). A host write in the partner window sends one posted REG_WR. -/
  | partnerWindowWrite (p : BitVec 12) (a : BitVec 16) (v : Word)
  /-- TUNNEL_GO (R120). Writing GO on a tunnel slot starts a request of up to 64 words. -/
  | tunnelGo (ini : Ini) (t : Fin 8) (v : Word)
  /-- TUNNEL_ACCEPT (R121). A waiting request enters the partner's 32-entry queue when room frees and its timeout
  starts. -/
  | tunnelAccept (p : BitVec 12)
  /-- TUNNEL_SEND (R117). A queued request is sent on C2 when fewer than 16 are outstanding. -/
  | tunnelSend (p : BitVec 12)
  /-- TUN_TIMEOUT (R118). No response within TUN_TIMEOUT ends the request with all ones and TUN_TIMEOUT. -/
  | tunTimeout (p : BitVec 12)
  /-- CVU_GO (R124). Writing GO on a check-value unit starts a CRC run over LEN bytes. -/
  | cvuGo (ini : Ini) (u : Fin 16) (v : Word)
  /-- CVU_DONE (R124). The CRC run completes, writes RESULT and sets DONE. -/
  | cvuDone (u : Fin 16)
  /-- TIM_NOW_READ (R129). A read of TIM_NOW_FRAC latches NS and SEC of the same tick. -/
  | timNowRead (ini : Ini)
  /-- ADJ_GO (R130). Writing TIM_ADJ_GO applies the staged STEP, SET or SLEW at the next raw tick. -/
  | adjGo (ini : Ini) (v : Word)
  /-- RATE_HI_WRITE (R131). Writing TIM_RATE_HI applies RATE, clamped to 500 ppm. -/
  | rateHiWrite (ini : Ini) (v : Word)
  /-- PTM_DIALOG_START (R132). Every INTERVAL_MS the engine starts a PTM dialog as requester. -/
  | ptmDialogStart
  /-- PTM_DIALOG_DONE (R133). A completed PTM dialog is a measurement that updates the servo and the source state. -/
  | ptmDialogDone (master : BitVec 64)
  /-- PPS_EDGE (R134). An on-time PPS_IN edge is compared with the nearest whole second as a phase measurement. -/
  | ppsEdge (rising : Bool)
  /-- SOURCE_ABSENT (R138). A source's absence period expires and the source is no longer present. -/
  | sourceAbsent (src : Fin 4)
  /-- SLEW_END (R137). A slew has removed its error and SLEW returns to 0. -/
  | slewEnd
  /-- PPS_OUT_PULSE (R139). At a whole second of device time PPS_OUT emits its pulse. -/
  | ppsOutPulse
  /-- TIME_PULSE (R139). At a whole multiple of PERIOD_US the TIME_PULSE output emits its pulse. -/
  | timePulse
  /-- SYNC_ORIGINATE (R142). Each sync interval with no upstream source the device originates SYNC to partners
  with NEEDS_SYNC. -/
  | syncOriginate
  /-- SYNC_RELAY (R143). A relayed SYNC leaves with its residence added, LATE when over budget. -/
  | syncRelay (p : BitVec 12)
  /-- SYNC_RELAY_DROP (R143). A relay that cannot leave within 2 ms of ingress is dropped as a D_SYNC miss. -/
  | syncRelayDrop (p : BitVec 12)
  /-- DELAY_REQ_SEND (R144). Once per 2^DELAY_LOG s the device sends DELAY_REQ to each sync partner. -/
  | delayReqSend
  /-- JOB_START (R145). Writing JOB_START zeroes the job web position at the next count and resets trigger
  positions. -/
  | jobStart (ini : Ini) (v : Word)
  /-- VELOCITY_TIMEOUT (R146). No encoder edge for 10 ms sets the velocity to 0. -/
  | velocityTimeout (e : Fin 4)
  /-- TRIGGER_GEN_ENABLE (R147). Setting a generator's EN sets its highest triggered position and starts
  triggering. -/
  | triggerGenEnable (ini : Ini) (g : Fin 256) (v : Word)
  /-- TRIGGER_FORM (R147). At t_n minus LEAD an encoder-mode generator forms the TRIGGER for line n and hands it
  to C1. -/
  | triggerForm (g : Fin 256)
  /-- TRIGGER_FORM_TIME (R148). Every PERIOD_g of device time a time-mode generator forms a TRIGGER. -/
  | triggerFormTime (g : Fin 256)
  /-- TRIGGER_EGRESS (R150). A trigger leaves the device and D_LINE is checked. -/
  | triggerEgress (g : Fin 256)
  /-- CYCLE_ENABLE (R151). Setting TIM_CYC_CTRL.EN schedules cycle 0 at the next whole multiple of PERIOD_MS. -/
  | cycleEnable (ini : Ini) (v : Word)
  /-- CYCLE_START (R151). A compensation cycle starts and TIM_CYC_NUM advances. -/
  | cycleStart
  /-- CAPTURE_EDGE (R152). A selected edge on a capture channel's source is stamped into its FIFO. -/
  | captureEdge (c : Fin 16) (rising : Bool)
  /-- CAPTURE_POP (R152). Reading TIM_CAP_FRAC pops the oldest stamp and latches its words. -/
  | capturePop (ini : Ini) (c : Fin 16)
  /-- MISSING_LINE_TIMEOUT (R165). Device time passes an expected line's deadline with no segment and the line is
  missing or closed short. -/
  | missingLineTimeout (p : Fin 256)
  /-- UNPACK_LINE (R161). UNPACK converts a line's packed samples to U16. -/
  | unpackLine (p : Fin 256)
  /-- BLACK_LINE (R168). BLACK subtracts the black level, emits the active window and updates the dark estimate. -/
  | blackLine (p : Fin 256)
  /-- DPC_LINE (R171). DPC repairs static, dynamic and impulse defects in a line and updates its state words. -/
  | dpcLine (p : Fin 256)
  /-- FLAT_LINE (R173). FLAT applies flat-field gain, offset and lens shading to a line and accumulates
  calibration. -/
  | flatLine (p : Fin 256)
  /-- WBAL_LINE (R176). WBAL applies white-balance gains to a line. -/
  | wbalLine (p : Fin 256)
  /-- CMAT_LINE (R178). CMAT maps input bands through the colour matrix. -/
  | cmatLine (p : Fin 256)
  /-- TONE_LINE (R179). TONE maps each band through its tone curve. -/
  | toneLine (p : Fin 256)
  /-- CAL_GO (R175). Writing CAP_CAL_CTRL.GO starts a flat calibration of a bank. -/
  | calGo (ini : Ini) (p : Fin 256) (v : Word)
  /-- BANK_SWITCH_GO (R182). Writing CAP_SW.GO requests a parameter-bank switch. -/
  | bankSwitchGo (ini : Ini) (p : Fin 256) (v : Word)
  /-- TAP_FRAME_START (R203). At the pipeline's frame start pending tap settings apply and coefficients are
  copied. -/
  | tapFrameStart (t : Fin 1024)
  /-- CROP_LINE (R192). CROP keeps the tap's columns and bands of a line. -/
  | cropLine (t : Fin 1024)
  /-- SCALE_LINE (R193). SCALE filters a line horizontally and feeds the vertical pass. -/
  | scaleLine (t : Fin 1024)
  /-- PACK_LINE (R197). PACK packs a line and places it as a packet in the tap's output buffer. -/
  | packLine (t : Fin 1024) (room : Bool)
  /-- SPILL_DRAIN (R305). Spilled data leaves the reserve in order toward its destination when room frees. -/
  | spillDrain (producer : BitVec 16)
  /-- SEIF_WARP_LINE (R210). A camera line enters its slot's SEIF_WARP buffer and mark windows. -/
  | seifWarpLine (b : Fin 16) (k : Fin 64) (room : Bool)
  /-- SEIF_ROW_EMIT (R216). When every running slot holds its lines Seif resamples, blends and emits row r. -/
  | seifRowEmit (b : Fin 16)
  /-- CAMERA_STALL (R218). A slot with no new line for STALL_US becomes STALLED and raises CAMERA_STALL. -/
  | cameraStall (b : Fin 16) (k : Fin 64)
  /-- MODEL_APPLY (R224). At the first row after all slots end a measurement the new models apply and seams are
  re-derived. -/
  | modelApply (b : Fin 16)
  /-- BAR_APPLY_GO (R227). Writing SEI_BAR_APPLY.GO applies every staged model value at the first row not yet
  started. -/
  | barApplyGo (ini : Ini) (b : Fin 16) (v : Word)
  /-- LIM_Y_WRITE (R212). A write of SEI_CAM_LIM_Y is accepted only if the span check passes. -/
  | limYWrite (ini : Ini) (b : Fin 16) (k : Fin 64) (v : Word)
  /-- MARK_LINE (R228). A free-standing MARK instance examines a line and writes a mark packet at a mark's end. -/
  | markLine (j : Fin 16) (room : Bool)
  /-- WEB_BREAK_LINE (R229). A WEB_BREAK instance counts web samples on a line and tracks the break run. -/
  | webBreakLine (wb : Fin 16)
  /-- RS_TAIL_WRITE (R236). Host software advances CMP_RS_TAIL to add tile-list entries. -/
  | rsTailWrite (ini : Ini) (src : Fin 8) (v : Word)
  /-- REF_ENTRY_READ (R237). The comparator reads a tile-list entry and takes, skips or consumes it by tile
  number. -/
  | refEntryRead (src : Fin 8)
  /-- REF_FETCH_START (R238). When within prefetch range and its slot is free, the fetch of the next tile starts. -/
  | refFetchStart (src : Fin 8)
  /-- REF_FETCH_DONE (R240). A tile fetch completes and the tile becomes RESIDENT if its check matches. -/
  | refFetchDone (src : Fin 8)
  /-- CMP_ROW_ENTER (R241). A stitched row enters the comparator and is compared or marked unchecked. -/
  | cmpRowEnter (b : Fin 16)
  /-- REF_RENDER_ROW (R243). REF_RENDER renders a reference row through the LUT and absorbers. -/
  | refRenderRow (b : Fin 16)
  /-- REF_BLUR_ROW (R246). REF_BLUR blurs the rendered reference across and along the web. -/
  | refBlurRow (b : Fin 16)
  /-- REG_SEARCH_ROW (R249). REG_SEARCH accumulates costs and at each block end estimates the slice shift. -/
  | regSearchRow (b : Fin 16)
  /-- DIFF_TOL_ROW (R254). DIFF_TOL tests each pixel against tolerance and passes residuals to the nozzle engine. -/
  | diffTolRow (b : Fin 16)
  /-- CLUSTER_ROW (R258). CLUSTER groups the row's deviant pixels into runs and clusters. -/
  | clusterRow (b : Fin 16) (room : Bool)
  /-- LUT_RELOAD (R245). Setting RELOAD requests a LUT reload at the next bar frame start. -/
  | lutReload (ini : Ini) (b : Fin 16) (v : Word)
  /-- LUT_RELOAD_RUN (R245). At the bar frame start the LUT is reloaded and RELOAD clears when done. -/
  | lutReloadRun (b : Fin 16)
  /-- NZ_STRIPE_MEASURE (R271). NZ_STRIPE measures each nozzle's density and position from its stripe segment. -/
  | nzStripeMeasure (side : Fin 2)
  /-- NZ_RESID_ROW (R272). NZ_RESID credits solo residual samples of a row to nozzle accumulators. -/
  | nzResidRow (b : Fin 16)
  /-- CYCLE_CLOSE (R275). Cycle k closes on a side, updates the ledger, classifies nozzles and forms correction
  words. -/
  | cycleClose (side : Fin 2)
  /-- DCOMP_DEADLINE (R284). At APPLY_k minus LEAD_NS each due module not ACKED misses D_COMP. -/
  | dcompDeadline (side : Fin 2)
  /-- CORR_COMMIT (R283). At APPLY_k each ACKED module commits PREV, CUR and W_cur. -/
  | corrCommit (side : Fin 2)
  /-- LEDGER_WRITE (R267). A write of a ledger entry's high word commits STATE, PIN and CORR. -/
  | ledgerWrite (ini : Ini) (n : BitVec 20) (v : Word)
  /-- SIDE_ENABLE (R285). Setting a side's EN makes its modules UNSURE. -/
  | sideEnable (ini : Ini) (side : Fin 2) (v : Word)
  /-- ALLOC (R295). A port ALLOC finds the lowest free run of units and gives it to the port's identity. -/
  | alloc (ini : Ini) (port : Fin 6) (granule : Bool) (count : BitVec 21)
  /-- FREE (R296). A port FREE makes a run of units FREE if every check passes. -/
  | free (ini : Ini) (port : Fin 6) (granule : Bool) (count : BitVec 21)
  /-- GIVE (R296). A port GIVE hands a run of units to NEW_OWNER if every check passes. -/
  | give (ini : Ini) (port : Fin 6) (granule : Bool) (count : BitVec 21)
  /-- QUERY (R295). A port QUERY returns the owner and guard of one unit. -/
  | query (ini : Ini) (port : Fin 6) (granule : Bool) (count : BitVec 21)
  /-- APERTURE_ACCESS (R340). A host, core or Mover access to device memory is performed with ECC and guard
  handling. -/
  | apertureAccess (who : MemFrom) (op : MemOp) (ecc : List EccFind)
  /-- SCRUB_STEP (R312). Every 100 ms the scrubber reads and corrects its next share of memory. -/
  | scrubStep (ecc : List EccFind)
  /-- RQ_PACKET_WRITE (R300). A producer writes a packet to a result queue when room allows, length word last. -/
  | rqPacketWrite (producer : BitVec 16)
  /-- RQ_NOTIFY_TIMEOUT (R302). NOTIFY_US after the first unannounced packet the queue notifies. -/
  | rqNotifyTimeout (q : Fin 64)
  /-- RQ_FLUSH (R303). Writing FLUSH requests a flush at the next packet boundary. -/
  | rqFlush (ini : Ini) (q : Fin 64) (v : Word)
  /-- RQ_BOUNDARY_APPLY (R303). At the next packet boundary a flush notifies or a cleared EN disables the queue. -/
  | rqBoundaryApply (q : Fin 64)
  /-- RQ_ENABLE (R301). Setting a queue's EN makes TAIL equal to HEAD. -/
  | rqEnable (ini : Ini) (q : Fin 64) (v : Word)
  /-- RQ_HEAD_WRITE (R301). The consumer advances a result queue's HEAD. -/
  | rqHeadWrite (ini : Ini) (q : Fin 64) (v : Word)
  /-- JOURNAL_ENABLE (R320). Setting the journal's EN restarts RSEQ and accepts a JOURNAL_EN mark. -/
  | journalEnable (ini : Ini) (v : Word)
  /-- RECORD_ACCEPT (R320). The mapper wraps an arriving packet in a record and places it in the open extent. -/
  | recordAccept (producer : BitVec 16)
  /-- JOURNAL_RESUMED (R321). An extent can be opened again, FULL clears and JOURNAL_RESUMED is raised. -/
  | journalResumed
  /-- SEAL_WRITE (R322). Writing SEAL seals the open extent with reason REQUEST. -/
  | sealWrite (ini : Ini) (v : Word)
  /-- EXTENT_AGE (R322). AGE_US after its first record the open extent is sealed with reason AGE. -/
  | extentAge
  /-- JOURNAL_STOP (R322). Clearing EN accepts a pending note and seals with reason STOP. -/
  | journalStop (ini : Ini) (v : Word)
  /-- EXTENT_COPY_DONE (R323). The extent's header copy has arrived, the extent becomes WRITTEN and its buffer is
  freed. -/
  | extentCopyDone
  /-- EXTENT_COPY_FAIL (R324). A failed copy is retried once, then the extent becomes BAD and the data goes to a
  new extent. -/
  | extentCopyFail
  /-- EXTENT_ACK (R325). An ACK operation makes a range of WRITTEN extents KEPT. -/
  | extentAck (ini : Ini) (v : Word)
  /-- EXTENT_FREE (R325). A FREE operation makes a range of KEPT or BAD extents FREE. -/
  | extentFree (ini : Ini) (v : Word)
  /-- EXTENT_QUERY (R325). A QUERY operation returns the state of one extent. -/
  | extentQuery (ini : Ini) (v : Word)
  /-- NOTE_GO (R330). Writing JRN_NOTE_GO copies the note payload into the note buffer. -/
  | noteGo (ini : Ini) (v : Word)
  /-- NOTE_ACCEPT (R330). At the next record boundary the pending note is accepted as a NOTE record. -/
  | noteAccept
  /-- WINDOW_WRITE (R316). A write to an archive window's registers is accepted unless the window is busy or would
  overlap. -/
  | windowWrite (ini : Ini) (w : Fin 16) (k : Fin 5) (v : Word)
  /-- UNSUPPORTED_REQUEST (R347). An unsupported or disallowed host request completes with UR. -/
  | unsupportedRequest (mem : Bool) (dw0 : Word) (addr : BitVec 64)
  /-- TLP_RECEIVE_ERROR (R347). A poisoned, malformed or unexpected TLP is dropped or completed and reported to
  AER. -/
  | tlpReceiveError (bad : TlpBad) (dw0 : Word)
  /-- COMPLETION_TIMEOUT (R347). A device read gets no completion within the timeout and ends with error. -/
  | completionTimeout (tag : BitVec 10)
  /-- FLR (R348). Initiate Function Level Reset makes BAR requests complete with UR and stops new upstream
  requests. -/
  | flr
  /-- FLR_READ_CUTOFF (R348). 8 ms after FLR outstanding reads end with error and held writes are discarded. -/
  | flrReadCutoff
  /-- FLR_COMPLETE (R348). By 10 ms the configuration space and FLR registers are reset and requests are taken
  again. -/
  | flrComplete
  /-- HOST_LINK_DOWN (R351). The host becomes DOWN and the gateway applies the FLR steps without the wait. -/
  | hostLinkDown (cause : DownCause)
  /-- HOST_LINK_UP (R352). The link comes up, HOST_LINK_UP is raised and declared rates are compared. -/
  | hostLinkUp (speed : LinkSpeed) (width : LinkWidth)
  /-- LINK_SPEED_CHANGE (R352). A change of link speed or width outside L0p recomputes capacity and compares
  rates. -/
  | linkSpeedChange (speed : LinkSpeed) (width : LinkWidth)
  /-- DSTATE_CHANGE (R353). The host changes the function's D-state. -/
  | dstateChange (d3 pmeEn clearPme : Bool)
  /-- MSIX_UNMASK (R346). Unmasking a vector with its PBA bit set sends one message and clears the bit. -/
  | msixUnmask (w : MsixWrite)
  /-- L1_ENTRY (R354). After 10 us of idleness with ASPM enabled the gateway requests L1. -/
  | l1Entry
  /-- L0P_DECISION (R355). Every 10 us the gateway decides whether to narrow or widen the link under L0p. -/
  | l0pDecision (up down upNow downNow : BitVec 32)
  /-- MOV_TAIL_WRITE (R362). Software advances MOV_CH_TAIL to post descriptors. -/
  | movTailWrite (ini : Ini) (c : Fin 64) (v : Word)
  /-- MOV_ENABLE (R363). Setting a channel's EN makes HEAD equal to TAIL, unless its ring ownership is wrong. -/
  | movEnable (ini : Ini) (c : Fin 64) (v : Word)
  /-- MOVER_RUN_START (R359). The engine takes the next ready channel and reads and validates its descriptor. -/
  | moverRunStart
  /-- MOVER_RUN_END (R370). A run ends after its barrier, writes its completion, advances HEAD and notifies. -/
  | moverRunEnd
  /-- MOV_RESUME (R372). Writing RESUME clears HALTED. -/
  | movResume (ini : Ini) (c : Fin 64) (v : Word)
  /-- MOV_ABORT (R372). Writing ABORT stops the channel's run or drops its posted descriptors. -/
  | movAbort (ini : Ini) (c : Fin 64) (v : Word)
  /-- MAIN_RESET_RELEASE (R429). Main reset is released, BOOT_SEL is sampled, DRAM candidates are repaired and the
  boot starts. -/
  | mainResetRelease (bootSel : BitVec 2) (jedec : BitVec 24) (record : Bool)
  /-- LOAD_GO (R387). Setting LOAD_GO starts a host load of a full image from device memory. -/
  | loadGo (ini : Ini) (v : Word)
  /-- IMAGE_APPLY (R388). Reading and checking of a full image completes and it is applied section by section or
  refused. -/
  | imageApply (first second : Candidate)
  /-- PREP_GO (R390). Setting PREP_GO starts a live change from a partial image. -/
  | prepGo (ini : Ini) (v : Word)
  /-- PREPARED (R390). The shadow build completes and the change enters PREPARED. -/
  | prepared (c : Candidate)
  /-- ARM (R390). Writing ARM arms the change, at once in PREPARED or held until then. -/
  | arm (ini : Ini) (v : Word)
  /-- ARMED (R390). The change becomes ARMED after its warm frames and raises CUT_START. -/
  | armed
  /-- OWNER_CUT (R391). An affected owner reaches its boundary and cuts over to its replacing instances. -/
  | ownerCut (at' : BitVec 32)
  /-- CUT_FORCED (R393). An owner not at its boundary CUT_TIMEOUT_MS after ARMED is cut at its next line. -/
  | cutForced (at' : BitVec 32)
  /-- CFG_ABORT (R396). Writing ABORT before the first cut removes the shadow build. -/
  | cfgAbort (ini : Ini) (v : Word)
  /-- FLOOR_COMMIT (R382). Writing FLOOR_COMMIT sets CFG_SEQ_FLOOR to the SEQ in force. -/
  | floorCommit (ini : Ini) (v : Word)
  /-- FLASH_READ (R385). The flash port starts a READ of LEN bytes into device memory. -/
  | flashRead (ini : Ini) (v : Word)
  /-- FLASH_PROGRAM (R385). The flash port starts a PROGRAM from device memory. -/
  | flashProgram (ini : Ini) (v : Word)
  /-- FLASH_ERASE (R385). The flash port starts an ERASE of 64 KiB sectors. -/
  | flashErase (ini : Ini) (v : Word)
  /-- FLASH_DONE (R385). A flash port operation completes with its RESULT. -/
  | flashDone (err : Bool)
  /-- CORE_INSTRUCTION (R399). A control core executes one instruction. -/
  | coreInstruction (n : Fin 4) (ecc : List EccFind)
  /-- CORE_RESET (R414). Writing CCO_CORE_CTRL.RESET resets one core and restarts it if RUN is 1. -/
  | coreReset (ini : Ini) (n : Fin 4) (v : Word)
  /-- WDOG_KICK (R415). Writing the key 0x5AFE restarts the watchdog count. -/
  | wdogKick (ini : Ini) (n : Fin 4) (v : Word)
  /-- WDOG_EXPIRE (R415). The watchdog count expires. -/
  | wdogExpire (n : Fin 4)
  /-- MACHINE_TIMER (R410). The raw counter reaches CCO_TIMECMP and the core's MTIP becomes pending. -/
  | machineTimer (n : Fin 4)
  /-- MSIP_WRITE (R412). A write to CCO_MSIP sets or clears the core's software interrupt. -/
  | msipWrite (ini : Ini) (n : Fin 4) (v : Word)
  /-- DINV (R403). Writing DINV invalidates the core's data cache. -/
  | dinv (ini : Ini) (n : Fin 4) (v : Word)
  /-- MBX_DOORBELL (R413). The host sets bits in CCO_MBX_IN_DB, making MAILBOX pending on the named cores. -/
  | mbxDoorbell (ini : Ini) (v : Word)
  /-- MAILBOX_CLEAR (R413). A core clears its MAILBOX bit and its CORES bit. -/
  | mailboxClear (ini : Ini) (n : Fin 4) (v : Word)
  /-- MBX_OUT_GO (R413). A core sets CCO_MBX_OUT_DB.GO, sending the MSI-X message after the OUT words. -/
  | mbxOutGo (ini : Ini) (v : Word)
  /-- MBX_ACK (R413). The host writes ACK, clearing GO. -/
  | mbxAck (ini : Ini) (v : Word)
  /-- POWER_UP (R429). VDDIO_18 reaches its limit and Hamada sequences power-on. -/
  | powerUp (elapsed : BitVec 64)
  /-- POWER_FAIL (R429). Supplies not within limits by 100 ms raise POWER_FAIL. -/
  | powerFail (channels : BitVec 16)
  /-- RESET_N_ASSERT (R430). RESET_N low for 100 us asserts main reset. -/
  | resetNAssert
  /-- SOFTWARE_RESET (R430). Writing HAM_RESET with key 0xA5C3 asserts main reset. -/
  | softwareReset (ini : Ini) (v : Word)
  /-- MAIN_POWER_LOSS (R422). Main power leaves its limits and the device enters OFF or BACKUP. -/
  | mainPowerLoss (cell : Bool)
  /-- PWR_TARGET_WRITE (R422). Writing HAM_PWR_REQ.TARGET starts a state change. -/
  | pwrTargetWrite (ini : Ini) (v : Word)
  /-- DRAIN_COMPLETE (R423). Frames close or DRAIN_MS passes, remaining lines are discarded and main domains power
  down. -/
  | drainComplete
  /-- POWER_STATE_REACHED (R422). A state change completes and the new state is in force. -/
  | powerStateReached
  /-- CAPTURE_READY (R424). After a return to RUN the instances restart, generators are released and CAPTURE_READY
  is raised. -/
  | captureReady
  /-- WAKE (R426). An enabled wake source fires, moving the device from REST or WATCH and raising WAKE. -/
  | wake (src : Fin 9)
  /-- ALARM (R426). The alarm second is reached and fires a wake, clearing ALARM_EN. -/
  | alarm
  /-- TWB0_WAKE_MATCH (R467). In REST an address match on TWB0 is acknowledged with SCL held and a wake raised. -/
  | twb0WakeMatch (addr : BitVec 7)
  /-- TWB0_WAKE_RELEASE (R427). Within 400 us of the acknowledge the target releases SCL. -/
  | twb0WakeRelease
  /-- CLK32_XT_SWITCH (R418). After 1,024 stable crystal cycles Hamada changes to XT32. -/
  | clk32XtSwitch
  /-- CLK32_FAIL (R418). XT32 stops for 4 RC periods, Hamada returns to RC and raises CLK32_FAIL. -/
  | clk32Fail
  /-- SUPPLY_CONVERSION (R432). Each tick the monitor converts one channel and updates its state. -/
  | supplyConversion (k : Fin 16) (value : BitVec 12)
  /-- BK_WRITE (R433). A write to a backup word completes at once and is held for commit. -/
  | bkWrite (ini : Ini) (k : Fin 64) (v : Word)
  /-- BK_COMMIT (R433). A held backup write is committed with its check word. -/
  | bkCommit
  /-- REVALIDATE (R434). Writing REVALIDATE sets BK_VALID. -/
  | revalidate (ini : Ini) (v : Word)
  /-- COARSE_LOAD (R433). At each whole second of valid device time the coarse keeper is loaded. -/
  | coarseLoad
  /-- VBAK_LOW (R434). VBAK falling below 1.9 V on battery latches VBAK_LOW. -/
  | vbakLow
  /-- OSC_STOP (R434). XT32 stopping on battery latches OSC_STOP and clears COARSE_OK. -/
  | oscStop
  /-- SAFETY_CHANGE (R436). A filtered safety channel changes and the demand action applies or releases. -/
  | safetyChange (ch : Fin 2) (a b : Bool)
  /-- SAFETY_DISCREPANCY (R437). The disagreement count reaches N and a discrepancy fault is latched. -/
  | safetyDiscrepancy (ch : Fin 2)
  /-- SAFE_ACK (R438). Writing SAFE_ACK releases a latched demand or clears a discrepancy fault in its last phase. -/
  | safeAck (ini : Ini) (ch : Fin 2) (v : Word)
  /-- THERMAL_TRIP (R512). A die sensor reaches 125 C, THERMTRIP_N drives low and the device enters REST. -/
  | thermalTrip (sensor : Fin 4)
  /-- THERMTRIP_RELEASE (R512). All die sensors below 95 C release THERMTRIP_N and wakes. -/
  | thermtripRelease
  /-- DRAM_REPAIR_GO (R445). Writing BCH_DRAM_CTRL.GO starts repair of pending DRAM row candidates. -/
  | dramRepairGo (ini : Ini) (v : Word)
  /-- DRAM_ROW_REPAIR (R445). A DRAM row repair completes and raises DRAM_ROW_REPAIR. -/
  | dramRowRepair
  /-- TEST_SCHEDULE (R447). The self-test schedule starts a test of a free tile or a region. -/
  | testSchedule (pick : TestPick)
  /-- TILE_TEST_GO (R448). Writing BCH_TEST_CTRL.GO tests one physical tile. -/
  | tileTestGo (ini : Ini) (v : Word)
  /-- TILE_TEST_DONE (R446). A tile test completes, passing or retiring the tile. -/
  | tileTestDone (p : Fin 2304) (pass : Bool)
  /-- MIGRATE_REQUEST (R451). Writing BCH_MIG_CTRL.GO queues a REQUEST migration. -/
  | migrateRequest (ini : Ini) (v : Word)
  /-- MIGRATE_START (R452). The next queued migration reserves its target and resolves routes. -/
  | migrateStart (target : Fin 2304) (fit : RouteFit)
  /-- MIGRATE_COPY (R452). At line L0 the old tile's memory is copied to the target and shadowing begins. -/
  | migrateCopy (poison : Bool)
  /-- MIGRATE_SHADOW_LINE (R454). A shadowed line's outputs are compared on both tiles. -/
  | migrateShadowLine (seq : BitVec 16) (check equal quick : Bool)
  /-- MIGRATE_CUT (R452). At L_cut the target becomes the instance's tile and the old tile is handled by reason. -/
  | migrateCut (seq : BitVec 16)
  /-- MIGRATE_IDLE_CUT (R454). An instance idle for IDLE_MS is cut over at once. -/
  | migrateIdleCut
  /-- AGE_MEASURE (R450). Once per powered hour ring-oscillator pairs record each region's aging. -/
  | ageMeasure (ppm : List (BitVec 16))
  /-- MARGIN_SAMPLE (R457). Every 100 us the margin monitors of powered regions are sampled. -/
  | marginSample (m : List (BitVec 8))
  /-- AVS_STEP (R458). Every 1 ms the voltage loop sets the VID code and F_PERMIT. -/
  | avsStep
  /-- DROOP (R460). A monitor below 5 ps stretches its region's clock and raises DROOP. -/
  | droop (r : Fin 16) (monitor : Fin 8) (ps : BitVec 8)
  /-- TWB_XFER_GO (R464). Writing TWB_XFER.GO starts a controller write/read transfer. -/
  | twbXferGo (ini : Ini) (n : Fin 4) (v : Word)
  /-- TWB_PROBE (R464). GO with PROBE sends only the address and reports its acknowledge. -/
  | twbProbe (ini : Ini) (n : Fin 4) (v : Word)
  /-- TWB_XFER_DONE (R464). A transfer completes, sets DONE and RESULT and raises TWB_DONE. -/
  | twbXferDone (n : Fin 4) (how : XferEnd)
  /-- TWB_TARGET_WRITE (R466). A controller writes to the TWB0 target, filling TWB_TGT_RX. -/
  | twbTargetWrite (bytes : List (BitVec 8))
  /-- TWB_TARGET_READ (R466). A controller reads from the TWB0 target, sending TWB_TGT_TX bytes. -/
  | twbTargetRead (count : BitVec 16)
  /-- RX_FULL_CLEAR (R466). Writing 1 to RX_FULL frees the target receive buffer. -/
  | rxFullClear (ini : Ini) (v : Word)
  /-- TX_READY_SET (R466). Setting TX_READY prepares the target to answer a read. -/
  | txReadySet (ini : Ini) (v : Word)
  /-- IBR_DETECT (R468). SDA low for IBR_MIN_US is acknowledged as an in-band request. -/
  | ibrDetect (n : Fin 4) (us : BitVec 16)
  /-- IBR_GO (R469). Writing IBR_GO makes the TWB0 target request in-band. -/
  | ibrGo (ini : Ini) (v : Word)
  /-- SCL_LOW_TIMEOUT (R470). SCL low beyond SCL_LOW_US ends the transfer and releases the lines. -/
  | sclLowTimeout (n : Fin 4) (us : BitVec 32) (k : BitVec 6)
  /-- SDA_LOW_TIMEOUT (R470). SDA low beyond SDA_LOW_US starts bus recovery. -/
  | sdaLowTimeout (n : Fin 4) (us : BitVec 32) (pulses : Fin 10) (ok : Bool)
  /-- TWB_MEAS_GO (R472). Writing TWB_MEAS.GO measures bus rise times at the next free moment. -/
  | twbMeasGo (ini : Ini) (n : Fin 4) (v : Word)
  /-- TWB_MEAS_DONE (R472). A measurement completes, sets VALID and raises TWB_MEAS_DONE. -/
  | twbMeasDone (n : Fin 4) (rise : Option (BitVec 16 × BitVec 16))
  /-- POD_START (R477). PER_POD_START with AT 0 starts the named engines on the next edge. -/
  | podStart (ini : Ini) (v : Word)
  /-- POD_TIMED_START (R477). Device time reaches PER_POD_AT and the named engines start. -/
  | podTimedStart
  /-- POD_STOP (R477). PER_POD_STOP stops the named engines on the next edge. -/
  | podStop (ini : Ini) (v : Word)
  /-- POD_STEP_END (R474). A step's hold and gate end and the engine follows NEXT to its next step. -/
  | podStepEnd (b : Fin 2) (e : Fin 4) (pins : BitVec 16)
  /-- POD_FEED_WRITE (R475). A write of POD_E_FEED pushes a word to the feed queue. -/
  | podFeedWrite (ini : Ini) (b : Fin 2) (e : Fin 4) (v : Word)
  /-- POD_CATCH_READ (R475). A read of POD_E_CATCH pops the oldest catch word. -/
  | podCatchRead (ini : Ini) (b : Fin 2) (e : Fin 4)
  /-- POD_CUE_SET (R474). A w1s write of POD_CUES sets cues of the block. -/
  | podCueSet (ini : Ini) (b : Fin 2) (v : Word)
  /-- GPIO_SET (R478). Writing GPIO_SET sets bits of GPIO_OUT. -/
  | gpioSet (ini : Ini) (v : Word)
  /-- GPIO_CLR (R478). Writing GPIO_CLR clears bits of GPIO_OUT. -/
  | gpioClr (ini : Ini) (v : Word)
  /-- GPIO_EDGE (R478). An enabled GPIO edge sets its GPIO_PEND bit and raises GPIO_EDGE. -/
  | gpioEdge (pin : Fin 24) (level : Bool)
  /-- ENCODER_COUNT (R480). A filtered encoder edge counts into ENC_POS and the time engine's web position. -/
  | encoderCount (e : Fin 4) (a b : Bool)
  /-- ENC_INDEX (R480). The first index edge copies ENC_POS into ENC_IDX_POS and sets IDX_SEEN. -/
  | encIndex (e : Fin 4) (level : Bool)
  /-- ENC_POS_WRITE (R480). A write of ENC_POS replaces the count, adding a same-clock count. -/
  | encPosWrite (ini : Ini) (e : Fin 4) (v : Word) (count : Option (Bool × Bool))
  /-- STB_PULSE_START (R481). At TIME_NS plus OFFSET_NS a strobe pulse starts. -/
  | stbPulseStart (k : Fin 8)
  /-- STB_PULSE_END (R481). WIDTH_NS after its start a strobe pulse ends. -/
  | stbPulseEnd (k : Fin 8)
  /-- STB_PWM_PERIOD (R481). In CONTINUOUS mode each PERIOD_US starts an active phase of DUTY_PM. -/
  | stbPwmPeriod (k : Fin 8)
  /-- STB_LOAD_MEASURE (R482). 1 us into an active phase the load current is measured into ILOAD, flagging open
  load. -/
  | stbLoadMeasure (k : Fin 8) (ma : BitVec 12)
  /-- STB_SHORT (R482). Current above SHORT for 1 us makes the output inactive and sets FAULT. -/
  | stbShort (k : Fin 8)
  /-- STB_FAULT_CLEAR (R482). Writing 1 to FAULT lets the output resume. -/
  | stbFaultClear (ini : Ini) (k : Fin 8) (v : Word)
  /-- OCTET_PLL_LOCK (R59). An octet PLL locks to its LANE_REFCLK, after a move from OFF to STANDBY or after the
  reference clock returns, so that its enabled lanes can leave GATED and train. -/
  | octetPllLock (o : Fin 16)
  /-- STRAY_BLOCK (R122). A DATA or END block outside any frame, a reserved control block, or an error-marked
  block with no frame open arrives on a lane group and is discarded or fails the innermost frame. -/
  | strayBlock (n : Fin 128) (kind : Stray) (inside : Option (Byte × RxFrame))
  /-- UNEXPECTED_FRAME (R85). A frame arrives whose TYPE is unknown, whose class does not match its type, or that
  travels against its direction, and it is discarded as a framing error without an answer. -/
  | unexpectedFrame (typ : Byte) (f : RxFrame)
  /-- TRIGGER_UNSENT (R150). Device time reaches the TIME_NS of a trigger that is still queued, so the trigger is
  not sent, DLINE_MISS is raised with bit 32 set, and its line is not expected. -/
  | triggerUnsent (g : Fin 256)
  /-- BUS_MASTER_ENABLE (R350). The host sets Bus Master Enable, and upstream requests that were waiting in the
  gateway, together with pending MSI-X triggers, are issued. -/
  | busMasterEnable (c : CfgSpace)
  /-- TWB_BUS_FREE (R464). A STOP, or the bus-free time with both lines high, is seen on a two-wire bus, and a
  transfer or measurement waiting for a free bus starts. -/
  | twbBusFree (n : Fin 4)
  /-- DEBUG_HALT (R415). The debug port halts a core, which then shows STATE 3 while its watchdog count pauses. -/
  | debugHalt (n : Fin 4)
  /-- DEBUG_RESUME (R415). The debug port releases a halted core, which resumes running and whose watchdog count
  continues. -/
  | debugResume (n : Fin 4)
  /-- VBAK_POR (R434). The backup domain comes out of its own power-on reset when a cell is applied with main
  power absent, and VBAK_POR is latched. -/
  | vbakPor
  deriving DecidableEq, Repr

end Sys2Proof
end

