-- ==== Sys2Proof/Machine/Data.lean ====
section
/-!
DEFINITION. Plain helpers on numbers, words, bytes and key lists that every block shares: bit fields,
signed readings, saturation, byte order, the CRC of R79 and R124, and sorted key lists.
-/
namespace Sys2Proof.Machine

/-- Bits [hi:lo] of a natural number. -/
def bits (n hi lo : Nat) : Nat := n / 2 ^ lo % 2 ^ (hi + 1 - lo)

/-- Field [hi:lo] of a register word (R3). -/
def fld (w : Word) (hi lo : Nat) : Nat := bits w.toNat hi lo

/-- Bit `b` of a register word. -/
def bit (w : Word) (b : Nat) : Bool := w.toNat.testBit b

/-- The number `n` with its bits [hi:lo] replaced by the low bits of `v`. -/
def setBits (n hi lo v : Nat) : Nat :=
  n - bits n hi lo * 2 ^ lo + v % 2 ^ (hi + 1 - lo) * 2 ^ lo

/-- The word with its field [hi:lo] replaced. -/
def setFld (w : Word) (hi lo v : Nat) : Word := BitVec.ofNat 32 (setBits w.toNat hi lo v)

/-- A Bool as one bit. -/
def b2n (b : Bool) : Nat := if b then 1 else 0

/-- A word from a natural number, wrapping. -/
def word (n : Nat) : Word := BitVec.ofNat 32 n

/-- The number with `mask`'s bits cleared. -/
def clearMask (n mask : Nat) : Nat := n - (n &&& mask)

/-- The low `n` bits of `v` read as a two's complement number. -/
def sint (n v : Nat) : Int :=
  if v % 2 ^ n < 2 ^ (n - 1) then ((v % 2 ^ n : Nat) : Int) else ((v % 2 ^ n : Nat) : Int) - ((2 ^ n : Nat) : Int)

/-- An integer in `n` bits, wrapping, as a natural number. -/
def wrapTo (n : Nat) (i : Int) : Nat := (i % ((2 ^ n : Nat) : Int)).toNat

/-- An integer in 64 bits, as event arguments carry it (R518). -/
def arg64 (i : Int) : Nat := wrapTo 64 i

/-- Clamp an integer between two bounds. -/
def clampI (lo hi i : Int) : Int := if i < lo then lo else if hi < i then hi else i

/-- Clamp to an unsigned 16-bit sample. -/
def u16 (i : Int) : Nat := (clampI 0 65535 i).toNat

/-- Clamp to a signed 16-bit value. -/
def s16 (i : Int) : Int := clampI (-32768) 32767 i

/-- Arithmetic shift right of an integer: division rounding down. -/
def sar (i : Int) (k : Nat) : Int := i / ((2 ^ k : Nat) : Int)

/-- A counter that stops at 0xFFFF_FFFF. -/
def satAdd32 (n k : Nat) : Nat := min (n + k) 0xFFFFFFFF

/-- Ceiling division. -/
def ceilDiv (a b : Nat) : Nat := (a + b - 1) / b

/-- The value of `n` little-endian bytes. -/
def leVal : List Byte → Nat
  | [] => 0
  | b :: bs => b.toNat + 256 * leVal bs

/-- The `n` low bytes of a number, little-endian. -/
def leBytes : Nat → Nat → List Byte
  | 0, _ => []
  | n + 1, v => BitVec.ofNat 8 v :: leBytes n (v / 256)

/-- The number held little-endian in `n` bytes from offset `o` of a byte list; missing bytes read 0. -/
def leAt (bs : List Byte) (o n : Nat) : Nat := leVal ((bs.drop o).take n)

/-- One bit step of a reflected CRC-32 with the reflected polynomial `poly`. -/
def crcBit (poly c : Nat) : Nat := if c % 2 = 1 then (c / 2) ^^^ poly else c / 2

/-- `k` bit steps of a reflected CRC-32. -/
def crcBits (poly : Nat) : Nat → Nat → Nat
  | 0, c => c
  | k + 1, c => crcBits poly k (crcBit poly c)

/-- The reflected CRC-32 state after a byte list. -/
def crcRun (poly : Nat) : List Byte → Nat → Nat
  | [], c => c
  | b :: bs, c => crcRun poly bs (crcBits poly 8 (c ^^^ b.toNat))

/-- The reflected polynomial of CRC-32C (R79). -/
def polyC : Nat := 0x82F63B78

/-- The reflected polynomial of CRC-32/ISO-HDLC (R124). -/
def polyHdlc : Nat := 0xEDB88320

/-- A CRC with the initial value and final exclusive-or 0xFFFF_FFFF, continued from the check value `prev`
(0 for a fresh start). -/
def crc32 (poly : Nat) (bs : List Byte) (prev : Nat) : Nat := crcRun poly bs (prev ^^^ 0xFFFFFFFF) ^^^ 0xFFFFFFFF

/-- The CRC-32C check value of a byte list (R79). -/
def crc32c (bs : List Byte) : Nat := crc32 polyC bs 0

/-- The first entry under key `k` of a key list. -/
def mget? {α : Type} (k : Nat) : List (Nat × α) → Option α
  | [] => none
  | (j, v) :: r => if j = k then some v else mget? k r

/-- The entry under key `k`, or the default. -/
def mget {α : Type} (d : α) (k : Nat) (m : List (Nat × α)) : α := (mget? k m).getD d

/-- Put an entry under a key, keeping the keys rising. -/
def mput {α : Type} (k : Nat) (v : α) : List (Nat × α) → List (Nat × α)
  | [] => [(k, v)]
  | (j, w) :: r => if k < j then (k, v) :: (j, w) :: r else if j = k then (k, v) :: r else (j, w) :: mput k v r

/-- Remove every entry under a key. -/
def mdel {α : Type} (k : Nat) : List (Nat × α) → List (Nat × α)
  | [] => []
  | (j, w) :: r => if j = k then mdel k r else (j, w) :: mdel k r

/-- The element at an index, or the default. -/
def nthD {α : Type} (d : α) : Nat → List α → α
  | _, [] => d
  | 0, x :: _ => x
  | n + 1, _ :: xs => nthD d n xs

/-- Replace the element at an index; nothing happens past the end. -/
def setNth {α : Type} (v : α) : Nat → List α → List α
  | _, [] => []
  | 0, _ :: xs => v :: xs
  | n + 1, x :: xs => x :: setNth v n xs

/-- The naturals from `a` up, `n` of them. -/
def upFrom (a : Nat) : Nat → List Nat
  | 0 => []
  | n + 1 => a :: upFrom (a + 1) n

/-- The naturals 0 to n - 1. -/
def upto (n : Nat) : List Nat := upFrom 0 n

/-- Sum of a function over a list. -/
def sumOf {α : Type} (f : α → Nat) : List α → Nat
  | [] => 0
  | x :: xs => f x + sumOf f xs

/-- Integer sum of a function over a list. -/
def isumOf {α : Type} (f : α → Int) : List α → Int
  | [] => 0
  | x :: xs => f x + isumOf f xs

/-- The first element that passes a test. -/
def firstWhere {α : Type} (p : α → Bool) : List α → Option α
  | [] => none
  | x :: xs => if p x then some x else firstWhere p xs

/-- Cut a list into pieces of `n` elements, at most `fuel` of them. -/
def chunks {α : Type} (n : Nat) : Nat → List α → List (List α)
  | 0, _ => []
  | _, [] => []
  | fuel + 1, l => l.take n :: chunks n fuel (l.drop n)

/-- Remove the first element that passes a test. -/
def dropFirst {α : Type} (p : α → Bool) : List α → List α
  | [] => []
  | x :: xs => if p x then xs else x :: dropFirst p xs

end Sys2Proof.Machine
end

