-- ==== Sys2Proof/Machine/Offsets.lean ====
section
/-!
DEFINITION. The byte offset in BAR0 of every register, one function per register of the spec's tables, with its
instance numbers as arguments (R499, R501 and the register table of each block). The names are the spec's own:
`Reg.LNE_LN_CTRL n` is the offset of LNE_LN_CTRL[n].
-/
namespace Sys2Proof.Machine.Reg

def HGW_CTRL : Nat := 0x0
def HGW_STATUS : Nat := 0x4
def HGW_EVT_MASK : Nat := 0x8
def HGW_CAP_UP : Nat := 0xc
def HGW_CAP_DOWN : Nat := 0x10
def HGW_DECL_UP : Nat := 0x14
def HGW_DECL_DOWN : Nat := 0x18
def HGW_L0P_POLICY : Nat := 0x1c
def HGW_L0P_SET : Nat := 0x20
def HGW_WIN_BASE_LO (i : Nat) : Nat := 0x24 + 0x8 * i
def HGW_WIN_BASE_HI (i : Nat) : Nat := 0x28 + 0x8 * i
def HGW_SUBSYS : Nat := 0x3c
def HGW_TAGS : Nat := 0x40
def HGW_CPL_TO : Nat := 0x44
def HGW_UR : Nat := 0x48
def HGW_UNMAPPED : Nat := 0x4c
def HGW_TLP_ERR : Nat := 0x50
def HGW_FLR : Nat := 0x54
def HAM_CTRL : Nat := 0x100000
def HAM_STATUS : Nat := 0x100004
def HAM_EVT_MASK : Nat := 0x100008
def HAM_PWR_REQ : Nat := 0x10000c
def HAM_PWR_CFG : Nat := 0x100010
def HAM_WAKE_EN : Nat := 0x100014
def HAM_WAKE_RUN : Nat := 0x100018
def HAM_WAKE_HOST : Nat := 0x10001c
def HAM_WAKE_STATUS : Nat := 0x100020
def HAM_WAKE_GPIO : Nat := 0x100024
def HAM_WAKE_POD : Nat := 0x100028
def HAM_WAKE_MISC : Nat := 0x10002c
def HAM_ALARM : Nat := 0x100030
def HAM_ALARM_EN : Nat := 0x100034
def HAM_RESET : Nat := 0x100038
def HAM_RESET_CAUSE : Nat := 0x10003c
def HAM_MON_CFG : Nat := 0x100080
def HAM_EVT_LOST : Nat := 0x100084
def HAM_BK_CTRL : Nat := 0x1000c0
def HAM_BK_STATUS : Nat := 0x1000c4
def HAM_BK_CHECK : Nat := 0x1000c8
def HAM_BK_SEC_LO : Nat := 0x1000cc
def HAM_BK_SEC_HI : Nat := 0x1000d0
def HAM_BK_TICKS : Nat := 0x1000d4
def HAM_MON_THR (i : Nat) : Nat := 0x100100 + 0x8 * i
def HAM_MON_VAL (i : Nat) : Nat := 0x100104 + 0x8 * i
def HAM_SAFE_CTRL (i : Nat) : Nat := 0x100200 + 0x20 * i
def HAM_SAFE_STATUS (i : Nat) : Nat := 0x100204 + 0x20 * i
def HAM_SAFE_ACK (i : Nat) : Nat := 0x100208 + 0x20 * i
def HAM_SAFE_COUNT (i : Nat) : Nat := 0x10020c + 0x20 * i
def HAM_SAFE_GPIO : Nat := 0x100240
def HAM_SAFE_LEVEL : Nat := 0x100244
def HAM_BK_REG (i : Nat) : Nat := 0x100300 + 0x4 * i
def CFG_CTRL : Nat := 0x200000
def CFG_STATUS : Nat := 0x200004
def CFG_EVT_MASK : Nat := 0x200008
def CFG_SEQ : Nat := 0x20000c
def CFG_SEQ_FLOOR : Nat := 0x200010
def CFG_FUSE : Nat := 0x200014
def CFG_KEY_HASH (i : Nat) : Nat := 0x200018 + 0x4 * i
def CFG_LD_ADDR_LO : Nat := 0x200048
def CFG_LD_ADDR_HI : Nat := 0x20004c
def CFG_LD_LEN : Nat := 0x200050
def CFG_LIVE : Nat := 0x200054
def CFG_AFFECTED : Nat := 0x200058
def CFG_REFUSE_AT : Nat := 0x20005c
def CFG_FL_CTRL : Nat := 0x200060
def CFG_FL_ADDR : Nat := 0x200064
def CFG_FL_LEN : Nat := 0x200068
def CFG_FL_DEV_LO : Nat := 0x20006c
def CFG_FL_DEV_HI : Nat := 0x200070
def CFG_FL_STATUS : Nat := 0x200074
def CFG_FL_ID : Nat := 0x200078
def CFG_LOADS : Nat := 0x20007c
def CFG_CUTS : Nat := 0x200080
def CFG_REFUSALS : Nat := 0x200084
def CCO_CTRL : Nat := 0x300000
def CCO_STATUS : Nat := 0x300004
def CCO_EVT_MASK : Nat := 0x300008
def CCO_CLK : Nat := 0x30000c
def CCO_DRAM_ATTR (i : Nat) : Nat := 0x300010 + 0x4 * i
def CCO_MTIME_LO : Nat := 0x300020
def CCO_MTIME_HI : Nat := 0x300024
def CCO_MBX_IN (i : Nat) : Nat := 0x300100 + 0x4 * i
def CCO_MBX_IN_DB : Nat := 0x300120
def CCO_MBX_OUT (i : Nat) : Nat := 0x300140 + 0x4 * i
def CCO_MBX_OUT_DB : Nat := 0x300160
def CCO_CORE_CTRL (i : Nat) : Nat := 0x301000 + 0x100 * i
def CCO_CORE_STATUS (i : Nat) : Nat := 0x301004 + 0x100 * i
def CCO_CORE_ENTRY_LO (i : Nat) : Nat := 0x301008 + 0x100 * i
def CCO_CORE_ENTRY_HI (i : Nat) : Nat := 0x30100c + 0x100 * i
def CCO_IRQ_PEND (i : Nat) : Nat := 0x301010 + 0x100 * i
def CCO_IRQ_EN (i : Nat) : Nat := 0x301014 + 0x100 * i
def CCO_RQ_PEND_LO (i : Nat) : Nat := 0x301018 + 0x100 * i
def CCO_RQ_PEND_HI (i : Nat) : Nat := 0x30101c + 0x100 * i
def CCO_MOV_PEND_LO (i : Nat) : Nat := 0x301020 + 0x100 * i
def CCO_MOV_PEND_HI (i : Nat) : Nat := 0x301024 + 0x100 * i
/-- [DEDUCED, log 109] -/
def CCO_MSIP (i : Nat) : Nat := 0x301028 + 0x100 * i
def CCO_TIMECMP_LO (i : Nat) : Nat := 0x30102c + 0x100 * i
def CCO_TIMECMP_HI (i : Nat) : Nat := 0x301030 + 0x100 * i
def CCO_WDG_CTRL (i : Nat) : Nat := 0x301034 + 0x100 * i
def CCO_WDG_KICK (i : Nat) : Nat := 0x301038 + 0x100 * i
def CCO_WDG_COUNT (i : Nat) : Nat := 0x30103c + 0x100 * i
def CCO_CORE_FAULTS (i : Nat) : Nat := 0x301040 + 0x100 * i
def CCO_WDG_RESETS (i : Nat) : Nat := 0x301044 + 0x100 * i
def BCH_CTRL : Nat := 0x400000
def BCH_STATUS : Nat := 0x400004
def BCH_EVT_MASK : Nat := 0x400008
def BCH_AVS_POLICY : Nat := 0x40000c
def BCH_AVS_BOUND : Nat := 0x400010
def BCH_AVS_TARGET : Nat := 0x400014
def BCH_AVS_VID : Nat := 0x400018
def BCH_AVS_STATUS : Nat := 0x40001c
def BCH_ROW_T : Nat := 0x400020
def BCH_POOL_SPARE : Nat := 0x400024
def BCH_DRAM_CTRL : Nat := 0x400028
def BCH_DRAM_STATUS : Nat := 0x40002c
def BCH_TEST_SCHED : Nat := 0x400030
def BCH_TEST_CTRL : Nat := 0x400034
def BCH_TEST_STATUS : Nat := 0x400038
def BCH_MIG_CTRL : Nat := 0x40003c
def BCH_MIG_CFG : Nat := 0x400040
def BCH_MIG_STATUS : Nat := 0x400044
def BCH_AGE_WARN : Nat := 0x400048
def BCH_HOURS : Nat := 0x40004c
def BCH_MAP_STATUS : Nat := 0x400050
def BCH_MIGRATIONS : Nat := 0x400054
def BCH_MIG_ABANDONED : Nat := 0x400058
def BCH_TESTS : Nat := 0x40005c
def BCH_TEST_FAILS : Nat := 0x400060
def BCH_DROOPS : Nat := 0x400064
def BCH_REGION (i : Nat) : Nat := 0x400100 + 0x4 * i
def LNE_CTRL : Nat := 0x500000
def LNE_STATUS : Nat := 0x500004
def LNE_MARGIN : Nat := 0x500008
def LNE_EVT_MASK : Nat := 0x50000c
def LNE_OCT_CTRL (i : Nat) : Nat := 0x501000 + 0x20 * i
def LNE_OCT_STATUS (i : Nat) : Nat := 0x501004 + 0x20 * i
def LNE_LN_CTRL (i : Nat) : Nat := 0x502000 + 0x40 * i
def LNE_LN_STATUS (i : Nat) : Nat := 0x502004 + 0x40 * i
def LNE_LN_CHAN (i : Nat) : Nat := 0x502008 + 0x40 * i
def LNE_LN_FEC_CORR (i : Nat) : Nat := 0x50200c + 0x40 * i
def LNE_LN_FEC_UNCORR (i : Nat) : Nat := 0x502010 + 0x40 * i
def LNE_LN_EQ (i : Nat) : Nat := 0x502014 + 0x40 * i
def LNE_LN_TXEQ (i : Nat) : Nat := 0x502018 + 0x40 * i
def PLK_CTRL : Nat := 0x600000
def PLK_STATUS : Nat := 0x600004
def PLK_TIMING : Nat := 0x600008
def PLK_EVT_MASK : Nat := 0x60000c
def PLK_LANE_ERR : Nat := 0x600010
def PLK_TUN_CTRL (i : Nat) : Nat := 0x601000 + 0x200 * i
def PLK_TUN_ADDR (i : Nat) : Nat := 0x601004 + 0x200 * i
def PLK_TUN_STATUS (i : Nat) : Nat := 0x601008 + 0x200 * i
def PLK_TUN_DATA (i j : Nat) : Nat := 0x601100 + 0x200 * i + 0x4 * j
def TIM_CTRL : Nat := 0x700000
def TIM_STATUS : Nat := 0x700004
def TIM_NOW_FRAC : Nat := 0x700008
def TIM_NOW_NS : Nat := 0x70000c
def TIM_NOW_SEC_LO : Nat := 0x700010
def TIM_NOW_SEC_HI : Nat := 0x700014
def TIM_RATE_LO : Nat := 0x700018
def TIM_RATE_HI : Nat := 0x70001c
def TIM_ADJ_CTRL : Nat := 0x700020
def TIM_ADJ_NS : Nat := 0x700024
def TIM_ADJ_SEC : Nat := 0x700028
def TIM_ADJ_GO : Nat := 0x70002c
def TIM_SRC : Nat := 0x700030
def TIM_SERVO : Nat := 0x700034
def TIM_HOLD : Nat := 0x700038
def TIM_SYNC : Nat := 0x70003c
def TIM_PTM : Nat := 0x700040
def TIM_PTM_BASE_LO : Nat := 0x700044
def TIM_PTM_BASE_HI : Nat := 0x700048
def TIM_OFFSET : Nat := 0x70004c
def TIM_PULSE_CTRL : Nat := 0x700050
def TIM_TP_PERIOD : Nat := 0x700054
def TIM_TP_WIDTH : Nat := 0x700058
def TIM_CYC_CTRL : Nat := 0x70005c
def TIM_CYC_NUM : Nat := 0x700060
def TIM_JOB : Nat := 0x700064
def TIM_WEB_LO : Nat := 0x700068
def TIM_WEB_HI : Nat := 0x70006c
def TIM_DLINE_MISS : Nat := 0x700070
def TIM_DSYNC_MISS : Nat := 0x700074
def TIM_EVT_MASK : Nat := 0x700078
def TIM_ENC_SCALE (i : Nat) : Nat := 0x700080 + 0x4 * i
def TIM_TRG_CTRL (i : Nat) : Nat := 0x701000 + 0x20 * i
def TIM_TRG_PERIOD (i : Nat) : Nat := 0x701004 + 0x20 * i
def TIM_TRG_OFFSET (i : Nat) : Nat := 0x701008 + 0x20 * i
def TIM_TRG_LEAD (i : Nat) : Nat := 0x70100c + 0x20 * i
def TIM_TRG_EXPO (i : Nat) : Nat := 0x701010 + 0x20 * i
def TIM_TRG_FRAME (i : Nat) : Nat := 0x701014 + 0x20 * i
def TIM_TRG_SEQ (i : Nat) : Nat := 0x701018 + 0x20 * i
def TIM_CAP_CTRL (i : Nat) : Nat := 0x703000 + 0x20 * i
def TIM_CAP_FRAC (i : Nat) : Nat := 0x703004 + 0x20 * i
def TIM_CAP_NS (i : Nat) : Nat := 0x703008 + 0x20 * i
def TIM_CAP_SEC_LO (i : Nat) : Nat := 0x70300c + 0x20 * i
def TIM_CAP_SEC_HI (i : Nat) : Nat := 0x703010 + 0x20 * i
def TIM_CAP_LOST (i : Nat) : Nat := 0x703014 + 0x20 * i
def ERG_CTRL : Nat := 0x800000
def ERG_STATUS : Nat := 0x800004
def ERG_TILES : Nat := 0x800008
def ERG_SPARE_FREE_LO : Nat := 0x80000c
def ERG_SPARE_FREE_HI : Nat := 0x800010
def ERG_SPARE_FREE_OAS : Nat := 0x800014
def ERG_FCLK_POLICY : Nat := 0x800018
def ERG_FCLK_SET : Nat := 0x80001c
def ERG_FCLK_NOW : Nat := 0x800020
def ERG_FCLK_MIN : Nat := 0x800024
def ERG_STRUCT_SEQ : Nat := 0x800028
def ERG_USE : Nat := 0x80002c
def ERG_REGION_PWR : Nat := 0x800030
def ERG_STALL_LO : Nat := 0x800038
def ERG_STALL_HI : Nat := 0x80003c
def ERG_ECC_CORR : Nat := 0x800040
def ERG_EVT_MASK : Nat := 0x800044
def ERG_MAP (i : Nat) : Nat := 0x810000 + 0x4 * i
def ERG_PTILE (i : Nat) : Nat := 0x820000 + 0x4 * i
def ERG_INST (i : Nat) : Nat := 0x840000 + 0x4 * i
def CAP_GCTRL : Nat := 0x940000
def CAP_GSTATUS : Nat := 0x940004
def CAP_EVT_MASK : Nat := 0x940008
def CAP_CTRL (i : Nat) : Nat := 0x900000 + 0x400 * i
def CAP_STATUS (i : Nat) : Nat := 0x900004 + 0x400 * i
def CAP_FMT (i : Nat) : Nat := 0x900008 + 0x400 * i
def CAP_WIDTH (i : Nat) : Nat := 0x90000c + 0x400 * i
def CAP_ACT (i : Nat) : Nat := 0x900010 + 0x400 * i
def CAP_DARK (i : Nat) : Nat := 0x900014 + 0x400 * i
def CAP_PAD (i : Nat) : Nat := 0x900018 + 0x400 * i
def CAP_SW (i : Nat) : Nat := 0x90001c + 0x400 * i
def CAP_SW_LAT (i : Nat) : Nat := 0x900020 + 0x400 * i
def CAP_MISS_TO (i : Nat) : Nat := 0x900024 + 0x400 * i
def CAP_BLK_TAU (i : Nat) : Nat := 0x900028 + 0x400 * i
def CAP_BLK_K (i : Nat) : Nat := 0x90002c + 0x400 * i
def CAP_DPC_SENS (i : Nat) : Nat := 0x900030 + 0x400 * i
def CAP_DPC_T (i : Nat) : Nat := 0x900034 + 0x400 * i
def CAP_DPC_K (i : Nat) : Nat := 0x900038 + 0x400 * i
def CAP_WB_AUTO (i : Nat) : Nat := 0x90003c + 0x400 * i
def CAP_WB_WIN (i : Nat) : Nat := 0x900040 + 0x400 * i
def CAP_WB_BOUND (i : Nat) : Nat := 0x900044 + 0x400 * i
def CAP_DPC_ST_LO (i : Nat) : Nat := 0x900048 + 0x400 * i
def CAP_DPC_ST_HI (i : Nat) : Nat := 0x90004c + 0x400 * i
def CAP_CAL_CTRL (i : Nat) : Nat := 0x900050 + 0x400 * i
def CAP_CAL_TARGET (i : Nat) : Nat := 0x900054 + 0x400 * i
def CAP_CAL_STATUS (i : Nat) : Nat := 0x900058 + 0x400 * i
def CAP_EXP_SEQ (i : Nat) : Nat := 0x90005c + 0x400 * i
def CAP_FRAME_NOW (i : Nat) : Nat := 0x900060 + 0x400 * i
def CAP_COUNTS (i j : Nat) : Nat := 0x900064 + 0x400 * i + 0x4 * j
def CAP_WB_NOW (i j : Nat) : Nat := 0x9000a8 + 0x400 * i + 0x4 * j
def CAP_BLK_NOW (i j : Nat) : Nat := 0x90009c + 0x400 * i + 0x4 * j
def CAP_FMT_ERR (i : Nat) : Nat := 0x9000b4 + 0x400 * i
def BK_CTRL (i j : Nat) : Nat := 0x900100 + 0x400 * i + 0xc0 * j
def BK_TBL_LO (i j : Nat) : Nat := 0x900104 + 0x400 * i + 0xc0 * j
def BK_TBL_HI (i j : Nat) : Nat := 0x900108 + 0x400 * i + 0xc0 * j
def BK_BLK_OFF (i j k : Nat) : Nat := 0x90010c + 0x400 * i + 0xc0 * j + 0x4 * k
def BK_DCOL_REF (i j k : Nat) : Nat := 0x900118 + 0x400 * i + 0xc0 * j + 0x4 * k
def BK_WB_GAIN (i j k : Nat) : Nat := 0x900124 + 0x400 * i + 0xc0 * j + 0x4 * k
def BK_LENS_C (i j : Nat) : Nat := 0x900130 + 0x400 * i + 0xc0 * j
def BK_LENS_A (i j : Nat) : Nat := 0x900134 + 0x400 * i + 0xc0 * j
def BK_CMAT (i j k : Nat) : Nat := 0x900138 + 0x400 * i + 0xc0 * j + 0x4 * k
def BK_CMAT_OFF (i j k : Nat) : Nat := 0x900168 + 0x400 * i + 0xc0 * j + 0x4 * k
def OUT_GCTRL : Nat := 0xa40000
def OUT_GSTATUS : Nat := 0xa40004
def OUT_EVT_MASK : Nat := 0xa40008
def OUT_TAP_CTRL (i : Nat) : Nat := 0xa00000 + 0x100 * i
def OUT_TAP_STATUS (i : Nat) : Nat := 0xa00004 + 0x100 * i
def OUT_CROP (i : Nat) : Nat := 0xa00008 + 0x100 * i
def OUT_DECL_X (i : Nat) : Nat := 0xa0000c + 0x100 * i
def OUT_DECL_Y (i : Nat) : Nat := 0xa00010 + 0x100 * i
def OUT_SCALE (i : Nat) : Nat := 0xa00014 + 0x100 * i
def OUT_PACK (i : Nat) : Nat := 0xa00018 + 0x100 * i
def OUT_FILTER (i : Nat) : Nat := 0xa0001c + 0x100 * i
def OUT_COEF_LO (i : Nat) : Nat := 0xa00020 + 0x100 * i
def OUT_COEF_HI (i : Nat) : Nat := 0xa00024 + 0x100 * i
def OUT_LAT (i : Nat) : Nat := 0xa00028 + 0x100 * i
def OUT_LINES (i j : Nat) : Nat := 0xa0002c + 0x100 * i + 0x4 * j
def SEI_GCTRL : Nat := 0xb40000
def SEI_GSTATUS : Nat := 0xb40004
def SEI_EVT_MASK : Nat := 0xb40008
def SEI_WB_CTRL (i : Nat) : Nat := 0xb40100 + 0x20 * i
def SEI_WB_WIN (i : Nat) : Nat := 0xb40104 + 0x20 * i
def SEI_WB_THR (i : Nat) : Nat := 0xb40108 + 0x20 * i
def SEI_WB_STATUS (i : Nat) : Nat := 0xb4010c + 0x20 * i
def SEI_WB_EDGE (i : Nat) : Nat := 0xb40110 + 0x20 * i
def SEI_PM_CTRL (i : Nat) : Nat := 0xb40400 + 0x20 * i
def SEI_PM_CFG (i : Nat) : Nat := 0xb40404 + 0x20 * i
def SEI_PM_AREA (i : Nat) : Nat := 0xb40408 + 0x20 * i
def SEI_PM_WIN (i j : Nat) : Nat := 0xb4040c + 0x20 * i + 0x4 * j
def SEI_PM_COUNT (i : Nat) : Nat := 0xb40414 + 0x20 * i
def SEI_BAR_CTRL (i : Nat) : Nat := 0xb00000 + 0x2000 * i
def SEI_BAR_STATUS (i : Nat) : Nat := 0xb00004 + 0x2000 * i
def SEI_BAR_GRID (i : Nat) : Nat := 0xb00008 + 0x2000 * i
def SEI_BAR_WIDTH (i : Nat) : Nat := 0xb0000c + 0x2000 * i
def SEI_BAR_DIST (i : Nat) : Nat := 0xb00010 + 0x2000 * i
def SEI_BAR_SPAN (i : Nat) : Nat := 0xb00014 + 0x2000 * i
def SEI_BAR_FRAME (i : Nat) : Nat := 0xb00018 + 0x2000 * i
def SEI_BAR_FILL (i : Nat) : Nat := 0xb0001c + 0x2000 * i
def SEI_BAR_STALL (i : Nat) : Nat := 0xb00020 + 0x2000 * i
def SEI_BAR_REG (i : Nat) : Nat := 0xb00024 + 0x2000 * i
def SEI_BAR_LOOP (i : Nat) : Nat := 0xb00028 + 0x2000 * i
def SEI_BAR_APPLY (i : Nat) : Nat := 0xb0002c + 0x2000 * i
def SEI_BAR_MARK_CFG (i : Nat) : Nat := 0xb00030 + 0x2000 * i
def SEI_BAR_MARK_AREA (i : Nat) : Nat := 0xb00034 + 0x2000 * i
def SEI_BAR_MARK_Y0 (i : Nat) : Nat := 0xb00038 + 0x2000 * i
def SEI_BAR_MARK_REP (i : Nat) : Nat := 0xb0003c + 0x2000 * i
def SEI_BAR_MARK_SEARCH (i : Nat) : Nat := 0xb00040 + 0x2000 * i
def SEI_BAR_JUMP (i : Nat) : Nat := 0xb00044 + 0x2000 * i
def SEI_BAR_ROW_LO (i : Nat) : Nat := 0xb00048 + 0x2000 * i
def SEI_BAR_ROW_HI (i : Nat) : Nat := 0xb0004c + 0x2000 * i
def SEI_BAR_QUEUE (i : Nat) : Nat := 0xb00050 + 0x2000 * i
def SEI_BAR_COUNTS (i j : Nat) : Nat := 0xb00054 + 0x2000 * i + 0x4 * j
def SEI_CAM_CTRL (i j : Nat) : Nat := 0xb01000 + 0x2000 * i + 0x40 * j
def SEI_CAM_OX (i j k : Nat) : Nat := 0xb01004 + 0x2000 * i + 0x40 * j + 0x4 * k
def SEI_CAM_SEAM (i j : Nat) : Nat := 0xb01014 + 0x2000 * i + 0x40 * j
def SEI_CAM_NOM_OX (i j k : Nat) : Nat := 0xb01018 + 0x2000 * i + 0x40 * j + 0x4 * k
def SEI_CAM_LIM_X (i j : Nat) : Nat := 0xb01028 + 0x2000 * i + 0x40 * j
def SEI_CAM_LIM_Y (i j : Nat) : Nat := 0xb0102c + 0x2000 * i + 0x40 * j
def SEI_CAM_WIN (i j k : Nat) : Nat := 0xb01030 + 0x2000 * i + 0x40 * j + 0x4 * k
def SEI_CAM_STATUS (i j : Nat) : Nat := 0xb01038 + 0x2000 * i + 0x40 * j
def SEI_CAM_LINES (i j : Nat) : Nat := 0xb0103c + 0x2000 * i + 0x40 * j
def CMP_GCTRL : Nat := 0xc40000
def CMP_GSTATUS : Nat := 0xc40004
def CMP_EVT_MASK : Nat := 0xc40008
def CMP_RS_CTRL (i : Nat) : Nat := 0xc20000 + 0x100 * i
def CMP_RS_GEOM (i : Nat) : Nat := 0xc20004 + 0x100 * i
def CMP_RS_WIDTH (i : Nat) : Nat := 0xc20008 + 0x100 * i
def CMP_RS_ROW0 (i : Nat) : Nat := 0xc2000c + 0x100 * i
def CMP_RS_RING_LO (i : Nat) : Nat := 0xc20010 + 0x100 * i
def CMP_RS_RING_HI (i : Nat) : Nat := 0xc20014 + 0x100 * i
def CMP_RS_LIST_LO (i : Nat) : Nat := 0xc20018 + 0x100 * i
def CMP_RS_LIST_HI (i : Nat) : Nat := 0xc2001c + 0x100 * i
def CMP_RS_LIST_SIZE (i : Nat) : Nat := 0xc20020 + 0x100 * i
def CMP_RS_TAIL (i : Nat) : Nat := 0xc20024 + 0x100 * i
def CMP_RS_HEAD (i : Nat) : Nat := 0xc20028 + 0x100 * i
def CMP_RS_MAP (i : Nat) : Nat := 0xc2002c + 0x100 * i
def CMP_RS_DEFCELL_LO (i : Nat) : Nat := 0xc20030 + 0x100 * i
def CMP_RS_DEFCELL_HI (i : Nat) : Nat := 0xc20034 + 0x100 * i
def CMP_RS_DROP (i j : Nat) : Nat := 0xc20038 + 0x100 * i + 0x4 * j
def CMP_RS_NEXT_TILE (i : Nat) : Nat := 0xc20058 + 0x100 * i
def CMP_RS_RES_FIRST (i : Nat) : Nat := 0xc2005c + 0x100 * i
def CMP_RS_RES_LAST (i : Nat) : Nat := 0xc20060 + 0x100 * i
def CMP_RS_COUNTS (i j : Nat) : Nat := 0xc20064 + 0x100 * i + 0x4 * j
def CMP_BAR_CTRL (i : Nat) : Nat := 0xc00000 + 0x1000 * i
def CMP_BAR_STATUS (i : Nat) : Nat := 0xc00004 + 0x1000 * i
def CMP_BAR_RANGE (i : Nat) : Nat := 0xc00008 + 0x1000 * i
def CMP_BAR_LUT_LO (i : Nat) : Nat := 0xc0000c + 0x1000 * i
def CMP_BAR_LUT_HI (i : Nat) : Nat := 0xc00010 + 0x1000 * i
def CMP_BAR_LUT_CFG (i : Nat) : Nat := 0xc00014 + 0x1000 * i
def CMP_BAR_ABS (i j : Nat) : Nat := 0xc00018 + 0x1000 * i + 0x4 * j
def CMP_BAR_SIGMA (i : Nat) : Nat := 0xc00038 + 0x1000 * i
def CMP_BAR_KX (i j : Nat) : Nat := 0xc0003c + 0x1000 * i + 0x4 * j
def CMP_BAR_KY (i j : Nat) : Nat := 0xc0004c + 0x1000 * i + 0x4 * j
def CMP_BAR_TOLG (i : Nat) : Nat := 0xc0005c + 0x1000 * i
def CMP_BAR_REG (i : Nat) : Nat := 0xc00060 + 0x1000 * i
def CMP_BAR_LOOP (i : Nat) : Nat := 0xc00064 + 0x1000 * i
def CMP_BAR_EST (i : Nat) : Nat := 0xc00068 + 0x1000 * i
def CMP_BAR_CONF (i : Nat) : Nat := 0xc0006c + 0x1000 * i
def CMP_BAR_MINTEX (i : Nat) : Nat := 0xc00070 + 0x1000 * i
def CMP_BAR_LIM (i : Nat) : Nat := 0xc00074 + 0x1000 * i
def CMP_BAR_CLUSTER (i : Nat) : Nat := 0xc00078 + 0x1000 * i
def CMP_BAR_CLMAX (i : Nat) : Nat := 0xc0007c + 0x1000 * i
def CMP_BAR_QUEUE (i : Nat) : Nat := 0xc00080 + 0x1000 * i
def CMP_BAR_CROP (i : Nat) : Nat := 0xc00084 + 0x1000 * i
def CMP_BAR_CROP_MAX (i : Nat) : Nat := 0xc00088 + 0x1000 * i
def CMP_BAR_CROP_RING_LO (i : Nat) : Nat := 0xc0008c + 0x1000 * i
def CMP_BAR_CROP_RING_HI (i : Nat) : Nat := 0xc00090 + 0x1000 * i
def CMP_BAR_CROP_DEPTH (i : Nat) : Nat := 0xc00094 + 0x1000 * i
def CMP_BAR_CROP_BUDGET (i : Nat) : Nat := 0xc00098 + 0x1000 * i
def CMP_BAR_ROW_LO (i : Nat) : Nat := 0xc0009c + 0x1000 * i
def CMP_BAR_ROW_HI (i : Nat) : Nat := 0xc000a0 + 0x1000 * i
def CMP_BAR_COUNTS (i j : Nat) : Nat := 0xc000a4 + 0x1000 * i + 0x4 * j
def CMP_BAR_REC_ID (i : Nat) : Nat := 0xc000d0 + 0x1000 * i
def CMP_SL_CTRL (i j : Nat) : Nat := 0xc00800 + 0x1000 * i + 0x40 * j
def CMP_SL_WIDTH (i j : Nat) : Nat := 0xc00804 + 0x1000 * i + 0x40 * j
def CMP_SL_SHIFT_X (i j : Nat) : Nat := 0xc00808 + 0x1000 * i + 0x40 * j
def CMP_SL_SHIFT_Y (i j : Nat) : Nat := 0xc0080c + 0x1000 * i + 0x40 * j
def CMP_SL_EST (i j : Nat) : Nat := 0xc00810 + 0x1000 * i + 0x40 * j
def CMP_SL_STATUS (i j : Nat) : Nat := 0xc00814 + 0x1000 * i + 0x40 * j
def CMP_SL_COST (i j : Nat) : Nat := 0xc00818 + 0x1000 * i + 0x40 * j
def CMP_SL_TEX (i j : Nat) : Nat := 0xc0081c + 0x1000 * i + 0x40 * j
def NZL_CTRL : Nat := 0xd00000
def NZL_STATUS : Nat := 0xd00004
def NZL_EVT_MASK : Nat := 0xd00008
def NZL_WORK_LO : Nat := 0xd0000c
def NZL_WORK_HI : Nat := 0xd00010
def NZL_LEDGER_LO : Nat := 0xd00014
def NZL_LEDGER_HI : Nat := 0xd00018
def NZL_ACC_LO : Nat := 0xd0001c
def NZL_ACC_HI : Nat := 0xd00020
def NZL_SD_CTRL (i : Nat) : Nat := 0xd01000 + 0x100 * i
def NZL_SD_STATUS (i : Nat) : Nat := 0xd01004 + 0x100 * i
def NZL_SD_POLICY (i : Nat) : Nat := 0xd01008 + 0x100 * i
def NZL_SD_GAIN (i : Nat) : Nat := 0xd0100c + 0x100 * i
def NZL_SD_THR (i : Nat) : Nat := 0xd01010 + 0x100 * i
def NZL_SD_CLS (i : Nat) : Nat := 0xd01014 + 0x100 * i
def NZL_SD_SUBST (i : Nat) : Nat := 0xd01018 + 0x100 * i
def NZL_SD_BOUND (i : Nat) : Nat := 0xd0101c + 0x100 * i
def NZL_SD_STEP (i : Nat) : Nat := 0xd01020 + 0x100 * i
def NZL_SD_OFF (i : Nat) : Nat := 0xd01024 + 0x100 * i
def NZL_SD_EARLY (i : Nat) : Nat := 0xd01028 + 0x100 * i
def NZL_SD_CLOSE (i : Nat) : Nat := 0xd0102c + 0x100 * i
def NZL_SD_STRIPE_Y0 (i : Nat) : Nat := 0xd01030 + 0x100 * i
def NZL_SD_STRIPE_REP (i : Nat) : Nat := 0xd01034 + 0x100 * i
def NZL_SD_STRIPE_GEOM (i : Nat) : Nat := 0xd01038 + 0x100 * i
def NZL_SD_RES (i : Nat) : Nat := 0xd0103c + 0x100 * i
def NZL_SD_KMIN (i : Nat) : Nat := 0xd01040 + 0x100 * i
def NZL_SD_ROW (i j : Nat) : Nat := 0xd01044 + 0x100 * i + 0x4 * j
def NZL_SD_RDIST (i j : Nat) : Nat := 0xd01064 + 0x100 * i + 0x4 * j
def NZL_SD_PAPER (i j : Nat) : Nat := 0xd01084 + 0x100 * i + 0x4 * j
def NZL_SD_DNOM (i j : Nat) : Nat := 0xd0108c + 0x100 * i + 0x4 * j
def NZL_SD_COUNTS (i j : Nat) : Nat := 0xd010ac + 0x100 * i + 0x4 * j
def NZL_MOD_CTRL (i : Nat) : Nat := 0xd10000 + 0x20 * i
def NZL_MOD_BASE (i : Nat) : Nat := 0xd10004 + 0x20 * i
def NZL_MOD_COUNT (i : Nat) : Nat := 0xd10008 + 0x20 * i
def NZL_MOD_X0 (i : Nat) : Nat := 0xd1000c + 0x20 * i
def NZL_MOD_PITCH (i : Nat) : Nat := 0xd10010 + 0x20 * i
def NZL_MOD_STATUS (i : Nat) : Nat := 0xd10014 + 0x20 * i
def NZL_MOD_OFF (i : Nat) : Nat := 0xd10018 + 0x20 * i
def NZL_MOD_MISS (i : Nat) : Nat := 0xd1001c + 0x20 * i
def MEM_CTRL : Nat := 0xe00000
def MEM_STATUS : Nat := 0xe00004
def MEM_EVT_MASK : Nat := 0xe00008
def MEM_BLK_FREE : Nat := 0xe0000c
def MEM_GRN_FREE : Nat := 0xe00010
def MEM_RES_FREE : Nat := 0xe00014
def MEM_RES_CFG : Nat := 0xe00018
def MEM_ECC_CORR : Nat := 0xe0001c
def MEM_ECC_UNCORR : Nat := 0xe00020
def MEM_SCRUB : Nat := 0xe00024
def MEM_SCRUB_RATE : Nat := 0xe00028
def MEM_ERR_ADDR_LO : Nat := 0xe0002c
def MEM_ERR_ADDR_HI : Nat := 0xe00030
def MEM_RES_SPILLED : Nat := 0xe00034
def MEM_RES_DISCARDED : Nat := 0xe00038
def MEM_AP_CTRL (i : Nat) : Nat := 0xe01000 + 0x20 * i
def MEM_AP_INDEX (i : Nat) : Nat := 0xe01004 + 0x20 * i
def MEM_AP_OWNER (i : Nat) : Nat := 0xe01008 + 0x20 * i
def MEM_AP_STATUS (i : Nat) : Nat := 0xe0100c + 0x20 * i
def MEM_RQ_CTRL (i : Nat) : Nat := 0xe02000 + 0x40 * i
def MEM_RQ_BASE_LO (i : Nat) : Nat := 0xe02004 + 0x40 * i
def MEM_RQ_BASE_HI (i : Nat) : Nat := 0xe02008 + 0x40 * i
def MEM_RQ_SIZE (i : Nat) : Nat := 0xe0200c + 0x40 * i
def MEM_RQ_HEAD (i : Nat) : Nat := 0xe02010 + 0x40 * i
def MEM_RQ_TAIL (i : Nat) : Nat := 0xe02014 + 0x40 * i
def MEM_RQ_NOTIFY (i : Nat) : Nat := 0xe02018 + 0x40 * i
def MEM_RQ_STATUS (i : Nat) : Nat := 0xe0201c + 0x40 * i
def MEM_RQ_PKTS (i : Nat) : Nat := 0xe02020 + 0x40 * i
def MEM_RQ_FULL_CNT (i : Nat) : Nat := 0xe02024 + 0x40 * i
def MEM_OWN (i : Nat) : Nat := 0xe40000 + 0x4 * i
def JRN_CTRL : Nat := 0xf00000
def JRN_STATUS : Nat := 0xf00004
def JRN_EVT_MASK : Nat := 0xf00008
def JRN_INDEX_LO : Nat := 0xf0000c
def JRN_INDEX_HI : Nat := 0xf00010
def JRN_EXTENTS : Nat := 0xf00014
def JRN_STAGE_LO : Nat := 0xf00018
def JRN_STAGE_HI : Nat := 0xf0001c
def JRN_STAGE_CFG : Nat := 0xf00020
def JRN_QUEUE : Nat := 0xf00024
def JRN_POLICY : Nat := 0xf00028
def JRN_AGE : Nat := 0xf0002c
def JRN_OPEN_EXT : Nat := 0xf00030
def JRN_SEAL_SEQ : Nat := 0xf00034
def JRN_RSEQ_LO : Nat := 0xf00038
def JRN_RSEQ_HI : Nat := 0xf0003c
def JRN_FREE_CNT : Nat := 0xf00040
def JRN_OP : Nat := 0xf00044
def JRN_OP_EXT : Nat := 0xf00048
def JRN_OP_COUNT : Nat := 0xf0004c
def JRN_OP_STATUS : Nat := 0xf00050
def JRN_NOTE_GO : Nat := 0xf00054
def JRN_NOTE_DATA (i : Nat) : Nat := 0xf00060 + 0x4 * i
def JRN_RECORDS (i : Nat) : Nat := 0xf00080 + 0x4 * i
def JRN_WIN_CTRL (i : Nat) : Nat := 0xf01000 + 0x20 * i
def JRN_WIN_FIRST (i : Nat) : Nat := 0xf01004 + 0x20 * i
def JRN_WIN_COUNT (i : Nat) : Nat := 0xf01008 + 0x20 * i
def JRN_WIN_BASE_LO (i : Nat) : Nat := 0xf0100c + 0x20 * i
def JRN_WIN_BASE_HI (i : Nat) : Nat := 0xf01010 + 0x20 * i
def MOV_CTRL : Nat := 0x1000000
def MOV_STATUS : Nat := 0x1000004
def MOV_EVT_MASK : Nat := 0x1000008
def MOV_RD_CFG : Nat := 0x100000c
def MOV_BYTES_LO : Nat := 0x1000010
def MOV_BYTES_HI : Nat := 0x1000014
def MOV_CH_CTRL (i : Nat) : Nat := 0x1001000 + 0x40 * i
def MOV_CH_RING_LO (i : Nat) : Nat := 0x1001004 + 0x40 * i
def MOV_CH_RING_HI (i : Nat) : Nat := 0x1001008 + 0x40 * i
def MOV_CH_ENTRIES (i : Nat) : Nat := 0x100100c + 0x40 * i
def MOV_CH_TAIL (i : Nat) : Nat := 0x1001010 + 0x40 * i
def MOV_CH_HEAD (i : Nat) : Nat := 0x1001014 + 0x40 * i
def MOV_CH_STATUS (i : Nat) : Nat := 0x1001018 + 0x40 * i
def MOV_CH_RESULT (i : Nat) : Nat := 0x100101c + 0x40 * i
def MOV_CH_DONE (i : Nat) : Nat := 0x1001020 + 0x40 * i
def MOV_CH_ERR (i : Nat) : Nat := 0x1001024 + 0x40 * i
def PER_CTRL : Nat := 0x1100000
def PER_STATUS : Nat := 0x1100004
def PER_EVT_MASK : Nat := 0x1100008
def POD_START : Nat := 0x110000c
def POD_STOP : Nat := 0x1100010
def POD_AT_LO : Nat := 0x1100014
def POD_AT_HI : Nat := 0x1100018
def TWB_CTRL (i : Nat) : Nat := 0x1101000 + 0x100 * i
def TWB_STATUS (i : Nat) : Nat := 0x1101004 + 0x100 * i
def TWB_XFER (i : Nat) : Nat := 0x1101008 + 0x100 * i
def TWB_TIMING (i : Nat) : Nat := 0x110100c + 0x100 * i
def TWB_TO (i : Nat) : Nat := 0x1101010 + 0x100 * i
def TWB_IBR (i : Nat) : Nat := 0x1101014 + 0x100 * i
def TWB_MEAS (i : Nat) : Nat := 0x1101018 + 0x100 * i
def TWB_TR (i : Nat) : Nat := 0x110101c + 0x100 * i
def TWB_CAP (i : Nat) : Nat := 0x1101020 + 0x100 * i
def TWB_SU (i : Nat) : Nat := 0x1101024 + 0x100 * i
def TWB_TX (i j : Nat) : Nat := 0x1101028 + 0x100 * i + 0x4 * j
def TWB_RX (i j : Nat) : Nat := 0x1101048 + 0x100 * i + 0x4 * j
def TWB_XFERS (i : Nat) : Nat := 0x1101068 + 0x100 * i
def TWB_ERRS (i : Nat) : Nat := 0x110106c + 0x100 * i
def TWB_TGT_CTRL : Nat := 0x1101080
def TWB_TGT_STATUS : Nat := 0x1101084
def TWB_TGT_TX (i : Nat) : Nat := 0x1101088 + 0x4 * i
def TWB_TGT_RX (i : Nat) : Nat := 0x11010a8 + 0x4 * i
def POD_CUES (i : Nat) : Nat := 0x1102000 + 0x800 * i
def POD_PINSEL (i : Nat) : Nat := 0x1102004 + 0x800 * i
def POD_PINS (i : Nat) : Nat := 0x1102008 + 0x800 * i
def POD_E_CTRL (i j : Nat) : Nat := 0x1102100 + 0x800 * i + 0x40 * j
def POD_E_PINS (i j : Nat) : Nat := 0x1102104 + 0x800 * i + 0x40 * j
def POD_E_LOOP (i j : Nat) : Nat := 0x1102108 + 0x800 * i + 0x40 * j
def POD_E_FEED (i j : Nat) : Nat := 0x110210c + 0x800 * i + 0x40 * j
def POD_E_CATCH (i j : Nat) : Nat := 0x1102110 + 0x800 * i + 0x40 * j
def POD_E_STATUS (i j : Nat) : Nat := 0x1102114 + 0x800 * i + 0x40 * j
def POD_E_COUNT (i j : Nat) : Nat := 0x1102118 + 0x800 * i + 0x40 * j
def POD_E_LOST (i j : Nat) : Nat := 0x110211c + 0x800 * i + 0x40 * j
def POD_STEP (i j : Nat) : Nat := 0x1102400 + 0x800 * i + 0x4 * j
def GPIO_IN : Nat := 0x1103000
def GPIO_OUT : Nat := 0x1103004
def GPIO_SET : Nat := 0x1103008
def GPIO_CLR : Nat := 0x110300c
def GPIO_OE : Nat := 0x1103010
def GPIO_PULLUP : Nat := 0x1103014
def GPIO_PULLDN : Nat := 0x1103018
def GPIO_OD : Nat := 0x110301c
def GPIO_RISE : Nat := 0x1103020
def GPIO_FALL : Nat := 0x1103024
def GPIO_PEND : Nat := 0x1103028
def ENC_CTRL (i : Nat) : Nat := 0x1103100 + 0x20 * i
def ENC_POS (i : Nat) : Nat := 0x1103104 + 0x20 * i
def ENC_IDX_POS (i : Nat) : Nat := 0x1103108 + 0x20 * i
def ENC_STATUS (i : Nat) : Nat := 0x110310c + 0x20 * i
def ENC_ERR (i : Nat) : Nat := 0x1103110 + 0x20 * i
def STB_CTRL (i : Nat) : Nat := 0x1103200 + 0x20 * i
def STB_OFFSET (i : Nat) : Nat := 0x1103204 + 0x20 * i
def STB_WIDTH (i : Nat) : Nat := 0x1103208 + 0x20 * i
def STB_PWM (i : Nat) : Nat := 0x110320c + 0x20 * i
def STB_LOAD (i : Nat) : Nat := 0x1103210 + 0x20 * i
def STB_LIMIT (i : Nat) : Nat := 0x1103214 + 0x20 * i
def STB_PULSES (i : Nat) : Nat := 0x1103218 + 0x20 * i
def STB_MISSED (i : Nat) : Nat := 0x110321c + 0x20 * i
def EVT_CTRL : Nat := 0x1200000
def EVT_STATUS : Nat := 0x1200004
def EVT_EVT_MASK : Nat := 0x1200008
def EVT_Q_BASE_LO : Nat := 0x120000c
def EVT_Q_BASE_HI : Nat := 0x1200010
def EVT_Q_SIZE : Nat := 0x1200014
def EVT_Q_HEAD : Nat := 0x1200018
def EVT_Q_TAIL : Nat := 0x120001c
def EVT_LOST : Nat := 0x1200020
def EVT_SUPPRESSED : Nat := 0x1200024
def EVT_FAULT : Nat := 0x1200028
def EVT_HALT : Nat := 0x120002c
def EVT_INT : Nat := 0x1200030
def EVT_CORE_PEND : Nat := 0x1200034
def EVT_DL_MISS (i : Nat) : Nat := 0x1200040 + 0x4 * i
def EVT_DL_BURST (i : Nat) : Nat := 0x1200060 + 0x4 * i
def EVT_ROUTE (i : Nat) : Nat := 0x1200100 + 0x4 * i
def CVU_CTRL : Nat := 0x1300000
def CVU_STATUS : Nat := 0x1300004
def CVU_EVT_MASK : Nat := 0x1300008
def CVU_U_CTRL (i : Nat) : Nat := 0x1300100 + 0x40 * i
def CVU_U_ADDR_LO (i : Nat) : Nat := 0x1300104 + 0x40 * i
def CVU_U_ADDR_HI (i : Nat) : Nat := 0x1300108 + 0x40 * i
def CVU_U_LEN (i : Nat) : Nat := 0x130010c + 0x40 * i
def CVU_U_RESULT (i : Nat) : Nat := 0x1300110 + 0x40 * i
def CVU_U_STATUS (i : Nat) : Nat := 0x1300114 + 0x40 * i
def PT_CTRL (i : Nat) : Nat := 0x2000000 + 0x100 * i
def PT_STATUS (i : Nat) : Nat := 0x2000004 + 0x100 * i
def PT_ALIVE (i : Nat) : Nat := 0x2000008 + 0x100 * i
def PT_GRANT01 (i : Nat) : Nat := 0x200000c + 0x100 * i
def PT_GRANT23 (i : Nat) : Nat := 0x2000010 + 0x100 * i
def PT_PEER01 (i : Nat) : Nat := 0x2000014 + 0x100 * i
def PT_PEER23 (i : Nat) : Nat := 0x2000018 + 0x100 * i
def PT_AVAIL01 (i : Nat) : Nat := 0x200001c + 0x100 * i
def PT_AVAIL23 (i : Nat) : Nat := 0x2000020 + 0x100 * i
def PT_RX (i : Nat) : Nat := 0x2000024 + 0x100 * i
def PT_TX (i : Nat) : Nat := 0x2000028 + 0x100 * i
def PT_ERR (i : Nat) : Nat := 0x200002c + 0x100 * i
def PT_UID_LO (i : Nat) : Nat := 0x2000030 + 0x100 * i
def PT_UID_HI (i : Nat) : Nat := 0x2000034 + 0x100 * i
def PT_DELAY (i : Nat) : Nat := 0x2000038 + 0x100 * i
def PT_RSVD (i j : Nat) : Nat := 0x200003c + 0x100 * i + 0x4 * j
def PT_DESC (i j : Nat) : Nat := 0x2000080 + 0x100 * i + 0x4 * j
def LEDGER_LO (i : Nat) : Nat := 0x3000000 + 0x8 * i
def LEDGER_HI (i : Nat) : Nat := 0x3000004 + 0x8 * i

end Sys2Proof.Machine.Reg
end

