-- ==== Sys2Proof/Config.lean ====
section
/-!
DEFINITION. What the spec leaves open: values an implementation fixes, and free values. None has a body, so nothing can
be proved of a particular value.
-/
namespace Sys2Proof.Config

/-- The free value number `n`, of `w` bits: what an undefined or unstated value of the spec is replaced by.
[DESIGN CHOICE, log 8] -/
opaque freeValue (w : Nat) (n : Nat) : BitVec w

/-- Device address of the DRAM row that holds an address, and the number of the bank group that holds a row: the spec
does not lay out the DRAM's rows (R445). [PRESUMED, log 52] -/
opaque dramRow (a : Nat) : Nat
/-- [PRESUMED, log 52] -/
opaque dramGroup (row : Nat) : Nat

/-- Number of DRAM bank groups, each with one spare row at shipment (R441). [PRESUMED, log 52] -/
opaque dramGroups : Nat

/-- An exception of this cause writes what it is about to mtval, which is 0 otherwise; and what the read-only mhpmevent3 to
mhpmevent6 read as (R409). [PRESUMED, log 101] -/
opaque mtvalShows (cause : Nat) : Bool
/-- [PRESUMED, log 101] -/
opaque hpmEvent (k : Nat) : BitVec 64

end Sys2Proof.Config
end

