-- ==== Sys2Proof/Machine/State.lean ====
section
/-!
DEFINITION. The state of the GL144 as plain data, one structure per block, and the state right after reset.
Registers whose bits software and hardware share are words in `regs`, keyed by their BAR0 offset; a register not
listed holds its reset value of the register table. What a block keeps beyond its registers is in its structure.
-/
namespace Sys2Proof.Machine

/-! ## Outputs, events, access -/

/-- A number for each initiator, to key the latches of R8 and R9. -/
def iniCode : Ini → Nat
  | .host => 0
  | .core n => 1 + n.val
  | .debug => 5
  | .cfg => 6

/-- One event record (R23) before it is laid out in bytes. -/
structure EventRec where
  time : Nat
  code : Nat
  source : Nat
  sev : Nat
  rep : Nat
  arg0 : Nat
  arg1 : Nat
  deriving DecidableEq, Repr

/-- The power state in force (R419). -/
inductive Power where
  | off | backup | rest | watch | run | full
  deriving DecidableEq, Repr

/-- The per-initiator register latches and the marks the common register rules keep (R8 to R20). -/
structure Access where
  /-- Read latches of R8: high words, keyed by `8 * offset + initiator`. -/
  latch : List (Nat × Word) := []
  /-- Held low words of R9, keyed likewise. -/
  held : List (Nat × Word) := []
  /-- Offsets of once registers written since reset (R10). -/
  once : List Nat := []
  /-- Control-register offsets of the level units that are at the expert level (LEVEL_NOW of R17). -/
  expert : List Nat := []
  /-- Level units that have raised EXPERT_IGNORED since they entered the basic level, with its SOURCE (R18). -/
  ignored : List (Nat × Nat) := []
  deriving DecidableEq, Repr

/-- EVT: the event queue and its summaries (R487 to R496). -/
structure Evt where
  /-- Records held before the queue is placed, oldest first (R487). -/
  held : List EventRec := []
  /-- An image has placed the queue (R487). -/
  placed : Bool := false
  /-- Records queued in the ring, from HEAD to TAIL, oldest first (R488). -/
  ring : List EventRec := []
  /-- Index of the next record the consumer reads (EVT_Q_HEAD). -/
  head : Nat := 0
  /-- Index of the next record EVT writes (EVT_Q_TAIL). -/
  tail : Nat := 0
  /-- EVT_LOST. -/
  lost : Nat := 0
  /-- EVT_SUPPRESSED. -/
  suppressed : Nat := 0
  /-- An overflow is in force (EVT_STATUS.OVERFLOW, R490). -/
  overflow : Bool := false
  /-- Events lost in the overflow in force. -/
  lostNow : Nat := 0
  /-- EVT_INT.PEND. -/
  int : Bool := false
  /-- EVT_CORE_PEND. -/
  corePend : Nat := 0
  /-- Misses of each deadline class in the window in force (R496). -/
  window : List Nat := [0, 0, 0, 0, 0]
  /-- Classes that have raised DEADLINE_BURST in the window. -/
  burst : List Nat := []
  /-- Number of the window in force (R496). -/
  windowNo : Nat := 0
  /-- Raw count at which the halt action began (R492). -/
  haltFrom : Nat := 0
  /-- Records Hamada holds while EVT is unpowered, oldest first (R421). -/
  restHeld : List EventRec := []
  /-- HAM_EVT_LOST. -/
  restLost : Nat := 0
  deriving DecidableEq, Repr

/-- A read the device has outstanding at the host (R344): its tag, the block code of its requester, the requester's
unit, and the host address of the data. -/
structure HostRead where
  tag : Nat
  block : Nat
  unit : Nat
  addr : Nat
  deriving DecidableEq, Repr

/-- A request of the host that the gateway has taken and not yet performed (R342): an access to a register, to a word of
BAR2 or BAR4, to memory through an aperture, to the partner window, or to the MSI-X table. -/
inductive HostReq where
  | reg (off : Nat) (size : Size) (write : Option Word)
  | word (bar off : Nat) (write : Option Word)
  | mem (k : Fin 3) (o : BitVec 28) (op : MemOp) (ecc : List EccFind)
  | window (p a : Nat) (write : Option Word)
  | msix (w : MsixWrite)
  deriving DecidableEq, Repr

/-- HGW: the endpoint's link and function state (R333 to R355). [PRESUMED, log 80] -/
structure Gw where
  /-- The data link is up and no cause of DOWN holds (R351). -/
  up : Bool := false
  /-- SPEED code 1 to 6 of the trained link. -/
  speed : Nat := 0
  /-- Width of the trained link. -/
  fullWidth : Nat := 0
  /-- Width in force; below `fullWidth` only under L0p (R355). -/
  width : Nat := 0
  /-- Memory Space Enable. -/
  mse : Bool := false
  /-- Bus Master Enable. -/
  bme : Bool := false
  /-- MSI-X Enable. -/
  msixEn : Bool := false
  /-- MSI-X Function Mask. -/
  fmask : Bool := false
  /-- The function is in D3hot. -/
  d3 : Bool := false
  /-- PME_En and PME_Status. -/
  pmeEn : Bool := false
  pmeStatus : Bool := false
  /-- Max_Payload_Size and Max_Read_Request_Size in bytes. -/
  mps : Nat := 128
  mrrs : Nat := 512
  /-- 10-Bit Tag Requester Enable (R333). -/
  tag10 : Bool := false
  /-- ASPM L1 is enabled (R354). -/
  aspm : Bool := false
  /-- AER uncorrectable error status bits. -/
  aer : Nat := 0
  /-- MSI-X table: message addresses and data, and the vectors whose mask bit is clear. -/
  msixAddr : List (Nat × Nat) := []
  msixData : List (Nat × Word) := []
  unmasked : Nat := 0
  /-- The pending bit array. -/
  pba : Nat := 0
  /-- Upstream writes waiting in the gateway, oldest first (R350). -/
  waiting : List (Nat × List Byte) := []
  /-- Reads outstanding at the host, oldest first. -/
  reads : List HostRead := []
  /-- A function level reset runs, the raw count at which it began, and the reads it ended with error (R348). -/
  flr : Bool := false
  flrFrom : Nat := 0
  flrEnded : Nat := 0
  /-- RATE_SHORT: a declared rate exceeds the capacity (R36). -/
  rateShort : Bool := false
  /-- Tags of reads that a main reset ended; their completions are dropped without an error (R519). -/
  orphans : List Nat := []
  /-- Requests behind a partner window access that is not complete, oldest first (R121, R342). -/
  held : List HostReq := []
  deriving DecidableEq, Repr

/-- What the device sends out: answers to requests, upstream traffic, frames, and levels of its pins. -/
inductive Out where
  /-- A register or window read completes with a word. -/
  | read (ini : Ini) (off : Nat) (v : Word)
  /-- A read of BAR2 or BAR4 completes with a word: the BAR, the offset and the data (R336 to R339). -/
  | window (bar : Nat) (off : Nat) (v : Word)
  /-- A host request completes with Unsupported Request (R347). -/
  | unsupported
  /-- An MSI-X message (R345). -/
  | msix (vec : Nat) (addr : Nat) (data : Word)
  /-- A posted write and a read request of the device to the host (R344). -/
  | hostWrite (addr : Nat) (bytes : List Byte)
  | hostRead (tag : Nat) (addr : Nat) (len : Nat)
  /-- PM_PME, WAKE#, a request for L1, and a change of width under L0p (R353 to R355, R428). -/
  | pme
  | wakePin
  | enterL1
  | l0pWidth (width : Nat)
  /-- A PTM request (R132). -/
  | ptmRequest
  /-- A frame starts on a lane group: its 16 header bytes and payload, and its FCS (R78, R79). -/
  | frame (group : Nat) (bytes : List Byte) (fcs : Nat)
  /-- A block of a frame goes out on a lane group (R76 to R78, R80). -/
  | block (group : Nat) (b : BitVec 257)
  /-- A pulse of PPS_OUT or TIME_PULSE: its width in ns (R139). -/
  | ppsOut (ns : Nat)
  | timePulse (ns : Nat)
  /-- A word of memory answers a read of a core or of a Mover channel: its block code and number (R340). -/
  | memWord (blk n : Nat) (v : Word)
  /-- A transfer of the controller of a two-wire bus starts: address, probe, bytes to write and number to read (R464). -/
  | twbStart (bus addr : Nat) (probe : Bool) (bytes : List Byte) (reads : Nat)
  /-- Bytes the TWB0 target sends, an in-band request, and its acknowledge pulse (R466, R468, R469). -/
  | twbSend (bytes : List Byte)
  | ibrRequest
  | ibrAck (bus : Nat)
  /-- A strobe output becomes active or inactive (R481). -/
  | strobe (s : Nat) (on : Bool)
  deriving DecidableEq, Repr

/-! ## Field lanes -/

/-- The states of a lane, with the STATE codes of LNE_LN_STATUS (R63 to R65). -/
inductive LaneSt where
  | gated | signal | adapt | align | measure | ready | quiet | backoff
  deriving DecidableEq, Repr

/-- The STATE code of a lane state. -/
def LaneSt.code : LaneSt → Nat
  | .gated => 0
  | .signal => 1
  | .adapt => 2
  | .align => 3
  | .measure => 4
  | .ready => 5
  | .quiet => 6
  | .backoff => 7

/-- One field lane (R59 to R75). The lanes of a bonded group move together (R68). -/
structure Lane where
  st : LaneSt := .gated
  /-- Rate code of the attempt or link (RATE_NOW). -/
  rate : Nat := 0
  /-- Width code of the group in force (BOND_NOW). -/
  bond : Nat := 0
  /-- Last measured margin in 0.5 mV. -/
  margin : Nat := 0
  /-- TRAIN_COUNT: attempts since reset, stops at 255. -/
  train : Nat := 0
  /-- Attempts of the training sequence in force. -/
  attempts : Nat := 0
  /-- Retries started since READY (R65). -/
  retry : Nat := 0
  /-- Uncorrectable codewords in a row (R65). -/
  uncorr : Nat := 0
  /-- A MEAS_GO waits for READY, or a measurement runs (R69). -/
  measPend : Bool := false
  measRun : Bool := false
  /-- LNE_LN_CHAN: the channel measurement held. -/
  chan : Word := 0#32
  /-- Equaliser values in force, laid out as LNE_LN_EQ (R72). -/
  eq : Word := 0x08000000#32
  /-- Transmit taps in force, laid out as LNE_LN_TXEQ (R71). -/
  txeq : Word := 0#32
  deriving DecidableEq, Repr

/-- One octet: the power state in force, its PLL and its reference clock (R59, R73). -/
structure Octet where
  power : Nat := 0
  pll : Bool := false
  refclk : Bool := false
  deriving DecidableEq, Repr

/-- LNE: lanes and octets that differ from their reset state, keyed by number. -/
structure Lne where
  lanes : List (Nat × Lane) := []
  octets : List (Nat × Octet) := []
  deriving DecidableEq, Repr

/-! ## Partner link -/

/-- The states of a partner-table entry, with the STATE codes of PT_STATUS (R98). -/
inductive EntrySt where
  | unused | waiting | probing | describing | accepting | active | lost | refused
  deriving DecidableEq, Repr

/-- The STATE code of an entry state. -/
def EntrySt.code : EntrySt → Nat
  | .unused => 0
  | .waiting => 1
  | .probing => 2
  | .describing => 3
  | .accepting => 4
  | .active => 5
  | .lost => 6
  | .refused => 7

/-- The credit account and alive count of one class with one partner (R90, R91, R94, R95); counts are mod 2^16,
alive counts mod 2^8. -/
structure Account where
  /-- CONSUMED and RETURNED of the device as sender. -/
  consumed : Nat := 0
  returned : Nat := 0
  /-- Charged, freed and held counts of the device as receiver. -/
  charged : Nat := 0
  freed : Nat := 0
  held : Nat := 0
  /-- The freed count the partner was last told. -/
  told : Nat := 0
  /-- Next ACNT sent, and the ACNT expected. -/
  acntTx : Nat := 0
  acntRx : Nat := 0
  deriving DecidableEq, Repr

/-- Who waits for a tunnel request: a slot, a window read or a window write (R119, R120). -/
inductive TunFrom where
  | slot (s : Nat)
  | winRead (off : Nat)
  | winWrite (off : Nat)
  deriving DecidableEq, Repr

/-- One tunnel request of a partner's queue (R121). -/
structure TunReq where
  origin : TunFrom
  write : Bool
  addr : Nat
  count : Nat
  data : List Word
  tag : Nat
  sent : Bool
  /-- Raw count at its acceptance (R121). -/
  since : Nat := 0
  deriving DecidableEq, Repr

/-- One partner-table entry's association (R98); the words software reads are views of it. -/
structure Partner where
  st : EntrySt := .unused
  reason : Nat := 0
  /-- UID and ROLE of the matched HELLO. -/
  uid : Nat := 0
  role : Nat := 0
  /-- The descriptor copy (R100). -/
  desc : List Byte := []
  /-- Page awaited and DESC_REQ attempts for it (R103). -/
  page : Nat := 0
  tries : Nat := 0
  /-- Partner grants of C0 to C3 from its descriptor. -/
  grants : List Nat := [0, 0, 0, 0]
  accounts : List Account := [{}, {}, {}, {}]
  /-- Accepted requests in order, and requests not yet accepted (R121). -/
  queue : List TunReq := []
  overflow : List TunReq := []
  /-- Next TAG. -/
  tag : Nat := 0
  /-- REQ_SEQ and t1 of the DELAY_REQ awaiting its response (R107). -/
  delaySeq : Nat := 0
  delayT1 : Option Int := none
  deriving DecidableEq, Repr

/-- What a queued frame carries; some contents are formed when the frame is transmitted (R94, R142, R107). -/
inductive TxBody where
  | bytes (bs : List Byte)
  | alive
  | syncOrigin (seq : Nat) (step : Bool)
  | delayReq (seq : Nat)
  | delayResp (seq : Nat) (t2 : Int)
  | trigger (gen : Nat) (seq : Nat) (bs : List Byte)
  | corr (module first : Nat) (bs : List Byte)
  | tunnel (tag : Nat) (bs : List Byte)
  deriving DecidableEq, Repr

/-- A frame queued to a partner on a lane group. -/
structure TxFrame where
  group : Nat
  dst : Nat
  cls : Nat
  typ : Nat
  body : TxBody
  deriving DecidableEq, Repr

/-- A run of a check-value unit, with what its GO found in the registers (R124). -/
structure CvuRun where
  alg : Nat
  resume : Bool
  addr : Nat
  len : Nat
  deriving DecidableEq, Repr

/-- PLK: partners, queued frames, and per-group counters. -/
structure Plk where
  partners : List (Nat × Partner) := []
  /-- Frames waiting for transmission, oldest first. -/
  txq : List TxFrame := []
  /-- The partner last served, keyed by `4 * group + class` (R88). -/
  served : List (Nat × Nat) := []
  /-- Next PROBE_SEQ of each group; the first is 0. [DESIGN CHOICE, log 134] -/
  probeSeq : List (Nat × Nat) := []
  /-- Groups in which a corrupt frame is open (R81). -/
  corrupt : List Nat := []
  /-- SYNC_SEQ of the next originated SYNC. -/
  syncSeq : Nat := 0
  /-- REQ_SEQ of the next DELAY_REQ. -/
  delaySeq : Nat := 0
  /-- Runs of check-value units, by unit. -/
  cvuRuns : List (Nat × CvuRun) := []
  /-- The blocks still to send of the C2 or C3 frame that is open on a group (R88). -/
  sending : List (Nat × List (BitVec 257)) := []
  deriving DecidableEq, Repr

/-! ## Time engine -/

/-- The STATE of device time (R128). -/
inductive TimeSt where
  | unset | coarse | free | acquiring | locked | holdover
  deriving DecidableEq, Repr

/-- The STATE code of a time state. -/
def TimeSt.code : TimeSt → Nat
  | .unset => 0
  | .coarse => 1
  | .free => 2
  | .acquiring => 3
  | .locked => 4
  | .holdover => 5

/-- A trigger formed and not yet past its egress check (R147 to R150). -/
structure PendTrig where
  seq : Nat
  /-- Exposure start, in 2^-32 ns. -/
  time : Int
  /-- The frame carrying it has been transmitted. -/
  sent : Bool
  deriving DecidableEq, Repr

/-- One trigger generator (R147 to R149). -/
structure Gen where
  /-- Next LINE_SEQ (TIM_TRG_SEQ). -/
  seq : Nat := 0
  /-- Index n of the next line in encoder mode: every lower line lies at a position already triggered (R147). -/
  line : Nat := 0
  /-- Next exposure in time mode, in 2^-32 ns. -/
  next : Int := 0
  /-- Triggers formed since FRAME_START was last restarted. -/
  formed : Nat := 0
  pending : List PendTrig := []
  deriving DecidableEq, Repr

/-- The web position of one encoder (R145, R146): the position in pm, the newest stamped edges (time, position),
newest first, whether an edge was stamped since JOB_START, and whether the next count zeroes the position. -/
structure WebPos where
  pos : Int := 0
  edges : List (Int × Int) := []
  stamped : Bool := false
  zero : Bool := false
  /-- No edge for 10 ms: the velocity is 0. -/
  still : Bool := true
  deriving DecidableEq, Repr

/-- A SYNC waiting to be relayed to one partner (R106, R143). -/
structure Relay where
  dst : Nat
  seconds : Nat
  ns : Nat
  frac : Nat
  seq : Nat
  corr : Int
  flags : Nat
  /-- Ingress timestamp, in 2^-32 ns. -/
  ingress : Int
  deriving DecidableEq, Repr

/-- A compensation cycle that has started: its number, start T_k in 2^-32 ns and length in ms (R151). -/
structure CycleRun where
  num : Nat
  start : Int
  ms : Nat
  deriving DecidableEq, Repr

/-- TIM: device time and what runs on it. Times are in units of 2^-32 ns (R127). -/
structure Tim where
  base : Int := 0
  rawBase : Nat := 0
  /-- The sum of all steps so far (R140). -/
  stepSum : Int := 0
  /-- RATE in 2^-44 (R131), SLEW in ppm (R137). -/
  rate : Int := 0
  slew : Int := 0
  /-- Error the running slew still had to remove at `rawBase`. -/
  slewDue : Int := 0
  /-- The running slew was started under R136. -/
  slewAuto : Bool := false
  st : TimeSt := .unset
  /-- Selected source: 0 none, 1 PTM, 2 1PPS, 3 upstream. -/
  sel : Nat := 0
  /-- Measurements in a row of PTM, 1PPS and upstream, and which of them are present (R132). -/
  runPtm : Nat := 0
  runPps : Nat := 0
  runUp : Nat := 0
  present : Nat := 0
  /-- Raw counts of the last on-time PPS_IN edge and of the last SYNC of the upstream partner. -/
  lastPps : Option Nat := none
  lastSync : Option Nat := none
  /-- A PTM dialog is in progress. -/
  ptmBusy : Bool := false
  /-- Servo integrator, in 2^-44 (R133), and the raw count of the last measurement. -/
  integ : Int := 0
  lastMeas : Option Nat := none
  /-- The next measurement is the acquisition (R136). -/
  acquire : Bool := false
  /-- RATE during LOCKED operation, newest first: the raw count from which it held, and RATE, none outside LOCKED (R138). -/
  rateLog : List (Nat × Option Int) := []
  /-- TIM_OFFSET: last e in 1/16 ns, saturated to 32 bits. -/
  offset : Int := 0
  /-- Boundaries pulsed on PPS_OUT and on TIME_PULSE, as runs of multiples of their periods, newest first, and the first
  boundary that T has not jumped over (R139). -/
  ppsDone : List (Int × Int) := []
  ppsFrom : Int := 0
  tpDone : List (Int × Int) := []
  tpFrom : Int := 0
  /-- The next pulse carries the step marker. -/
  ppsMark : Bool := false
  tpMark : Bool := false
  webs : List WebPos := [{}, {}, {}, {}]
  gens : List (Nat × Gen) := []
  relays : List Relay := []
  /-- Next cycle start in 2^-32 ns, when cycles run (R151). -/
  cycNext : Option Int := none
  /-- Number of the next cycle. -/
  cycNum : Nat := 0
  /-- Cycles started and still of interest to the nozzle engine, newest first. -/
  cycles : List CycleRun := []
  /-- Capture FIFOs: (time, rising edge) oldest first (R152). -/
  caps : List (Nat × List (Int × Bool)) := []
  deriving DecidableEq, Repr

/-! ## Hamada island -/

/-- One channel of the supply monitor (R432): its state (0 OK, 1 LOW, 2 HIGH), the last conversion, and how many
conversions in a row fell below LOW, above HIGH and inside the limits. -/
structure Supply where
  /-- Conversions in a row within the limits, up to the 4 scans that power-up waits for (R429). -/
  good : Nat := 0
  st : Nat := 0
  value : Nat := 0
  lows : Nat := 0
  highs : Nat := 0
  oks : Nat := 0
  deriving DecidableEq, Repr

/-- One dual-channel safety input (R435 to R438): the filtered levels of A and B, whether a channel is in demand,
whether the demand action awaits its release, and the PHASE of a discrepancy fault (0 none). -/
structure Safety where
  a : Bool := false
  b : Bool := false
  now : Bool := false
  demand : Bool := false
  phase : Nat := 0
  /-- The raw count at which the channels began to disagree, until the discrepancy has been found (R437). -/
  apart : Option Nat := none
  deriving DecidableEq, Repr

/-- HAM: power states, wake, monitor, backup domain and safety inputs (R418 to R438). -/
structure Ham where
  st : Power := .run
  /-- TARGET in force, and a TARGET written during a change, applied when it ends (R425). -/
  target : Nat := 4
  later : Option Nat := none
  /-- A state change runs, the state it moves to, its cause (R440), and the raw count at its start. -/
  moving : Bool := false
  goal : Power := .run
  cause : Nat := 0
  since : Nat := 0
  /-- The raw count from which DRAIN_MS runs: the start of a move, or the end of the change of structure it waited for
  (R423). -/
  drainFrom : Nat := 0
  /-- Power-up waits for the supplies (R429). -/
  starting : Bool := false
  /-- What the wake sources compare with since they were armed (R426): the levels of the GPIO pins and of the Pod pins, and
  the counts of each encoder. -/
  armGpio : Nat := 0
  armPods : Nat := 0
  armEnc : List Int := [0, 0, 0, 0]
  /-- The generators are held for a move to WATCH until capture-ready (R423, R424). -/
  genHold : Bool := false
  /-- Generators still held after capture-ready because their camera's lane is not READY (R424). -/
  genWait : List Nat := []
  /-- The lines of the main fabric have been discarded (R423). -/
  drained : Bool := false
  /-- A wake that occurred during a downward change (R425). -/
  wakeLater : Option Nat := none
  /-- Hamada runs on RC (CLK32_SRC). -/
  rc : Bool := true
  supplies : List (Nat × Supply) := []
  safety : List Safety := [{}, {}]
  /-- Committed backup words, held writes oldest first, and the committed check word (R433). -/
  words : List (Nat × Word) := []
  held : List (Nat × Word) := []
  check : Word := 0#32
  bkValid : Bool := false
  coarseOk : Bool := false
  /-- LOST bits: VBAK_POR, VBAK_LOW, CHECK, OSC_STOP. -/
  lost : Nat := 0
  coarseSec : Nat := 0
  coarseTicks : Nat := 0
  /-- The backup domain runs from VBAK (R434). -/
  onVbak : Bool := false
  /-- THERMTRIP_N is driven low (R512). -/
  tripped : Bool := false
  /-- The TWB0 target holds SCL low after an address match in REST (R427). -/
  sclHeld : Bool := false
  /-- TADDR and TGT_EN as latched at entry to REST (R467). -/
  twb0 : Option Nat := none
  deriving DecidableEq, Repr

/-! ## Erg fabric -/

/-- One stage instance of the structure (R56, ERG_INST). `kind` is the stage-kind code of R49; `owner` is 1 pipeline,
2 bar, 3 nozzle side, 4 watch pipeline; `st` is the STATE code. -/
structure Inst where
  kind : Nat
  owner : Nat
  id : Nat
  first : Nat
  /-- Declared input rate, Msample/s. -/
  rate : Nat
  shadow : Bool := false
  st : Nat := 1
  /-- A failed word was read: the line that read it, the next one through the instance, is marked CHECK_MARK (R40). -/
  mark : Bool := false
  /-- A tile of it holds a failed word; every later line that reads it is marked too (R40). -/
  failed : Bool := false
  /-- The instance is being replaced in a live migration (R455). -/
  moving : Bool := false
  /-- The migration has cut: the next line is the last to carry MIGRATE. -/
  last : Bool := false
  /-- No tile could be found for it (R449). -/
  lost : Bool := false
  deriving DecidableEq, Repr

/-- A route of the ROUTE section between two instances, with its nominal hops (R53). -/
structure Route where
  src : Nat
  outPort : Nat
  inPort : Nat
  dst : Nat
  hops : Nat
  dirs : List Byte
  deriving DecidableEq, Repr

/-- ERG: the structure, the repair map and the fabric clocks (R38 to R58). -/
structure Erg where
  insts : List (Nat × Inst) := []
  routes : List (Nat × Route) := []
  /-- Entries of the repair map that a repair rewrote: logical tile to physical tile (R52). -/
  moved : List (Nat × Nat) := []
  /-- Physical tiles that are not good or under test: their STATE code, 4, 5 or 6. Tiles with 4 were bad at shipment; every
  part ships with some (R441), and the model's part with one of region 0. [DESIGN CHOICE, log 24] -/
  bad : List (Nat × Nat) := [(539, 4)]
  /-- Logical tiles whose map entry is no longer valid. -/
  gone : List Nat := []
  /-- Clocks in force, MHz. -/
  fclk : Nat := 0
  oclk : Nat := 0
  /-- Clocks that the voltage loop permits (R46). -/
  permF : Nat := 1600
  permO : Nat := 800
  /-- FCLK_MIN, OCLK_MIN and SEQ of the structure in force. -/
  fmin : Nat := 0
  omin : Nat := 0
  seq : Nat := 0
  valid : Bool := false
  short : Bool := false
  /-- Watch pipelines of the structure (R48). -/
  watch : List Nat := []
  /-- Hold cycles counted (ERG_STALL). -/
  stall : Nat := 0
  /-- Physical tiles that hold a copied poisoned word: a read of it raises no TILE_FAULT (R452). -/
  spoiled : List Nat := []
  deriving DecidableEq, Repr

/-! ## Capture -/

/-- A line tag (R25) with the whole LINE_SEQ: TIME_NS, WEB_UM, pipeline, FLAGS (bit k of the byte) and LINE_SEQ. -/
structure LineTag where
  time : Nat := 0
  web : Nat := 0
  pipe : Nat := 0
  flags : Nat := 0
  seq : Nat := 0
  /-- The sum of all time steps when TIME_NS was assigned: it places TIME_NS among instants that later steps moved (R287). -/
  steps : Int := 0
  deriving DecidableEq, Repr

/-- The record of a trigger not yet matched to a line (R162, R165). -/
structure Trig where
  seq : Nat
  /-- Exposure start, in 2^-32 ns. -/
  time : Int
  web : Nat
  bank : Nat
  late : Bool
  holdover : Bool
  /-- The trigger was not sent (R150). -/
  unsent : Bool
  deriving DecidableEq, Repr

/-- The line whose segments arrive (R109, R110, R163). -/
structure OpenLine where
  seq : Nat
  frame : Nat
  bytes : List Byte
  trig : Option Trig
  trigLate : Bool
  bank : Nat
  /-- Held C3 credits of the line's segments. -/
  cost : Nat
  /-- Frames lost before its segments by their ACNT (R110). -/
  lost : Nat
  deriving DecidableEq, Repr

/-- A line inside the pipeline or behind it: raw bytes until UNPACK, samples (pixel-interleaved) after it. -/
structure CapLine where
  tag : LineTag
  frame : Nat
  bytes : List Byte := []
  data : List Nat := []
  /-- Samples per pixel of `data`. -/
  bands : Nat := 1
  bank : Nat := 0
  cost : Nat := 0
  /-- ACNT loss count handed on with the line (R110). -/
  lost : Nat := 0
  /-- First line of its frame. -/
  first : Bool := false
  /-- The next stage of the pipeline that takes the line: 0 UNPACK to 6 TONE. -/
  stage : Nat := 0
  deriving DecidableEq, Repr

/-- A frame-close marker (R167): FRAME, counts and flags, with the tag of the last line delivered. -/
structure FrameClose where
  frame : Nat
  delivered : Nat
  missing : Nat
  check : Nat
  dropped : Nat
  flags : Nat
  tag : LineTag
  /-- TIME_NS and WEB_UM of its first missing line. -/
  missAt : Nat × Nat
  deriving DecidableEq, Repr

/-- What a stream carries. -/
inductive CapItem where
  | line (l : CapLine)
  | close (c : FrameClose)
  deriving DecidableEq, Repr

/-- A running flat calibration (R175). -/
structure Calib where
  bank : Nat
  lines : Nat
  left : Nat
  sums : List Nat
  deriving DecidableEq, Repr

/-- A requested parameter switch (R182, R183): the bank, the bank it replaces, AT as it stood at GO, the first line E processed
with the bank once known, and the LINE_SEQ of the first line that carried PARAM_SWITCH. -/
structure Switch where
  bank : Nat
  old : Nat
  atLine : Bool
  e : Option Nat := none
  first : Option Nat := none
  deriving DecidableEq, Repr

/-- One pipeline. [DESIGN CHOICE, log 36] -/
structure Pipe where
  trigs : List Trig := []
  /-- The line whose segments arrive. -/
  line? : Option OpenLine := none
  frameOpen : Bool := false
  frame : Nat := 0
  /-- Counts of the open frame: received, delivered, missing, with CHECK_MARK, dropped. -/
  got : Nat := 0
  delivered : Nat := 0
  missing : Nat := 0
  /-- TIME_NS and WEB_UM of the frame's first missing line. -/
  missAt : Nat × Nat := (0, 0)
  check : Nat := 0
  dropped : Nat := 0
  /-- The rest of the frame is being dropped (R166). -/
  dropping : Bool := false
  /-- Tag of the last line delivered. -/
  lastTag : LineTag := {}
  flow : List CapItem := []
  /-- FORMAT_ERR was raised in the frame that UNPACK works on. -/
  fmtErr : Bool := false
  /-- The bank states of R181. -/
  banks : List Nat := [2, 0, 0, 0]
  switch : Option Switch := none
  /-- The bank the camera last reported. -/
  reported : Nat := 0
  /-- Dark estimates F[c] in U16.8; empty before the first line (R169). -/
  dark : List Nat := []
  cal : Option Calib := none
  /-- White-balance gains derived for the frame; empty for the bank's own (R177), and the sums of the frame. -/
  gains : List Nat := []
  wbSums : List Nat := []
  wbCount : Nat := 0
  /-- TONE's copies of the bank tables (R179). -/
  tone : List (Nat × List Byte) := []
  deriving DecidableEq, Repr

/-- CAP: the pipelines. -/
structure Cap where
  pipes : List (Nat × Pipe) := []
  deriving DecidableEq, Repr

/-! ## Output taps -/

/-- A line of a tap with its bands and horizontal width. -/
structure TapLine where
  tag : LineTag
  frame : Nat
  px : Nat
  bands : Nat
  data : List Nat
  /-- Device time the last contributing input line entered the tap, in 2^-32 ns (R202). -/
  time : Int
  deriving DecidableEq, Repr

/-- What a tap's stages hand on. -/
inductive TapItem where
  | line (l : TapLine)
  | close (c : FrameClose)
  deriving DecidableEq, Repr

/-- One tap: its input, the lines between its stages, the settings in force and its frame state. -/
structure Tap where
  /-- Input lines with the device time at which they entered. -/
  inq : List (CapItem × Int) := []
  mid : List TapItem := []
  outq : List TapItem := []
  /-- Lines on the route to Seif or the comparator. -/
  route : List CapItem := []
  enNow : Bool := false
  crop : Word := 0#32
  scale : Word := 0#32
  filter : Nat := 0
  /-- The coefficient area copied at the frame start: 1,024 entries S1.14, horizontal then vertical. -/
  coef : List Int := []
  frameOpen : Bool := false
  /-- Horizontal results of the frame's lines, oldest first, and the next output line. -/
  hist : List TapLine := []
  nextV : Nat := 0
  /-- Counts of the open frame: delivered, with CHECK_MARK, dropped. -/
  delivered : Nat := 0
  check : Nat := 0
  dropped : Nat := 0
  dropping : Bool := false
  spillRaised : Bool := false
  discardRaised : Bool := false
  discarded : Bool := false
  /-- DISCARDED of the next packet. -/
  lost : Nat := 0
  /-- TIME_NS and WEB_UM of the first line discarded since the last packet, and of the frame's first dropped line. -/
  lostAt : Nat × Nat := (0, 0)
  dropAt : Nat × Nat := (0, 0)
  lastTag : LineTag := {}
  deriving DecidableEq, Repr

/-- OUT: the taps. -/
structure OutBlk where
  taps : List (Nat × Tap) := []
  deriving DecidableEq, Repr

/-! ## Memory -/

/-- A packet in a producer's buffer (R298): KIND, SOURCE, payload, and for a line its D_OUT end and its anchor's
TIME_NS. -/
structure Packet where
  kind : Nat
  source : Nat
  payload : List Byte
  due : Option Int := none
  time : Nat := 0
  /-- It passed through the evidence reserve (R319). -/
  spilled : Bool := false
  /-- TIME_NS and WEB_UM of the first line discarded before it, missing in its frame and dropped from its frame; for a record
  of unchecked rows, WEB_UM of the first row (R327). -/
  lostAt : Nat × Nat := (0, 0)
  missAt : Nat × Nat := (0, 0)
  dropAt : Nat × Nat := (0, 0)
  deriving DecidableEq, Repr

/-- A producer of packets: its own buffer and its spilled packets, oldest first, and whether it discards. -/
structure Producer where
  buf : List Packet := []
  spill : List Packet := []
  /-- Where the newest spilled packet ends, counted from the first byte of a reserve granule. -/
  spillEnd : Nat := 0
  discarding : Bool := false
  deriving DecidableEq, Repr

/-- One result queue beyond its registers (R298 to R303). -/
structure Rq where
  tail : Nat := 0
  enNow : Bool := false
  err : Bool := false
  full : Bool := false
  flush : Bool := false
  /-- Packets visible and not yet announced, PAD excluded, and the raw count at the first of them. -/
  news : Nat := 0
  since : Nat := 0
  deriving DecidableEq, Repr

/-- MEM: owners, guards, poisoned words, result queues, and producers (keyed by stream, 0x1000 + bar for the
comparator, 0x2000 + j for free-standing mark instance j, 0x3000 + 64 b + k for the marks of a bar's slot, 0x8000 for the journal's notices). -/
structure Mem where
  /-- Owner ids of blocks and granules that are not FREE. -/
  blocks : List (Nat × Nat) := []
  granules : List (Nat × Nat) := []
  /-- Poisoned words: device addresses of their first bytes (R311). -/
  poison : List Nat := []
  rqs : List (Nat × Rq) := []
  producers : List (Nat × Producer) := []
  /-- Lines discarded in the episode in force (R306), and RES_LOW as last reported. -/
  episode : Nat := 0
  resLow : Bool := false
  /-- The scrubber's next place: bytes into the pool followed by the DRAM (R312). -/
  scrub : Nat := 0
  /-- Raw counts until which the ports are BUSY (R297). -/
  portEnd : List (Nat × Nat) := []
  /-- A guard on an image being loaded from device memory: first address and length (R380). -/
  image : Option (Nat × Nat) := none
  /-- LUTs being reloaded (R245). -/
  lutBusy : List Nat := []
  deriving DecidableEq, Repr

/-! ## Seif -/

/-- A camera model (R209): OX in S20.12, SX in U4.28, DY in S24.8 and KY in S8.24, as integers. -/
structure CamModel where
  ox : Int := 0
  sx : Int := 0
  dy : Int := 0
  ky : Int := 0
  deriving DecidableEq, Repr

/-- A camera line in a slot's buffer, with its line index (R208). -/
structure SlotLine where
  n : Int
  line : CapLine
  deriving DecidableEq, Repr

/-- A mark measurement of one window: mark samples, sums of their columns, of their line indexes and of their WEB_UM, the
tag of the first line with one, and whether a line was missing or marked (R221, R228). -/
structure MarkSum where
  area : Nat := 0
  cols : Nat := 0
  lines : Int := 0
  web : Nat := 0
  tag : LineTag := {}
  bad : Bool := false
  /-- A line beyond the search range has arrived. -/
  done : Bool := false
  deriving DecidableEq, Repr

/-- A target a slot has accepted: its occurrence, the model, and G (R222 to R225). -/
structure Target where
  occ : Nat
  model : CamModel
  g : Nat
  deriving DecidableEq, Repr

/-- One camera slot of a bar. -/
structure Slot where
  /-- Lines held, oldest first (R211). -/
  buf : List SlotLine := []
  /-- Line index of the oldest line held, LINE_SEQ of the newest, and the device time at which it arrived. -/
  first : Int := 0
  lastSeq : Nat := 0
  newest : Int := 0
  stalled : Bool := false
  /-- The model in force; the nominal one before the first application. -/
  model : Option CamModel := none
  /-- Staged values: 0 OX, 1 SX, 2 DY, 3 KY, 4 SEAM (R227). -/
  staged : List (Nat × Word) := []
  /-- Values that a GO applied since the last row. -/
  won : List Nat := []
  /-- The lowest occurrence not yet ended, and the windows of the occurrences being measured: search ranges may overlap. -/
  occ : Option Nat := none
  wins : List (Nat × List MarkSum) := []
  targets : List Target := []
  /-- MARK of SEI_CAM_STATUS (R226, R230). -/
  mark : Nat := 0
  miss : Nat := 0
  lastOcc : Nat := 0
  /-- A target has been accepted; rejected targets in a row, newest first (R223). -/
  settled : Bool := false
  rejects : List CamModel := []
  /-- The slot holds its model in MODE ONCE (R225). -/
  held : Bool := false
  deriving DecidableEq, Repr

/-- A stitched row (R216, R217). -/
structure StRow where
  r : Nat
  frame : Nat
  tag : LineTag
  bands : Nat
  data : List Nat
  deriving DecidableEq, Repr

/-- A bar's frame-close marker: rows emitted, and rows with TRUNC, CHECK_MARK, LATE, HOLDOVER and XFER (R219). -/
structure BarClose where
  frame : Nat
  rows : Nat
  trunc : Nat
  check : Nat
  late : Nat
  holdover : Nat
  xfer : Nat
  deriving DecidableEq, Repr

/-- What a bar hands to the comparator. -/
inductive BarItem where
  | row (x : StRow)
  | close (c : BarClose)
  deriving DecidableEq, Repr

/-- One bar of Seif. -/
structure SeiBar where
  slots : List (Nat × Slot) := []
  /-- The next row, once a first row has been determined (R216), and the device time since which the bar waits for it. -/
  row : Option Nat := none
  since : Int := 0
  frame : Nat := 0
  /-- Counts of the open frame. -/
  open' : BarClose := ⟨0, 0, 0, 0, 0, 0, 0⟩
  gapRaised : Bool := false
  gap : Bool := false
  interp : Nat := 0
  blend : Bool := false
  /-- Seams in force: SEAM and HW of each slot but the last; empty before the first derivation. -/
  seams : List (Int × Nat) := []
  /-- MODE ONCE was written again. -/
  rearm : Bool := false
  /-- Occurrences below this one have been applied. -/
  applied : Nat := 0
  /-- SEI_STALLS and SEI_MODEL_UPD (R230). -/
  stalls : Nat := 0
  updates : Nat := 0
  out : List BarItem := []
  deriving DecidableEq, Repr

/-- A web-break instance beyond its registers: consecutive lines with the web (R229). -/
structure WebWatch where
  inq : List CapLine := []
  run : Nat := 0
  good : Nat := 0
  broken : Bool := false
  deriving DecidableEq, Repr

/-- A free-standing mark instance: the marks open in its windows, and the LINE_SEQ of the last line (R228). -/
structure MarkInst where
  inq : List CapLine := []
  wins : List (Option MarkSum) := [none, none]
  last : Option Nat := none
  deriving DecidableEq, Repr

/-- SEI: bars, web-break instances and free-standing mark instances. -/
structure Sei where
  bars : List (Nat × SeiBar) := []
  webs : List (Nat × WebWatch) := []
  marks : List (Nat × MarkInst) := []
  deriving DecidableEq, Repr

/-! ## Comparator -/

/-- A tile of a source's list, or a run of skipped ones (R235 to R240). `st`: 0 awaits its fetch, 1 being fetched,
2 resident, 3 failed its check, 4 failed its fetch, 5 SKIP. -/
structure RefTile where
  j : Nat
  /-- Tiles from `j` on; above 1 only for skipped ones. -/
  n : Nat := 1
  addr : Nat := 0
  check : Option Nat := none
  blank : Bool := false
  defmap : Bool := false
  st : Nat := 0
  deriving DecidableEq, Repr

/-- One reference source beyond its registers. -/
structure RefSrc where
  /-- NEXT_TILE, once an entry has been read. -/
  next : Option Nat := none
  /-- The END tile of the job. -/
  last : Option Nat := none
  /-- Tiles listed and still of use, rising. -/
  tiles : List RefTile := []
  /-- Fetches of an earlier list that its channel has still to report. -/
  stale : Nat := 0
  deriving DecidableEq, Repr

/-- A deviant pixel (R254): its column, largest excess and that band, the differences of all bands, and its cell. -/
structure DevPix where
  x : Nat
  excess : Nat
  band : Nat
  d : List Int
  zone : Nat
  minArea : Nat
  dark : Bool
  /-- Its slice, and whether that is LOST. -/
  slice : Nat
  held : Bool
  deriving DecidableEq, Repr

/-- A row inside the comparator; `reason` is 0 for a row that is compared (R256), `stage` is 0 REF_RENDER, 1 REF_BLUR,
2 REG_SEARCH, 3 DIFF_TOL, 4 CLUSTER. -/
structure CmpRow where
  r : Nat
  rho : Int
  tag : LineTag
  bands : Nat
  data : List Nat
  reason : Nat
  stage : Nat := 0
  /-- Shifts of the slices that the row was taken with. -/
  shifts : List (Int × Int) := []
  dev : List DevPix := []
  deriving DecidableEq, Repr

/-- What passes through a bar's comparator. -/
inductive CmpItem where
  | row (x : CmpRow)
  | close
  deriving DecidableEq, Repr

/-- A row of residuals for the nozzle engine (R255): d of each column and band, none where the valid bit is 0; an unchecked
row lists nothing. -/
structure ResRow where
  r : Nat
  tag : LineTag
  bands : Nat
  d : List (Option Int)
  /-- The shifted blurred reference of each column and band, and the eight amounts of each column (R272). -/
  rs : List Nat
  amts : List (List Nat)
  deriving DecidableEq, Repr

/-- An open cluster (R258, R259). -/
structure Cluster where
  rowFirst : Nat
  rowLast : Nat
  xFirst : Nat
  xLast : Nat
  time : Nat
  area : Nat
  peak : DevPix
  peakRow : Nat
  /-- Sums of d of the deviant pixels, per band. -/
  sums : List Int
  dark : Bool
  light : Bool
  held : Bool
  flags : Nat
  cont : Bool
  shifts : List (Int × Int)
  /-- Rows entered since its last row, and the flags of those rows. -/
  age : Nat := 0
  later : Nat := 0
  deriving DecidableEq, Repr

/-- An open run of unchecked rows (R257). -/
structure UncRun where
  reason : Nat
  first : Nat
  rows : Nat
  time : Nat
  flags : Nat
  cont : Bool
  /-- WEB_UM of its first row. -/
  web : Nat := 0
  deriving DecidableEq, Repr

/-- One slice (R248 to R252): the shift in force, the block being estimated, and the loop's state. -/
structure Slice where
  sx : Int := 0
  sy : Int := 0
  /-- Costs C(p, q) of the block, p fastest. -/
  costs : List Nat := []
  tex : Nat := 0
  rows : Nat := 0
  misses : Nat := 0
  /-- STATE of CMP_SL_STATUS: 0 until a row has been searched. -/
  st : Nat := 0
  held : Bool := false
  deriving DecidableEq, Repr

/-- Counts of a bar frame for its summary (R259). -/
structure CmpFrame where
  first : Nat := 0
  time : Nat := 0
  rows : Nat := 0
  compared : Nat := 0
  unchecked : Nat := 0
  opened : Nat := 0
  pixels : Nat := 0
  flags : Nat := 0
  /-- Pixels not clustered, and the first and last row with such. -/
  lost : Nat := 0
  lostFirst : Nat := 0
  lostLast : Nat := 0
  lostTime : Nat := 0
  deriving DecidableEq, Repr

/-- One comparing bar. -/
structure CmpBar where
  rows : List CmpItem := []
  /-- Next row to enter. -/
  next : Nat := 0
  /-- No row of the open frame has entered; the next row is the first of a list of tiles (R237). -/
  fresh : Bool := true
  newJob : Bool := false
  unchecked : Bool := false
  /-- Reference rows rendered, and blurred; none where a word was uncorrectable. -/
  refs : List (Int × Option (List Nat)) := []
  blurred : List (Int × List Nat) := []
  /-- The LUT in REF_RENDER, and whether a word of it was uncorrectable. -/
  lut : List Byte := []
  lutBad : Bool := false
  /-- A reload was requested (R245). -/
  reload : Bool := false
  abs : List Word := []
  /-- Bar frames since the first XFER row of a window (R256). -/
  xfer : Option Nat := none
  run : Option UncRun := none
  slices : List (Nat × Slice) := []
  rearm : Bool := false
  clusters : List Cluster := []
  /-- Column ranges of clusters closed at MAX_ROWS, with the rows since (R258). -/
  conts : List (Nat × Nat × Nat) := []
  frame : CmpFrame := {}
  ovfRaised : Bool := false
  /-- First row and rows held in the crop ring. -/
  cropFirst : Nat := 0
  cropRows : Nat := 0
  /-- Crop bytes of the frame, its start in device time (2^-32 ns), and the length of the last frame in ns. -/
  cropBytes : Nat := 0
  frameFrom : Int := 0
  frameNs : Nat := 0
  cropOver : Bool := false
  resid : List ResRow := []
  /-- Tag of the row that left DIFF_TOL last (R275). -/
  passed : Option LineTag := none
  deriving DecidableEq, Repr

/-- CMP: bars and sources. -/
structure Cmp where
  bars : List (Nat × CmpBar) := []
  srcs : List (Nat × RefSrc) := []
  deriving DecidableEq, Repr

/-! ## Nozzle engine -/

/-- A row of a stripe segment as NZ_STRIPE receives it (R271). -/
structure NzRow where
  r : Nat
  tag : LineTag
  bands : Nat
  data : List Nat
  deriving DecidableEq, Repr

/-- A stripe measurement of one nozzle (R271): its ledger index, stripe and colorant row, the exposure of its segment's
last row, d, and the positions; `used` once a cycle has taken it. -/
structure StripeMeas where
  idx : Nat
  n : Nat
  h : Nat
  time : Nat
  /-- The sum of all time steps when `time` was assigned (R287). -/
  steps : Int := 0
  d : Nat
  posX : Int
  posY : Int
  valid : Bool
  used : Bool := false
  deriving DecidableEq, Repr

/-- Accumulators of one nozzle under one word (R272, R273): the word by the number of commits before it, and its GAIN. -/
structure NzSum where
  dk : Int := 0
  kk : Nat := 0
  n : Nat := 0
  ord : Nat := 0
  gain : Nat := 0
  deriving DecidableEq, Repr

/-- One frame of a module's set: FIRST, COUNT, and 0 queued, 1 sent, 2 BUSY, 3 OK, 4 refused (R115, R282). -/
structure NzFrame where
  first : Nat
  count : Nat
  st : Nat := 0
  /-- The raw count at which it was sent, or its BUSY arrived (R115). -/
  since : Nat := 0
  deriving DecidableEq, Repr

/-- A module's set of a cycle (R282): its apply point in 2^-32 ns, its words, and what became of it. -/
structure NzSet where
  cycle : Nat
  apply : Int
  neutral : Bool
  words : List Nat
  frames : List NzFrame
  /-- Formed after its deadline. -/
  late : Bool
  /-- Its deadline has passed, and it was ACKED. -/
  met : Bool := false
  deriving DecidableEq, Repr

/-- One module (R273, R283, R285). -/
structure NzMod where
  set : Option NzSet := none
  /-- CUR and PREV, one word per nozzle; a missing word is neutral. -/
  cur : List Nat := []
  prev : List Nat := []
  /-- W_cur and W_prev in um; none before a first commit. -/
  wCur : Option Int := none
  wPrev : Option Int := none
  /-- Commits so far: CUR is the word after the last, PREV the one before. -/
  commits : Nat := 0
  unsure : Bool := false
  /-- The next set is NEUTRAL (R285). -/
  neutralNext : Bool := false
  /-- Cycle of the set in force, and STATE of the last set. -/
  force : Nat := 0
  st : Nat := 0
  deriving DecidableEq, Repr

/-- One side (R264, R270 to R275). -/
structure NzSide where
  /-- Cycles started and not yet closed, oldest first, and the end of the last one closed. -/
  runs : List CycleRun := []
  lastEnd : Option Int := none
  closed : Nat := 0
  /-- Newest row received, the next stripe segment to measure, and the rows kept for it. -/
  top : Option Nat := none
  seg : Nat := 0
  rows : List NzRow := []
  meas : List StripeMeas := []
  /-- Invalid nozzles of the stripe so far. -/
  bad : Nat := 0
  /-- DNOM last derived, per colorant row. -/
  dnom : List (Nat × Nat) := []
  /-- Accumulators by nozzle, one for each word that its rows were printed with. -/
  sums : List (Nat × List NzSum) := []
  /-- The cycle to report (CYCLE_DONE): its number, state changes, modules ACKED and missed. -/
  report : Option Nat := none
  changes : Nat := 0
  acked : Nat := 0
  missed : Nat := 0
  deriving DecidableEq, Repr

/-- NZL: sides, modules, the confirmation count of each ledger entry (R277), and the entries that have been measured and are
still UNMEASURED (R276). [DESIGN CHOICE, log 72] -/
structure Nzl where
  sides : List NzSide := [{}, {}]
  mods : List (Nat × NzMod) := []
  confirm : List (Nat × Nat) := []
  taken : List Nat := []
  deriving DecidableEq, Repr

/-! ## Mover -/

/-- A descriptor (R364): `attr` is bytes 20-21. -/
structure Desc where
  src : Nat
  dst : Nat
  len : Nat
  attr : Nat
  tag : Nat := 0
  deriving DecidableEq, Repr

/-- The report of a run to the block a channel is bound to (R361, R370). -/
structure MovFin where
  status : Nat
  result : Nat
  desc : Desc
  deriving DecidableEq, Repr

/-- One channel: requests of its bound block, HALTED, and reports its block has not taken yet. -/
structure Chan where
  posts : List Desc := []
  halted : Bool := false
  fins : List MovFin := []
  deriving DecidableEq, Repr

/-- The run in progress (R358): its channel and descriptor, and the host requests not yet sent. -/
structure MovRun where
  ch : Nat
  desc : Desc
  later : List (Nat × Nat) := []
  deriving DecidableEq, Repr

/-- MOV: the channels, the run in progress, and the channel of the last run (R359). -/
structure Mov where
  chans : List (Nat × Chan) := []
  run : Option MovRun := none
  last : Nat := 63
  deriving DecidableEq, Repr

/-! ## Evidence journal -/

/-- A record that waits for the mapper: a MARK, a GAP or a NOTE; without a time it takes that of its acceptance (R319). -/
structure JRec where
  type : Nat
  flags : Nat := 0
  source : Nat
  time : Option Nat
  payload : List Byte
  deriving DecidableEq, Repr

/-- An extent being filled or copied (R321 to R323). -/
structure JExt where
  extent : Nat
  window : Nat
  /-- Its staging buffer. -/
  buf : Nat
  fill : Nat := 256
  records : Nat := 0
  firstSeq : Nat := 0
  lastSeq : Nat := 0
  firstTime : Nat := 0
  lastTime : Nat := 0
  /-- Raw count at its first record. -/
  since : Nat := 0
  structSeq : Nat := 0
  gap : Bool := false
  mark : Bool := false
  deriving DecidableEq, Repr

/-- A sealed extent whose copy is not complete (R323, R324). `placed` is false while it awaits another extent. -/
structure JJob where
  ext : JExt
  seq : Nat
  reason : Nat
  retry : Bool := false
  tries : Nat := 0
  header : Bool := false
  placed : Bool := true
  deriving DecidableEq, Repr

/-- JRN: the mapper beyond its registers (R320 to R330). -/
structure Jrn where
  rseq : Nat := 0
  ext : Option JExt := none
  /-- The extent opened last, and the extent of the last seal. -/
  last : Option Nat := none
  sealed : Option Nat := none
  jobs : List JJob := []
  wait : List JRec := []
  note : Option (List Byte) := none
  noteRefused : Bool := false
  full : Bool := false
  /-- Raw count at which FULL was set. -/
  fullFrom : Nat := 0
  /-- The producer whose crop was accepted last: its record is the next one (R320). -/
  owed : Option Nat := none
  /-- Raw count until which the operation port is BUSY (R325). -/
  opUntil : Nat := 0
  deriving DecidableEq, Repr

/-! ## Barchan -/

/-- A migration request (R451): REASON and logical tile. -/
structure MigReq where
  reason : Nat
  tile : Nat
  deriving DecidableEq, Repr

/-- The migration that runs (R452): the request, the instance, the target tile, STATE, the equal lines counted, the lines
since L0, and the LINE_SEQ of a FAULT migration's first line that differed. -/
structure MigRun where
  req : MigReq
  inst : Nat
  target : Nat
  /-- The logical tile that gave up its tile to be the target, after REGION_SPARES_OUT (R54). -/
  taken : Option Nat := none
  st : Nat := 1
  equal : Nat := 0
  lines : Nat := 0
  differs : Option Nat := none
  /-- The raw count at the last line (R454). -/
  since : Nat := 0
  deriving DecidableEq, Repr

/-- A test that runs (R446, R447): the region, or none for one tile, the tiles still to finish with the STATE code each had
retired before, the tiles done, and whether one failed; started by BCH_TEST_CTRL. -/
structure TestRun where
  region : Option Nat
  tiles : List Nat
  done : Nat := 0
  failed : Bool := false
  go : Bool := false
  /-- The raw count at its start. -/
  since : Nat := 0
  deriving DecidableEq, Repr

/-- BCH: repair, aging and voltage. -/
structure Bch where
  /-- Migration requests queued, oldest first (R451). -/
  queue : List MigReq := []
  mig : Option MigRun := none
  /-- Corrected errors of the last 24 hours: device address of the row, raw count (R444, R445). -/
  corrected : List (Nat × Nat) := []
  /-- Free spare rows of the pool arrays that have used some, and of the DRAM bank groups that have (R441, R444, R445). -/
  poolSpares : List (Nat × Nat) := []
  dramSpares : List (Nat × Nat) := []
  /-- DRAM rows that await repair, oldest first: their device addresses; and those of the repair run in force. -/
  dramRows : List Nat := []
  dramRun : List Nat := []
  /-- Tests that run, and tiles retired before their test. -/
  tests : List TestRun := []
  /-- Raw count at which each region's last test ended, and whether the entry to WATCH or REST has had its region. -/
  tested : List (Nat × Nat) := []
  /-- Raw count at which each physical tile's last scheduled test, and each logical tile's last rotation, began (R447). -/
  checked : List (Nat × Nat) := []
  rotated : List (Nat × Nat) := []
  regionDone : Bool := false
  /-- TESTS status: BUSY is a running test of BCH_TEST_CTRL; DONE, last tile and RESULT. -/
  testDone : Bool := false
  testTile : Nat := 0
  testResult : Nat := 0
  /-- Code in force, worst margin and its region (R457, R458). -/
  vid : Nat := 30
  margin : Nat := 0
  worst : Nat := 0
  /-- A VID that software wrote since the last step (R458). -/
  vidWrite : Option Nat := none
  /-- R459: THROTTLED with the raw count of its start, steps in a row with margin, a rise that may be undone, and steps
  without a rise. -/
  throttled : Option Nat := none
  good : Nat := 0
  risen : Bool := false
  ban : Nat := 0
  /-- Regions whose clock is stretched (R460). -/
  stretched : List Nat := []
  /-- Regions and value steps of 1,000 ppm for which AGE_WARN was raised. -/
  aged : List (Nat × Nat) := []
  deriving DecidableEq, Repr

/-! ## Peripheral I/O -/

/-- One two-wire bus beyond its registers (R464 to R472). -/
structure Twb where
  /-- A transfer waits or runs, and it runs. -/
  busy : Bool := false
  running : Bool := false
  done : Bool := false
  /-- The bus is free. -/
  free : Bool := false
  bytes : Nat := 0
  result : Nat := 0
  /-- TWB_BUS_SLOW has been raised for the measurement in force. -/
  slow : Bool := false
  /-- A measurement waits or runs, and it runs. -/
  measuring : Bool := false
  measRun : Bool := false
  /-- The TWB0 target drives an in-band request (R469). -/
  asking : Bool := false
  /-- Measured rise times t_SCL and t_SDA in ns: in force, and waiting for the boundary. -/
  rise : Option (Nat × Nat) := none
  riseNext : Option (Nat × Nat) := none
  deriving DecidableEq, Repr

/-- One Pod engine (R473 to R477). -/
structure PodEng where
  running : Bool := false
  fault : Bool := false
  /-- Step in force; the step that waits to begin on an empty feed. -/
  step : Nat := 0
  enter : Option Nat := none
  /-- The hold of the step in force has ended and its sample is taken; a full catch word that waits. -/
  held : Bool := false
  full : Option Word := none
  /-- The gate of the step in force has been passed. -/
  gated : Bool := false
  c0 : Nat := 0
  c1 : Nat := 0
  /-- Feed and catch queues, oldest first; the unused bits of the feed word in use and the bits of the catch word. -/
  feed : List Word := []
  feedBits : List Bool := []
  catchQ : List Word := []
  catchBits : List Bool := []
  /-- Levels that fed steps gave to the window's pins, bit k for block pin k. -/
  fed : Nat := 0
  /-- Pattern in force: levels and output enables. -/
  level : Nat := 0
  drive : Nat := 0
  /-- CHAIN in force (R475). -/
  chain : Bool := false
  /-- The tick edge, in ns of the raw counter, at which the step in force began, or at which its hold has ended (R474). -/
  since : Nat := 0
  deriving DecidableEq, Repr

/-- A strobe pulse: its trigger, start and end in 2^-32 ns (R481). -/
structure StbPulse where
  seq : Nat
  start : Int
  stop : Int
  deriving DecidableEq, Repr

/-- One strobe output: pulses to come, pulses active, and an active phase of CONTINUOUS mode (R481). -/
structure Stb where
  pulses : List StbPulse := []
  active : List StbPulse := []
  phase : Bool := false
  /-- The raw count at which the last period of CONTINUOUS mode began. -/
  since : Option Nat := none
  /-- The load has been measured in the active phase in force (R482). -/
  measured : Bool := false
  deriving DecidableEq, Repr

/-- PER: buses, Pod engines, pins, encoders and strobes (R463 to R482). -/
structure Per where
  buses : List (Nat × Twb) := []
  /-- Pod engines by `4 * block + engine`, levels applied to the pins of the two blocks from outside. -/
  pods : List (Nat × PodEng) := []
  podPins : List Nat := [0, 0]
  /-- Timed starts: device time in 2^-32 ns and the engines named (R477). -/
  podAt : List (Int × Nat) := []
  /-- Levels applied to the GPIO pins from outside. -/
  gpio : Nat := 0
  /-- Filtered levels Z, B, A of each encoder in bits 2, 1, 0; DIR. -/
  enc : List Nat := [0, 0, 0, 0]
  encDown : List Bool := [false, false, false, false]
  strobes : List (Nat × Stb) := []
  deriving DecidableEq, Repr

/-! ## Configuration -/

/-- A record of an image (R378): the TYPE of its section, its image offset, RTYPE, and its bytes after the header. -/
structure ImgRec where
  sect : Nat
  at' : Nat
  rtype : Nat
  body : List Byte
  deriving DecidableEq, Repr

/-- A pipeline that is changed in place and has not met its next frame start (R395): the frame at its boundary once a line
of it has come, and the lines dropped with the TIME_NS and WEB_UM of the first. -/
structure Reload where
  pipe : Nat
  frame : Option Nat := none
  lines : Nat := 0
  time : Nat := 0
  web : Nat := 0
  deriving DecidableEq, Repr

/-- A change of structure in progress (R390): SEQ, its affected owners in cutting order with rank and number (R391), and how
many have cut; pairs of a new instance and the instance it replaces; what is held for a cut: instances changed in place,
routes, register writes (with the owner they belong to, rank 4 for none), and records of partners and of the structure. -/
structure Change where
  seq : Nat
  owners : List (Nat × Nat)
  done : Nat := 0
  pairs : List (Nat × Nat) := []
  insts : List (Nat × Inst) := []
  routes : List (Nat × Route) := []
  writes : List ((Nat × Nat) × (Nat × Word)) := []
  partners : List ImgRec := []
  recs : List ImgRec := []
  /-- Units taken from FREE: kind, first, count and owner. -/
  units : List (Nat × Nat × Nat × Nat) := []
  /-- Units that become FREE: kind, first, count and old owner. -/
  removed : List (Nat × Nat × Nat × Nat) := []
  /-- Shadow tiles built. -/
  tiles : Nat := 0
  /-- Pipelines changed in place (R395). -/
  inplace : List Nat := []
  /-- Raw counts at ARMED and at the first cut. -/
  armed : Nat := 0
  first : Nat := 0
  /-- Whole frames (cycles of a nozzle side) that each owner has run since PREPARED; -1 while the one that was open then
  runs. -/
  warm : List ((Nat × Nat) × Int) := []
  deriving DecidableEq, Repr

/-- An operation of the flash port (R385). -/
structure FlashOp where
  op : Nat
  addr : Nat
  len : Nat
  dev : Nat
  deriving DecidableEq, Repr

/-- CFG: the configuration engine (R375 to R397). `st` is the STATE code of CFG_STATUS. -/
structure Cfg where
  st : Nat := 0
  reason : Nat := 0
  bootSlot : Nat := 0
  bootSel : Nat := 0
  slotA : Bool := false
  slotB : Bool := false
  /-- A load runs, from the host (false: from flash); ARM was written before PREPARED. -/
  loading : Bool := false
  hostLoad : Bool := false
  armHeld : Bool := false
  change : Option Change := none
  /-- Pipelines that were changed in place and await a frame start (R395). -/
  reloading : List Reload := []
  /-- A full image is in force. -/
  full : Bool := false
  /-- The flash: bytes that differ from erased ones, its identification, and the operation that runs. -/
  flash : List Host.Cell := []
  flashId : Nat := 0
  flashOp : Option FlashOp := none
  flashDone : Bool := false
  flashResult : Nat := 0
  deriving DecidableEq, Repr

/-! ## Control cores -/

/-- One control core (R399 to R415): its architectural state and that of its watchdog. `st` is the STATE code of
CCO_CORE_STATUS. -/
structure Core where
  st : Nat := 0
  pc : Nat := 0
  /-- x1 to x31 and f0 to f31; a register not listed is 0. -/
  x : List (Nat × BitVec 64) := []
  f : List (Nat × BitVec 64) := []
  /-- Machine mode; user mode otherwise. -/
  machine : Bool := true
  /-- CSRs by number, written since reset (the counters and the read-only ones are views). -/
  csr : List (Nat × BitVec 64) := []
  /-- Counted: clocks, retired instructions, and mhpmcounter3 to mhpmcounter6 (R409). -/
  counts : List (BitVec 64) := [0, 0, 0, 0, 0, 0]
  /-- The 64-byte block of a reservation (R404). -/
  reserved : Option Nat := none
  /-- Lines of DRAM windows set to MAIN_C that the data cache holds: address of the line and its 64 bytes (R403). -/
  dcache : List (Nat × List Byte) := []
  /-- Such lines that the instruction cache holds. -/
  icache : List (Nat × List Byte) := []
  /-- The store buffer, oldest first: the core address and the bytes of a store not yet performed; an entry without bytes
  is a fence between stores (R407). -/
  stores : List (Nat × List Byte) := []
  /-- STATE before a debug halt. -/
  before : Nat := 1
  /-- The watchdog: the raw count of the last restart of its count, ticks counted before a pause, and a first expiry
  (R415). -/
  wdgFrom : Nat := 0
  wdgHeld : Option Nat := none
  warned : Bool := false
  deriving DecidableEq, Repr

/-- CCO: the cores. -/
structure Cco where
  cores : List (Nat × Core) := []
  deriving DecidableEq, Repr

/-! ## The whole machine -/

/-- The state of the device. `pending` is the queue of commands that wait; everything else is what the spec gives
the block, with two fields of the model's own: `outs`, what the device has sent out of its pins and links, newest
first, and `fresh`, which numbers the free values (notes/assumptions). -/
structure State where
  pending : List Instr := []
  /-- The raw counter: 2 ns ticks since reset (R126). -/
  raw : Nat := 0
  /-- Register words that differ from their reset values, keyed by BAR0 offset. -/
  regs : List (Nat × Word) := []
  /-- Device memory: bytes written, keyed by device address, in canonical form (R290). -/
  mem : List Host.Cell := []
  /-- Host memory as the device's upstream requests reach it, in canonical form. -/
  hostMem : List Host.Cell := []
  outs : List Out := []
  fresh : Nat := 0
  /-- EVT_FAULT and EVT_HALT (R491). -/
  evtFault : Nat := 0
  evtHalt : Nat := 0
  /-- Main reset is asserted (R430). -/
  mainReset : Bool := true
  /-- Register latches and marks. -/
  acc : Access := {}
  /-- EVT. -/
  evt : Evt := {}
  /-- The host gateway. -/
  gw : Gw := {}
  /-- HAM. -/
  ham : Ham := {}
  /-- LNE. -/
  lne : Lne := {}
  /-- PLK. -/
  plk : Plk := {}
  /-- TIM. -/
  tim : Tim := {}
  /-- ERG. -/
  erg : Erg := {}
  /-- BCH. -/
  bch : Bch := {}
  /-- SEI. -/
  sei : Sei := {}
  /-- CMP. -/
  cmp : Cmp := {}
  /-- NZL. -/
  nzl : Nzl := {}
  /-- JRN. -/
  jrn : Jrn := {}
  /-- MOV. -/
  mov : Mov := {}
  /-- CAP. -/
  cap : Cap := {}
  /-- OUT. -/
  taps : OutBlk := {}
  /-- MEM. -/
  store : Mem := {}
  /-- PER. -/
  per : Per := {}
  /-- CFG. -/
  cfg : Cfg := {}
  /-- CCO. -/
  cco : Cco := {}
  deriving DecidableEq, Repr

/-- What a command may stop with. Every meaning of this model answers a next state: no command of the table acts
where the spec gives no effect. -/
inductive Fault where
  /-- Raised by no command; the interface asks for a type of faults. Safe: it cannot occur. -/
  | never
  deriving DecidableEq, Repr

/-- Why a command has no meaning. -/
inductive Refusal where
  /-- Raised only by an arm of `exec` whose command has no meaning yet. Safe: the machine stops. -/
  | notModelled (mnemonic : String)
  deriving DecidableEq, Repr

/-- The machine right after reset: every register at its reset value, main reset still asserted
(MAIN_RESET_RELEASE comes next), the host link DOWN, every memory unwritten. [DESIGN CHOICE, log 2] [DEDUCED, log 3] -/
def State.reset : State := {}

end Sys2Proof.Machine
end

