-- ==== Sys2Proof/Machine/Ops.lean ====
section
/-!
DEFINITION. Effects as data. Every meaning of the model is a list of primitive acts computed from the state, and a
command's next state is the state after running them. An act changes exactly one part of the state (`Act.part`), so
that what a command leaves alone can be read off its acts.
-/
namespace Sys2Proof.Machine

/-- The parts of the state an act can change. -/
inductive Part where
  | regs | mem | hostMem | outs | fresh | latch | mainReset | raw
  | acc | evt | gw | ham | lne | plk | tim | erg | bch | sei | cmp | nzl | jrn | mov | cap | taps | store | per | cfg | cco
  deriving DecidableEq, Repr

/-- One primitive change of the state. -/
inductive Act where
  /-- A register word takes a value. -/
  | reg (off : Nat) (w : Word)
  /-- Every register word whose offset lies in [lo, hi) returns to its reset value. -/
  | clearRegs (lo hi : Nat)
  /-- A byte of device memory takes a value. -/
  | mem (a : Nat) (b : Byte)
  /-- Device memory in [lo, hi) is lost and reads as unwritten. -/
  | clearMem (lo hi : Nat)
  /-- A byte of host memory takes a value. -/
  | host (a : Nat) (b : Byte)
  /-- Something leaves the device. -/
  | out (o : Out)
  /-- A free value is used up. -/
  | fresh
  /-- The raw counter advances. -/
  | tick (n : Nat)
  /-- The raw counter restarts from 0. -/
  | rawZero
  /-- A FAULT, or a HALT, of block `b` is latched (R491). -/
  | fault (b : Nat)
  | halt (b : Nat)
  /-- Latched bits are cleared, in EVT_FAULT and EVT_HALT together (R491). -/
  | clearFault (mask : Nat)
  /-- Main reset is asserted or released. -/
  | mainReset (v : Bool)
  | acc (x : Access)
  | evt (x : Evt)
  | gw (x : Gw)
  | ham (x : Ham)
  | lne (x : Lne)
  | plk (x : Plk)
  | tim (x : Tim)
  | erg (x : Erg)
  | bch (x : Bch)
  | sei (x : Sei)
  | cmp (x : Cmp)
  | nzl (x : Nzl)
  | jrn (x : Jrn)
  | mov (x : Mov)
  | cap (x : Cap)
  | taps (x : OutBlk)
  | store (x : Mem)
  | per (x : Per)
  | cfg (x : Cfg)
  | cco (x : Cco)

/-- The part an act changes. -/
def Act.part : Act → Part
  | .reg _ _ => .regs
  | .clearRegs _ _ => .regs
  | .mem _ _ => .mem
  | .clearMem _ _ => .mem
  | .host _ _ => .hostMem
  | .out _ => .outs
  | .fresh => .fresh
  | .tick _ => .raw
  | .rawZero => .raw
  | .fault _ => .latch
  | .halt _ => .latch
  | .clearFault _ => .latch
  | .mainReset _ => .mainReset
  | .acc _ => .acc
  | .evt _ => .evt
  | .gw _ => .gw
  | .ham _ => .ham
  | .lne _ => .lne
  | .plk _ => .plk
  | .tim _ => .tim
  | .erg _ => .erg
  | .bch _ => .bch
  | .sei _ => .sei
  | .cmp _ => .cmp
  | .nzl _ => .nzl
  | .jrn _ => .jrn
  | .mov _ => .mov
  | .cap _ => .cap
  | .taps _ => .taps
  | .store _ => .store
  | .per _ => .per
  | .cfg _ => .cfg
  | .cco _ => .cco

/-- A memory in canonical form with one byte changed: the byte an unlisted address reads as is never listed.
[DESIGN CHOICE, log 6] -/
def putByte (a : Nat) (b : Byte) (m : List Host.Cell) : List Host.Cell :=
  if b = 0#8 then mdel a m else mput a b m

/-- The entries of a key list whose keys lie outside [lo, hi). -/
def cutKeys {α : Type} (lo hi : Nat) : List (Nat × α) → List (Nat × α)
  | [] => []
  | (k, v) :: r => if lo ≤ k ∧ k < hi then cutKeys lo hi r else (k, v) :: cutKeys lo hi r

/-- Run one act. -/
def apply : Act → State → State
  | .reg off w, s => { s with regs := mput off w s.regs }
  | .clearRegs lo hi, s => { s with regs := cutKeys lo hi s.regs }
  | .mem a b, s => { s with mem := putByte a b s.mem }
  | .clearMem lo hi, s => { s with mem := cutKeys lo hi s.mem }
  | .host a b, s => { s with hostMem := putByte a b s.hostMem }
  | .out o, s => { s with outs := o :: s.outs }
  | .fresh, s => { s with fresh := s.fresh + 1 }
  | .tick n, s => { s with raw := s.raw + n }
  | .rawZero, s => { s with raw := 0 }
  | .fault b, s => { s with evtFault := s.evtFault ||| 2 ^ b }
  | .halt b, s => { s with evtFault := s.evtFault ||| 2 ^ b, evtHalt := s.evtHalt ||| 2 ^ b }
  | .clearFault m, s => { s with evtFault := clearMask s.evtFault m, evtHalt := clearMask s.evtHalt m }
  | .mainReset v, s => { s with mainReset := v }
  | .acc x, s => { s with acc := x }
  | .evt x, s => { s with evt := x }
  | .gw x, s => { s with gw := x }
  | .ham x, s => { s with ham := x }
  | .lne x, s => { s with lne := x }
  | .plk x, s => { s with plk := x }
  | .tim x, s => { s with tim := x }
  | .erg x, s => { s with erg := x }
  | .bch x, s => { s with bch := x }
  | .sei x, s => { s with sei := x }
  | .cmp x, s => { s with cmp := x }
  | .nzl x, s => { s with nzl := x }
  | .jrn x, s => { s with jrn := x }
  | .mov x, s => { s with mov := x }
  | .cap x, s => { s with cap := x }
  | .taps x, s => { s with taps := x }
  | .store x, s => { s with store := x }
  | .per x, s => { s with per := x }
  | .cfg x, s => { s with cfg := x }
  | .cco x, s => { s with cco := x }

/-- Run a list of acts, first act first. -/
def run : List Act → State → State
  | [], s => s
  | a :: as, s => run as (apply a s)

/-- An effect: the acts to run, computed from the state. -/
abbrev Eff := State → List Act

/-- The state after an effect. -/
def go (e : Eff) (s : State) : State := run (e s) s

/-- Nothing happens. -/
def skip : Eff := fun _ => []

/-- Effects one after another, each computed from the state the ones before it left. -/
def chain : List Eff → Eff
  | [], _ => []
  | e :: es, s => let a := e s; a ++ chain es (run a s)

/-- One act. -/
def act (a : Act) : Eff := fun _ => [a]

/-- An effect that looks at the state. -/
def rd (k : State → Eff) : Eff := fun s => k s s

/-- An effect under a condition. [DESIGN CHOICE, log 9] -/
def when (c : Bool) (e : Eff) : Eff := if c then e else skip

/-- An effect for each element of a list. -/
def each {α : Type} (l : List α) (f : α → Eff) : Eff := chain (l.map f)

/-- Something leaves the device. [DESIGN CHOICE, log 11] -/
def emit (o : Out) : Eff := act (.out o)

/-- Use a free value of `n` bits: nothing constrains it. [DESIGN CHOICE, log 8] -/
def withFree (n : Nat) (k : BitVec n → Eff) : Eff := fun s =>
  .fresh :: k (Config.freeValue n s.fresh) (apply .fresh s)

/-- Change register latches and marks. -/
def modAcc (f : Access → Access) : Eff := rd fun s => act (.acc (f s.acc))

/-- Change EVT. -/
def modEvt (f : Evt → Evt) : Eff := rd fun s => act (.evt (f s.evt))

/-- Change the host gateway. -/
def modGw (f : Gw → Gw) : Eff := rd fun s => act (.gw (f s.gw))

/-- Change HAM. -/
def modHam (f : Ham → Ham) : Eff := rd fun s => act (.ham (f s.ham))

/-- Change LNE. -/
def modLne (f : Lne → Lne) : Eff := rd fun s => act (.lne (f s.lne))

/-- Change PLK. -/
def modPlk (f : Plk → Plk) : Eff := rd fun s => act (.plk (f s.plk))

/-- Change TIM. -/
def modTim (f : Tim → Tim) : Eff := rd fun s => act (.tim (f s.tim))

/-- Change ERG. -/
def modErg (f : Erg → Erg) : Eff := rd fun s => act (.erg (f s.erg))

/-- Change BCH. -/
def modBch (f : Bch → Bch) : Eff := rd fun s => act (.bch (f s.bch))

/-- Change SEI. -/
def modSei (f : Sei → Sei) : Eff := rd fun s => act (.sei (f s.sei))

/-- Change CMP. -/
def modCmp (f : Cmp → Cmp) : Eff := rd fun s => act (.cmp (f s.cmp))

/-- Change NZL. -/
def modNzl (f : Nzl → Nzl) : Eff := rd fun s => act (.nzl (f s.nzl))

/-- Change JRN. -/
def modJrn (f : Jrn → Jrn) : Eff := rd fun s => act (.jrn (f s.jrn))

/-- Change MOV. -/
def modMov (f : Mov → Mov) : Eff := rd fun s => act (.mov (f s.mov))

/-- Change CAP. -/
def modCap (f : Cap → Cap) : Eff := rd fun s => act (.cap (f s.cap))

/-- Change OUT. -/
def modTaps (f : OutBlk → OutBlk) : Eff := rd fun s => act (.taps (f s.taps))

/-- Change MEM. -/
def modStore (f : Mem → Mem) : Eff := rd fun s => act (.store (f s.store))

/-- Change PER. -/
def modPer (f : Per → Per) : Eff := rd fun s => act (.per (f s.per))

/-- Change CFG. -/
def modCfg (f : Cfg → Cfg) : Eff := rd fun s => act (.cfg (f s.cfg))

/-- Change CCO. -/
def modCco (f : Cco → Cco) : Eff := rd fun s => act (.cco (f s.cco))

end Sys2Proof.Machine
end

