-- ==== Sys2Proof/Machine/RegTable.lean ====
section
/-!
DEFINITION. The register table: for every register of the spec its offset, its repetition, its level (R17 to R19),
its place in a quantity wider than 32 bits (R8, R9), and for every field its bits, its access code (R6), its reset
value and what the table says of a written value (zero invalid, ignored or clamped values). Bits no field covers are
reserved (R15). One list per block, in the order of the block's own table; the word counts of R499 agree with it.
-/
namespace Sys2Proof.Machine

/-- The access codes of R6; `rl` reads as `ro`, its latching is the register's `word` number (R8). -/
inductive Acc where
  | rw | ro | w1c | w1s | wo | lk | once
  deriving DecidableEq, Repr

/-- What the table says of values outside a field's range: nothing, ignored outside `lo..hi`, ignored outside a
list, one value ignored, or clamped into `lo..hi` with the block's clamp event. -/
inductive Lim where
  | any
  | range (lo hi : Nat)
  | oneOf (vs : List Nat)
  | not (v : Nat)
  | clamp (lo hi : Nat)
  deriving DecidableEq, Repr

/-- One field of a register: bits [hi:lo], access, reset value, limits, and whether zero is invalid (R13). -/
structure Field where
  hi : Nat
  lo : Nat
  acc : Acc
  reset : Nat
  lim : Lim
  zeroBad : Bool
  deriving DecidableEq, Repr

/-- The level at which a register has effect (R17 to R19). -/
inductive Lvl where
  | both | basic | expert
  deriving DecidableEq, Repr

/-- One register of a block's table: its offset in the block, its strides and instance counts, its level, its word
number in a wider quantity and that quantity's number of words, and its fields from high to low. -/
structure RegDesc where
  off : Nat
  dims : List (Nat × Nat)
  lvl : Lvl
  word : Nat
  words : Nat
  fields : List Field
  deriving DecidableEq, Repr

/-- A field of the table. -/
def fd (hi lo : Nat) (a : Acc) (r : Nat := 0) (lim : Lim := .any) (nz : Bool := false) : Field := ⟨hi, lo, a, r, lim, nz⟩

/-- A register of the table. -/
def rg (off : Nat) (dims : List (Nat × Nat)) (fields : List Field) (lvl : Lvl := .both) (word : Nat := 0)
    (words : Nat := 1) : RegDesc := ⟨off, dims, lvl, word, words, fields⟩

/-- The registers of HGW. -/
def hgwRegs : List RegDesc := [
   -- HGW_CTRL
   rg 0x0 [] [fd 31 31 .w1s, fd 0 0 .rw],
   -- HGW_STATUS
   rg 0x4 [] [fd 24 24 .ro, fd 23 20 .ro, fd 19 15 .ro, fd 11 10 .ro, fd 9 9 .ro, fd 5 5 .ro, fd 4 4 .ro, fd 3 3 .ro, fd 2 2 .ro 1, fd 1 1 .ro, fd 0 0 .ro],
   -- HGW_EVT_MASK
   rg 0x8 [] [fd 15 0 .lk],
   -- HGW_CAP_UP
   rg 0xc [] [fd 31 0 .ro],
   -- HGW_CAP_DOWN
   rg 0x10 [] [fd 31 0 .ro],
   -- HGW_DECL_UP
   rg 0x14 [] [fd 31 0 .ro],
   -- HGW_DECL_DOWN
   rg 0x18 [] [fd 31 0 .ro],
   -- HGW_L0P_POLICY
   rg 0x1c [] [fd 1 0 .rw 0 (.range 0 1)] .basic,
   -- HGW_L0P_SET
   rg 0x20 [] [fd 31 16 .rw 100 .any true, fd 4 0 .rw 16 (.oneOf [1, 2, 4, 8, 16])] .expert,
   -- HGW_WIN_BASE_LO
   rg 0x24 [(0x8, 3)] [fd 31 16 .rw] .both 0 2,
   -- HGW_WIN_BASE_HI
   rg 0x28 [(0x8, 3)] [fd 7 0 .rw] .both 1 2,
   -- HGW_SUBSYS
   rg 0x3c [] [fd 31 16 .once, fd 15 0 .once],
   -- HGW_TAGS
   rg 0x40 [] [fd 25 16 .ro 0x100, fd 9 0 .ro],
   -- HGW_CPL_TO
   rg 0x44 [] [fd 31 0 .ro],
   -- HGW_UR
   rg 0x48 [] [fd 31 0 .ro],
   -- HGW_UNMAPPED
   rg 0x4c [] [fd 31 0 .ro],
   -- HGW_TLP_ERR
   rg 0x50 [] [fd 31 0 .ro],
   -- HGW_FLR
   rg 0x54 [] [fd 31 0 .ro]]

/-- The registers of HAM, part 0. -/
def hamRegs0 : List RegDesc := [
   -- HAM_CTRL
   rg 0x0 [] [fd 31 31 .w1s, fd 0 0 .rw],
   -- HAM_STATUS
   rg 0x4 [] [fd 24 24 .ro, fd 11 11 .ro, fd 10 10 .ro, fd 9 9 .ro 1, fd 8 8 .ro, fd 7 4 .ro 4, fd 3 0 .ro 4],
   -- HAM_EVT_MASK
   rg 0x8 [] [fd 15 0 .lk],
   -- HAM_PWR_REQ
   rg 0xc [] [fd 2 0 .rw 4 (.range 2 5)],
   -- HAM_PWR_CFG
   rg 0x10 [] [fd 15 0 .rw 20 .any true],
   -- HAM_WAKE_EN
   rg 0x14 [] [fd 8 0 .rw 0x100],
   -- HAM_WAKE_RUN
   rg 0x18 [] [fd 8 0 .rw],
   -- HAM_WAKE_HOST
   rg 0x1c [] [fd 8 0 .rw],
   -- HAM_WAKE_STATUS
   rg 0x20 [] [fd 31 24 .ro, fd 8 0 .w1c],
   -- HAM_WAKE_GPIO
   rg 0x24 [] [fd 23 0 .rw],
   -- HAM_WAKE_POD
   rg 0x28 [] [fd 31 0 .rw],
   -- HAM_WAKE_MISC
   rg 0x2c [] [fd 31 16 .rw, fd 15 4 .rw 16 .any true, fd 1 0 .rw],
   -- HAM_ALARM
   rg 0x30 [] [fd 31 0 .rw],
   -- HAM_ALARM_EN
   rg 0x34 [] [fd 0 0 .rw],
   -- HAM_RESET
   rg 0x38 [] [fd 31 16 .wo],
   -- HAM_RESET_CAUSE
   rg 0x3c [] [fd 4 0 .w1c 1],
   -- HAM_MON_CFG
   rg 0x80 [] [fd 31 16 .lk 0xffff, fd 3 0 .lk 2 .any true],
   -- HAM_EVT_LOST
   rg 0x84 [] [fd 31 0 .ro],
   -- HAM_BK_CTRL
   rg 0xc0 [] [fd 0 0 .w1s],
   -- HAM_BK_STATUS
   rg 0xc4 [] [fd 31 31 .ro, fd 30 30 .ro, fd 7 4 .ro, fd 3 0 .ro]]

/-- The registers of HAM, part 1. -/
def hamRegs1 : List RegDesc := [
   -- HAM_BK_CHECK
   rg 0xc8 [] [fd 31 0 .ro],
   -- HAM_BK_SEC_LO
   rg 0xcc [] [fd 31 0 .ro] .both 0 2,
   -- HAM_BK_SEC_HI
   rg 0xd0 [] [fd 31 0 .ro] .both 1 2,
   -- HAM_BK_TICKS
   rg 0xd4 [] [fd 14 0 .ro],
   -- HAM_MON_THR
   rg 0x100 [(0x8, 16)] [fd 31 30 .lk, fd 27 16 .lk, fd 11 0 .lk],
   -- HAM_MON_VAL
   rg 0x104 [(0x8, 16)] [fd 17 16 .ro, fd 11 0 .ro],
   -- HAM_SAFE_CTRL
   rg 0x200 [(0x20, 2)] [fd 31 16 .lk 100 (.range 0 1000) true, fd 10 8 .lk 1, fd 5 5 .lk 1, fd 4 4 .lk, fd 2 0 .lk 3],
   -- HAM_SAFE_STATUS
   rg 0x204 [(0x20, 2)] [fd 7 6 .ro, fd 5 5 .ro, fd 4 4 .ro, fd 1 0 .ro],
   -- HAM_SAFE_ACK
   rg 0x208 [(0x20, 2)] [fd 0 0 .wo],
   -- HAM_SAFE_COUNT
   rg 0x20c [(0x20, 2)] [fd 31 0 .ro],
   -- HAM_SAFE_GPIO
   rg 0x240 [] [fd 23 0 .lk],
   -- HAM_SAFE_LEVEL
   rg 0x244 [] [fd 23 0 .lk],
   -- HAM_BK_REG
   rg 0x300 [(0x4, 64)] [fd 31 0 .rw]]

/-- The registers of HAM. -/
def hamRegs : List RegDesc := hamRegs0 ++ hamRegs1

/-- The registers of CFG, part 0. -/
def cfgRegs0 : List RegDesc := [
   -- CFG_CTRL
   rg 0x0 [] [fd 31 31 .w1s, fd 7 7 .w1s, fd 6 6 .w1s, fd 5 5 .w1s, fd 4 4 .rw, fd 3 3 .w1s, fd 2 2 .w1s, fd 0 0 .rw],
   -- CFG_STATUS
   rg 0x4 [] [fd 31 28 .ro, fd 24 24 .ro, fd 23 16 .ro, fd 9 8 .ro, fd 7 6 .ro, fd 5 5 .ro, fd 4 4 .ro, fd 3 3 .ro, fd 2 2 .ro, fd 1 1 .ro, fd 0 0 .ro],
   -- CFG_EVT_MASK
   rg 0x8 [] [fd 15 0 .rw],
   -- CFG_SEQ
   rg 0xc [] [fd 31 0 .ro],
   -- CFG_SEQ_FLOOR
   rg 0x10 [] [fd 31 0 .ro],
   -- CFG_FUSE
   rg 0x14 [] [fd 2 2 .ro, fd 1 1 .ro, fd 0 0 .ro],
   -- CFG_KEY_HASH
   rg 0x18 [(0x4, 12)] [fd 31 0 .ro],
   -- CFG_LD_ADDR_LO
   rg 0x48 [] [fd 31 6 .rw] .both 0 2,
   -- CFG_LD_ADDR_HI
   rg 0x4c [] [fd 7 0 .rw] .both 1 2,
   -- CFG_LD_LEN
   rg 0x50 [] [fd 31 0 .rw 0 (.range 0 67108864)],
   -- CFG_LIVE
   rg 0x54 [] [fd 31 16 .rw 100 .any true, fd 7 0 .rw 1],
   -- CFG_AFFECTED
   rg 0x58 [] [fd 31 16 .ro, fd 15 0 .ro],
   -- CFG_REFUSE_AT
   rg 0x5c [] [fd 31 24 .ro, fd 23 0 .ro],
   -- CFG_FL_CTRL
   rg 0x60 [] [fd 31 31 .w1s, fd 30 28 .rw 0 (.range 0 2), fd 7 0 .rw 52 (.range 13 104)],
   -- CFG_FL_ADDR
   rg 0x64 [] [fd 31 0 .rw],
   -- CFG_FL_LEN
   rg 0x68 [] [fd 31 0 .rw],
   -- CFG_FL_DEV_LO
   rg 0x6c [] [fd 31 0 .rw] .both 0 2,
   -- CFG_FL_DEV_HI
   rg 0x70 [] [fd 7 0 .rw] .both 1 2,
   -- CFG_FL_STATUS
   rg 0x74 [] [fd 31 31 .ro, fd 30 30 .ro, fd 7 0 .ro],
   -- CFG_FL_ID
   rg 0x78 [] [fd 23 0 .ro]]

/-- The registers of CFG, part 1. -/
def cfgRegs1 : List RegDesc := [
   -- CFG_LOADS
   rg 0x7c [] [fd 31 0 .ro],
   -- CFG_CUTS
   rg 0x80 [] [fd 31 0 .ro],
   -- CFG_REFUSALS
   rg 0x84 [] [fd 31 0 .ro]]

/-- The registers of CFG. -/
def cfgRegs : List RegDesc := cfgRegs0 ++ cfgRegs1

/-- The registers of CCO, part 0. -/
def ccoRegs0 : List RegDesc := [
   -- CCO_CTRL
   rg 0x0 [] [fd 31 31 .w1s, fd 0 0 .rw],
   -- CCO_STATUS
   rg 0x4 [] [fd 24 24 .ro, fd 3 0 .ro],
   -- CCO_EVT_MASK
   rg 0x8 [] [fd 15 0 .lk],
   -- CCO_CLK
   rg 0xc [] [fd 10 0 .rw 0x4b0 (.range 300 1200)],
   -- CCO_DRAM_ATTR
   rg 0x10 [(0x4, 4)] [fd 31 30 .lk 0 (.not 3), fd 29 28 .lk 0 (.not 3), fd 27 26 .lk 0 (.not 3), fd 25 24 .lk 0 (.not 3), fd 23 22 .lk 0 (.not 3), fd 21 20 .lk 0 (.not 3), fd 19 18 .lk 0 (.not 3), fd 17 16 .lk 0 (.not 3), fd 15 14 .lk 0 (.not 3), fd 13 12 .lk 0 (.not 3), fd 11 10 .lk 0 (.not 3), fd 9 8 .lk 0 (.not 3), fd 7 6 .lk 0 (.not 3), fd 5 4 .lk 0 (.not 3), fd 3 2 .lk 0 (.not 3), fd 1 0 .lk 0 (.not 3)],
   -- CCO_MTIME_LO
   rg 0x20 [] [fd 31 0 .ro] .both 0 2,
   -- CCO_MTIME_HI
   rg 0x24 [] [fd 31 0 .ro] .both 1 2,
   -- CCO_MBX_IN
   rg 0x100 [(0x4, 8)] [fd 31 0 .rw],
   -- CCO_MBX_IN_DB
   rg 0x120 [] [fd 3 0 .w1s],
   -- CCO_MBX_OUT
   rg 0x140 [(0x4, 8)] [fd 31 0 .rw],
   -- CCO_MBX_OUT_DB
   rg 0x160 [] [fd 31 31 .w1s, fd 30 30 .w1s, fd 5 0 .lk],
   -- CCO_CORE_CTRL
   rg 0x1000 [(0x100, 4)] [fd 31 31 .w1s, fd 30 30 .rw, fd 29 29 .w1s],
   -- CCO_CORE_STATUS
   rg 0x1004 [(0x100, 4)] [fd 31 28 .ro],
   -- CCO_CORE_ENTRY_LO
   rg 0x1008 [(0x100, 4)] [fd 31 1 .rw] .both 0 2,
   -- CCO_CORE_ENTRY_HI
   rg 0x100c [(0x100, 4)] [fd 7 0 .rw] .both 1 2,
   -- CCO_IRQ_PEND
   rg 0x1010 [(0x100, 4)] [fd 4 4 .w1c, fd 3 3 .ro, fd 2 2 .ro, fd 1 1 .ro, fd 0 0 .w1c],
   -- CCO_IRQ_EN
   rg 0x1014 [(0x100, 4)] [fd 4 0 .rw],
   -- CCO_RQ_PEND_LO
   rg 0x1018 [(0x100, 4)] [fd 31 0 .w1c],
   -- CCO_RQ_PEND_HI
   rg 0x101c [(0x100, 4)] [fd 31 0 .w1c],
   -- CCO_MOV_PEND_LO
   rg 0x1020 [(0x100, 4)] [fd 31 0 .w1c]]

/-- The registers of CCO, part 1. -/
def ccoRegs1 : List RegDesc := [
   -- CCO_MOV_PEND_HI
   rg 0x1024 [(0x100, 4)] [fd 31 0 .w1c],
   -- CCO_MSIP
   rg 0x1028 [(0x100, 4)] [fd 0 0 .rw],
   -- CCO_TIMECMP_LO
   rg 0x102c [(0x100, 4)] [fd 31 0 .rw 0xffffffff] .both 0 2,
   -- CCO_TIMECMP_HI
   rg 0x1030 [(0x100, 4)] [fd 31 0 .rw 0xffffffff] .both 1 2,
   -- CCO_WDG_CTRL
   rg 0x1034 [(0x100, 4)] [fd 31 31 .once, fd 15 0 .once 0x3e8 .any true],
   -- CCO_WDG_KICK
   rg 0x1038 [(0x100, 4)] [fd 15 0 .wo],
   -- CCO_WDG_COUNT
   rg 0x103c [(0x100, 4)] [fd 15 0 .ro],
   -- CCO_CORE_FAULTS
   rg 0x1040 [(0x100, 4)] [fd 31 0 .ro],
   -- CCO_WDG_RESETS
   rg 0x1044 [(0x100, 4)] [fd 31 0 .ro]]

/-- The registers of CCO. -/
def ccoRegs : List RegDesc := ccoRegs0 ++ ccoRegs1

/-- The registers of BCH, part 0. -/
def bchRegs0 : List RegDesc := [
   -- BCH_CTRL
   rg 0x0 [] [fd 31 31 .w1s, fd 0 0 .rw],
   -- BCH_STATUS
   rg 0x4 [] [fd 24 24 .ro, fd 3 3 .ro, fd 2 2 .ro, fd 1 1 .ro, fd 0 0 .ro],
   -- BCH_EVT_MASK
   rg 0x8 [] [fd 15 0 .lk],
   -- BCH_AVS_POLICY
   rg 0xc [] [fd 1 0 .rw 1] .basic,
   -- BCH_AVS_BOUND
   rg 0x10 [] [fd 13 8 .rw 40 (.clamp 0 40), fd 5 0 .rw],
   -- BCH_AVS_TARGET
   rg 0x14 [] [fd 15 8 .rw 8, fd 7 0 .rw 40 (.clamp 20 255)] .expert,
   -- BCH_AVS_VID
   rg 0x18 [] [fd 31 31 .rw 1, fd 5 0 .rw 30] .expert,
   -- BCH_AVS_STATUS
   rg 0x1c [] [fd 31 28 .ro, fd 27 16 .ro 0x640, fd 15 8 .ro, fd 5 0 .ro 30],
   -- BCH_ROW_T
   rg 0x20 [] [fd 15 8 .rw 4, fd 7 0 .rw 8],
   -- BCH_POOL_SPARE
   rg 0x24 [] [fd 12 0 .ro],
   -- BCH_DRAM_CTRL
   rg 0x28 [] [fd 31 31 .w1s, fd 7 0 .ro],
   -- BCH_DRAM_STATUS
   rg 0x2c [] [fd 31 16 .ro, fd 15 0 .ro],
   -- BCH_TEST_SCHED
   rg 0x30 [] [fd 31 24 .rw, fd 23 8 .rw 24 .any true, fd 1 1 .rw 1, fd 0 0 .rw],
   -- BCH_TEST_CTRL
   rg 0x34 [] [fd 31 31 .w1s, fd 11 0 .rw],
   -- BCH_TEST_STATUS
   rg 0x38 [] [fd 31 31 .ro, fd 30 30 .ro, fd 19 8 .ro, fd 7 0 .ro],
   -- BCH_MIG_CTRL
   rg 0x3c [] [fd 31 31 .w1s, fd 11 0 .rw 0 (.range 0 2175)],
   -- BCH_MIG_CFG
   rg 0x40 [] [fd 31 16 .rw 10 .any true, fd 15 0 .rw 64 .any true],
   -- BCH_MIG_STATUS
   rg 0x44 [] [fd 31 28 .ro, fd 27 24 .ro, fd 23 18 .ro, fd 11 0 .ro],
   -- BCH_AGE_WARN
   rg 0x48 [] [fd 15 0 .rw 0x7530],
   -- BCH_HOURS
   rg 0x4c [] [fd 31 0 .ro]]

/-- The registers of BCH, part 1. -/
def bchRegs1 : List RegDesc := [
   -- BCH_MAP_STATUS
   rg 0x50 [] [fd 31 16 .ro, fd 1 0 .ro],
   -- BCH_MIGRATIONS
   rg 0x54 [] [fd 31 0 .ro],
   -- BCH_MIG_ABANDONED
   rg 0x58 [] [fd 31 0 .ro],
   -- BCH_TESTS
   rg 0x5c [] [fd 31 0 .ro],
   -- BCH_TEST_FAILS
   rg 0x60 [] [fd 31 0 .ro],
   -- BCH_DROOPS
   rg 0x64 [] [fd 31 0 .ro],
   -- BCH_REGION
   rg 0x100 [(0x4, 17)] [fd 31 16 .ro, fd 15 8 .ro]]

/-- The registers of BCH. -/
def bchRegs : List RegDesc := bchRegs0 ++ bchRegs1

/-- The registers of LNE. -/
def lneRegs : List RegDesc := [
   -- LNE_CTRL
   rg 0x0 [] [fd 31 31 .w1s, fd 8 8 .rw 1, fd 0 0 .rw],
   -- LNE_STATUS
   rg 0x4 [] [fd 24 24 .ro, fd 23 16 .ro, fd 15 0 .ro],
   -- LNE_MARGIN
   rg 0x8 [] [fd 15 8 .lk 32, fd 7 0 .lk 24],
   -- LNE_EVT_MASK
   rg 0xc [] [fd 15 0 .lk],
   -- LNE_OCT_CTRL
   rg 0x1000 [(0x20, 16)] [fd 1 0 .rw 0 (.range 0 2)],
   -- LNE_OCT_STATUS
   rg 0x1004 [(0x20, 16)] [fd 3 3 .ro, fd 2 2 .ro, fd 1 0 .ro],
   -- LNE_LN_CTRL
   rg 0x2000 [(0x40, 128)] [fd 19 16 .lk, fd 11 10 .lk 0 (.range 0 2), fd 9 8 .rw, fd 2 2 .w1s, fd 1 1 .w1s, fd 0 0 .rw],
   -- LNE_LN_STATUS
   rg 0x2004 [(0x40, 128)] [fd 31 28 .ro, fd 27 26 .ro, fd 25 24 .ro, fd 23 16 .ro, fd 15 8 .ro, fd 0 0 .ro],
   -- LNE_LN_CHAN
   rg 0x2008 [(0x40, 128)] [fd 31 31 .ro, fd 30 30 .ro, fd 27 16 .ro, fd 11 0 .ro],
   -- LNE_LN_FEC_CORR
   rg 0x200c [(0x40, 128)] [fd 31 0 .ro],
   -- LNE_LN_FEC_UNCORR
   rg 0x2010 [(0x40, 128)] [fd 31 0 .ro],
   -- LNE_LN_EQ
   rg 0x2014 [(0x40, 128)] [fd 31 24 .rw 8, fd 23 16 .rw, fd 15 8 .rw, fd 4 0 .rw] .expert,
   -- LNE_LN_TXEQ
   rg 0x2018 [(0x40, 128)] [fd 15 8 .lk, fd 7 0 .lk]]

/-- The registers of PLK. -/
def plkRegs : List RegDesc := [
   -- PLK_CTRL
   rg 0x0 [] [fd 31 31 .w1s, fd 8 8 .rw 1, fd 0 0 .rw],
   -- PLK_STATUS
   rg 0x4 [] [fd 24 24 .ro, fd 11 0 .ro],
   -- PLK_TIMING
   rg 0x8 [] [fd 31 16 .rw 100 .any true, fd 15 8 .rw 1 .any true] .expert,
   -- PLK_EVT_MASK
   rg 0xc [] [fd 15 0 .lk],
   -- PLK_LANE_ERR
   rg 0x10 [] [fd 31 0 .ro],
   -- PLK_TUN_CTRL
   rg 0x1000 [(0x200, 8)] [fd 31 31 .w1s, fd 30 30 .rw, fd 22 16 .rw 1, fd 11 0 .rw],
   -- PLK_TUN_ADDR
   rg 0x1004 [(0x200, 8)] [fd 31 2 .rw],
   -- PLK_TUN_STATUS
   rg 0x1008 [(0x200, 8)] [fd 31 31 .ro, fd 30 30 .ro, fd 15 8 .ro, fd 7 0 .ro],
   -- PLK_TUN_DATA
   rg 0x1100 [(0x200, 8), (0x4, 64)] [fd 31 0 .rw]]

/-- The registers of TIM, part 0. -/
def timRegs0 : List RegDesc := [
   -- TIM_CTRL
   rg 0x0 [] [fd 31 31 .w1s, fd 8 8 .lk, fd 0 0 .rw],
   -- TIM_STATUS
   rg 0x4 [] [fd 24 24 .ro, fd 17 16 .ro, fd 15 8 .ro, fd 7 7 .ro, fd 3 0 .ro],
   -- TIM_NOW_FRAC
   rg 0x8 [] [fd 15 0 .ro] .both 0 4,
   -- TIM_NOW_NS
   rg 0xc [] [fd 31 0 .ro] .both 1 4,
   -- TIM_NOW_SEC_LO
   rg 0x10 [] [fd 31 0 .ro] .both 2 4,
   -- TIM_NOW_SEC_HI
   rg 0x14 [] [fd 31 0 .ro] .both 3 4,
   -- TIM_RATE_LO
   rg 0x18 [] [fd 31 0 .rw] .both 0 2,
   -- TIM_RATE_HI
   rg 0x1c [] [fd 7 0 .rw] .both 1 2,
   -- TIM_ADJ_CTRL
   rg 0x20 [] [fd 31 16 .rw, fd 1 0 .rw],
   -- TIM_ADJ_NS
   rg 0x24 [] [fd 31 0 .rw],
   -- TIM_ADJ_SEC
   rg 0x28 [] [fd 31 0 .rw],
   -- TIM_ADJ_GO
   rg 0x2c [] [fd 0 0 .wo],
   -- TIM_SRC
   rg 0x30 [] [fd 31 20 .lk, fd 5 4 .rw 1 (.range 0 2), fd 2 0 .rw],
   -- TIM_SERVO
   rg 0x34 [] [fd 31 16 .rw 0x4000, fd 15 0 .rw 0x800] .expert,
   -- TIM_HOLD
   rg 0x38 [] [fd 19 16 .rw 10 (.clamp 0 10) true, fd 15 0 .rw 0x3e8 .any true],
   -- TIM_SYNC
   rg 0x3c [] [fd 31 16 .rw 0x2710 .any true, fd 11 8 .rw 0 (.range 0 4), fd 3 0 .rw 12 (.oneOf [0, 9, 10, 11, 12, 13, 14, 15])],
   -- TIM_PTM
   rg 0x40 [] [fd 15 0 .rw 16 .any true],
   -- TIM_PTM_BASE_LO
   rg 0x44 [] [fd 31 0 .rw] .both 0 2,
   -- TIM_PTM_BASE_HI
   rg 0x48 [] [fd 31 0 .rw] .both 1 2,
   -- TIM_OFFSET
   rg 0x4c [] [fd 31 0 .ro]]

/-- The registers of TIM, part 1. -/
def timRegs1 : List RegDesc := [
   -- TIM_PULSE_CTRL
   rg 0x50 [] [fd 23 16 .rw 100 .any true, fd 1 1 .rw, fd 0 0 .rw],
   -- TIM_TP_PERIOD
   rg 0x54 [] [fd 31 0 .rw 0xf4240 .any true],
   -- TIM_TP_WIDTH
   rg 0x58 [] [fd 31 0 .rw 0x3e8],
   -- TIM_CYC_CTRL
   rg 0x5c [] [fd 31 31 .rw, fd 9 0 .rw 100 (.clamp 0 1000) true],
   -- TIM_CYC_NUM
   rg 0x60 [] [fd 31 0 .ro],
   -- TIM_JOB
   rg 0x64 [] [fd 31 31 .w1s, fd 1 0 .rw],
   -- TIM_WEB_LO
   rg 0x68 [] [fd 31 0 .ro] .both 0 2,
   -- TIM_WEB_HI
   rg 0x6c [] [fd 7 0 .ro] .both 1 2,
   -- TIM_DLINE_MISS
   rg 0x70 [] [fd 31 0 .ro],
   -- TIM_DSYNC_MISS
   rg 0x74 [] [fd 31 0 .ro],
   -- TIM_EVT_MASK
   rg 0x78 [] [fd 15 0 .lk],
   -- TIM_ENC_SCALE
   rg 0x80 [(0x4, 4)] [fd 31 31 .lk, fd 30 0 .lk],
   -- TIM_TRG_CTRL
   rg 0x1000 [(0x20, 256)] [fd 31 31 .rw, fd 30 30 .lk, fd 27 16 .lk, fd 15 0 .lk 0x4b0],
   -- TIM_TRG_PERIOD
   rg 0x1004 [(0x20, 256)] [fd 31 0 .lk],
   -- TIM_TRG_OFFSET
   rg 0x1008 [(0x20, 256)] [fd 31 0 .lk],
   -- TIM_TRG_LEAD
   rg 0x100c [(0x20, 256)] [fd 31 0 .rw 0xbb8 .any true],
   -- TIM_TRG_EXPO
   rg 0x1010 [(0x20, 256)] [fd 31 0 .rw],
   -- TIM_TRG_FRAME
   rg 0x1014 [(0x20, 256)] [fd 31 0 .lk 0x400 .any true],
   -- TIM_TRG_SEQ
   rg 0x1018 [(0x20, 256)] [fd 15 0 .ro],
   -- TIM_CAP_CTRL
   rg 0x3000 [(0x20, 16)] [fd 31 31 .rw, fd 9 8 .rw 1 (.range 1 3), fd 6 0 .rw]]

/-- The registers of TIM, part 2. -/
def timRegs2 : List RegDesc := [
   -- TIM_CAP_FRAC
   rg 0x3004 [(0x20, 16)] [fd 31 31 .ro, fd 16 16 .ro, fd 15 0 .ro] .both 0 4,
   -- TIM_CAP_NS
   rg 0x3008 [(0x20, 16)] [fd 31 0 .ro] .both 1 4,
   -- TIM_CAP_SEC_LO
   rg 0x300c [(0x20, 16)] [fd 31 0 .ro] .both 2 4,
   -- TIM_CAP_SEC_HI
   rg 0x3010 [(0x20, 16)] [fd 31 0 .ro] .both 3 4,
   -- TIM_CAP_LOST
   rg 0x3014 [(0x20, 16)] [fd 31 0 .ro]]

/-- The registers of TIM. -/
def timRegs : List RegDesc := timRegs0 ++ timRegs1 ++ timRegs2

/-- The registers of ERG. -/
def ergRegs : List RegDesc := [
   -- ERG_CTRL
   rg 0x0 [] [fd 31 31 .w1s, fd 4 4 .rw, fd 0 0 .rw],
   -- ERG_STATUS
   rg 0x4 [] [fd 31 20 .ro, fd 19 8 .ro, fd 4 4 .ro, fd 3 3 .ro, fd 2 2 .ro, fd 1 1 .ro, fd 0 0 .ro],
   -- ERG_TILES
   rg 0x8 [] [fd 27 16 .ro, fd 11 0 .ro],
   -- ERG_SPARE_FREE_LO
   rg 0xc [] [fd 31 0 .ro],
   -- ERG_SPARE_FREE_HI
   rg 0x10 [] [fd 31 0 .ro],
   -- ERG_SPARE_FREE_OAS
   rg 0x14 [] [fd 3 0 .ro],
   -- ERG_FCLK_POLICY
   rg 0x18 [] [fd 1 0 .rw 2 (.range 0 2)] .basic,
   -- ERG_FCLK_SET
   rg 0x1c [] [fd 27 16 .rw 0x320 (.clamp 100 800) true, fd 11 0 .rw 0x640 (.clamp 200 1600) true] .expert,
   -- ERG_FCLK_NOW
   rg 0x20 [] [fd 27 16 .ro, fd 11 0 .ro],
   -- ERG_FCLK_MIN
   rg 0x24 [] [fd 27 16 .ro, fd 11 0 .ro],
   -- ERG_STRUCT_SEQ
   rg 0x28 [] [fd 31 0 .ro],
   -- ERG_USE
   rg 0x2c [] [fd 23 16 .ro, fd 11 8 .ro],
   -- ERG_REGION_PWR
   rg 0x30 [] [fd 16 16 .ro, fd 15 0 .ro],
   -- ERG_STALL_LO
   rg 0x38 [] [fd 31 0 .ro] .both 0 2,
   -- ERG_STALL_HI
   rg 0x3c [] [fd 31 0 .ro] .both 1 2,
   -- ERG_ECC_CORR
   rg 0x40 [] [fd 31 0 .ro],
   -- ERG_EVT_MASK
   rg 0x44 [] [fd 15 0 .lk],
   -- ERG_MAP
   rg 0x10000 [(0x4, 2176)] [fd 31 31 .ro, fd 30 30 .ro, fd 29 29 .ro, fd 15 8 .ro, fd 7 0 .ro],
   -- ERG_PTILE
   rg 0x20000 [(0x4, 2304)] [fd 31 28 .ro, fd 27 16 .ro, fd 15 0 .ro 0xffff],
   -- ERG_INST
   rg 0x40000 [(0x4, 8704)] [fd 31 0 .ro]]

/-- The registers of CAP, part 0. -/
def capRegs0 : List RegDesc := [
   -- CAP_GCTRL
   rg 0x40000 [] [fd 31 31 .w1s],
   -- CAP_GSTATUS
   rg 0x40004 [] [fd 8 0 .ro],
   -- CAP_EVT_MASK
   rg 0x40008 [] [fd 15 0 .lk],
   -- CAP_CTRL
   rg 0x0 [(0x400, 256)] [fd 28 28 .rw, fd 25 24 .ro, fd 23 12 .lk, fd 6 1 .lk, fd 0 0 .rw],
   -- CAP_STATUS
   rg 0x4 [(0x400, 256)] [fd 24 24 .ro, fd 17 17 .ro, fd 16 16 .ro, fd 15 8 .ro, fd 1 0 .ro],
   -- CAP_FMT
   rg 0x8 [(0x400, 256)] [fd 20 20 .lk, fd 18 16 .lk 0 .any true, fd 12 8 .lk, fd 3 0 .lk],
   -- CAP_WIDTH
   rg 0xc [(0x400, 256)] [fd 15 0 .lk 0 .any true],
   -- CAP_ACT
   rg 0x10 [(0x400, 256)] [fd 31 16 .lk 0 .any true, fd 15 0 .lk],
   -- CAP_DARK
   rg 0x14 [(0x400, 256)] [fd 31 16 .lk, fd 15 0 .lk],
   -- CAP_PAD
   rg 0x18 [(0x400, 256)] [fd 15 0 .rw],
   -- CAP_SW
   rg 0x1c [(0x400, 256)] [fd 31 31 .w1s, fd 30 30 .rw, fd 1 0 .rw],
   -- CAP_SW_LAT
   rg 0x20 [(0x400, 256)] [fd 7 0 .rw] .expert,
   -- CAP_MISS_TO
   rg 0x24 [(0x400, 256)] [fd 15 0 .lk 50 .any true],
   -- CAP_BLK_TAU
   rg 0x28 [(0x400, 256)] [fd 15 0 .rw 0x100] .basic,
   -- CAP_BLK_K
   rg 0x2c [(0x400, 256)] [fd 3 0 .rw 8 (.clamp 0 8)] .expert,
   -- CAP_DPC_SENS
   rg 0x30 [(0x400, 256)] [fd 1 0 .rw 2] .basic,
   -- CAP_DPC_T
   rg 0x34 [(0x400, 256)] [fd 31 16 .rw 0x800, fd 15 0 .rw 0x2000] .expert,
   -- CAP_DPC_K
   rg 0x38 [(0x400, 256)] [fd 3 0 .rw 7] .expert,
   -- CAP_WB_AUTO
   rg 0x3c [(0x400, 256)] [fd 31 31 .rw, fd 2 0 .rw 1] .basic,
   -- CAP_WB_WIN
   rg 0x40 [(0x400, 256)] [fd 31 16 .rw, fd 15 0 .rw] .basic]

/-- The registers of CAP, part 1. -/
def capRegs1 : List RegDesc := [
   -- CAP_WB_BOUND
   rg 0x44 [(0x400, 256)] [fd 31 16 .rw 0x3fff, fd 15 0 .rw 0x800],
   -- CAP_DPC_ST_LO
   rg 0x48 [(0x400, 256)] [fd 31 0 .lk] .both 0 2,
   -- CAP_DPC_ST_HI
   rg 0x4c [(0x400, 256)] [fd 7 0 .lk] .both 1 2,
   -- CAP_CAL_CTRL
   rg 0x50 [(0x400, 256)] [fd 31 31 .w1s, fd 29 28 .rw, fd 10 0 .rw 64 (.range 0 1024)],
   -- CAP_CAL_TARGET
   rg 0x54 [(0x400, 256)] [fd 15 0 .rw 0xcb20],
   -- CAP_CAL_STATUS
   rg 0x58 [(0x400, 256)] [fd 31 31 .ro, fd 16 0 .ro],
   -- CAP_EXP_SEQ
   rg 0x5c [(0x400, 256)] [fd 15 0 .ro],
   -- CAP_FRAME_NOW
   rg 0x60 [(0x400, 256)] [fd 31 0 .ro],
   -- CAP_COUNTS
   rg 0x64 [(0x400, 256), (0x4, 14)] [fd 31 0 .ro],
   -- CAP_WB_NOW
   rg 0xa8 [(0x400, 256), (0x4, 3)] [fd 31 16 .ro, fd 15 0 .ro],
   -- CAP_BLK_NOW
   rg 0x9c [(0x400, 256), (0x4, 3)] [fd 31 16 .ro, fd 15 0 .ro],
   -- CAP_FMT_ERR
   rg 0xb4 [(0x400, 256)] [fd 31 0 .ro],
   -- BK_CTRL
   rg 0x100 [(0x400, 256), (0xc0, 4)] [fd 31 30 .ro, fd 6 4 .rw 0 .any true, fd 3 2 .rw, fd 1 0 .rw],
   -- BK_TBL_LO
   rg 0x104 [(0x400, 256), (0xc0, 4)] [fd 31 12 .rw] .both 0 2,
   -- BK_TBL_HI
   rg 0x108 [(0x400, 256), (0xc0, 4)] [fd 7 0 .rw] .both 1 2,
   -- BK_BLK_OFF
   rg 0x10c [(0x400, 256), (0xc0, 4), (0x4, 3)] [fd 31 16 .rw, fd 15 0 .rw],
   -- BK_DCOL_REF
   rg 0x118 [(0x400, 256), (0xc0, 4), (0x4, 3)] [fd 31 16 .rw, fd 15 0 .rw],
   -- BK_WB_GAIN
   rg 0x124 [(0x400, 256), (0xc0, 4), (0x4, 3)] [fd 31 16 .rw, fd 15 0 .rw],
   -- BK_LENS_C
   rg 0x130 [(0x400, 256), (0xc0, 4)] [fd 31 16 .rw, fd 15 0 .rw],
   -- BK_LENS_A
   rg 0x134 [(0x400, 256), (0xc0, 4)] [fd 31 16 .rw, fd 15 0 .rw]]

/-- The registers of CAP, part 2. -/
def capRegs2 : List RegDesc := [
   -- BK_CMAT
   rg 0x138 [(0x400, 256), (0xc0, 4), (0x4, 12)] [fd 31 16 .rw, fd 15 0 .rw],
   -- BK_CMAT_OFF
   rg 0x168 [(0x400, 256), (0xc0, 4), (0x4, 2)] [fd 31 16 .rw, fd 15 0 .rw]]

/-- The registers of CAP. -/
def capRegs : List RegDesc := capRegs0 ++ capRegs1 ++ capRegs2

/-- The registers of OUT. -/
def outRegs : List RegDesc := [
   -- OUT_GCTRL
   rg 0x40000 [] [fd 31 31 .w1s],
   -- OUT_GSTATUS
   rg 0x40004 [] [fd 26 16 .ro, fd 9 0 .ro],
   -- OUT_EVT_MASK
   rg 0x40008 [] [fd 15 0 .lk],
   -- OUT_TAP_CTRL
   rg 0x0 [(0x100, 1024)] [fd 31 31 .rw, fd 28 28 .ro, fd 27 26 .ro, fd 25 24 .ro, fd 21 16 .lk, fd 0 0 .rw],
   -- OUT_TAP_STATUS
   rg 0x4 [(0x100, 1024)] [fd 24 24 .ro, fd 3 3 .ro, fd 2 2 .ro, fd 1 1 .ro, fd 0 0 .ro],
   -- OUT_CROP
   rg 0x8 [(0x100, 1024)] [fd 31 16 .rw 0 .any true, fd 15 0 .rw],
   -- OUT_DECL_X
   rg 0xc [(0x100, 1024)] [fd 31 16 .ro, fd 15 0 .ro],
   -- OUT_DECL_Y
   rg 0x10 [(0x100, 1024)] [fd 15 0 .ro],
   -- OUT_SCALE
   rg 0x14 [(0x100, 1024)] [fd 31 16 .rw 0 .any true, fd 15 0 .rw 0 .any true],
   -- OUT_PACK
   rg 0x18 [(0x100, 1024)] [fd 11 8 .lk 0 .any true, fd 4 4 .lk, fd 3 0 .lk],
   -- OUT_FILTER
   rg 0x1c [(0x100, 1024)] [fd 1 0 .rw 0 (.range 0 1)] .basic,
   -- OUT_COEF_LO
   rg 0x20 [(0x100, 1024)] [fd 31 12 .lk] .both 0 2,
   -- OUT_COEF_HI
   rg 0x24 [(0x100, 1024)] [fd 7 0 .lk] .both 1 2,
   -- OUT_LAT
   rg 0x28 [(0x100, 1024)] [fd 31 0 .rw],
   -- OUT_LINES
   rg 0x2c [(0x100, 1024), (0x4, 6)] [fd 31 0 .ro]]

/-- The registers of SEI, part 0. -/
def seiRegs0 : List RegDesc := [
   -- SEI_GCTRL
   rg 0x40000 [] [fd 31 31 .w1s],
   -- SEI_GSTATUS
   rg 0x40004 [] [fd 20 16 .ro, fd 15 0 .ro],
   -- SEI_EVT_MASK
   rg 0x40008 [] [fd 15 0 .lk],
   -- SEI_WB_CTRL
   rg 0x40100 [(0x20, 16)] [fd 31 31 .ro, fd 23 16 .ro, fd 15 8 .rw 50 (.range 0 100) true, fd 2 0 .rw],
   -- SEI_WB_WIN
   rg 0x40104 [(0x20, 16)] [fd 31 16 .rw 0 .any true, fd 15 0 .rw],
   -- SEI_WB_THR
   rg 0x40108 [(0x20, 16)] [fd 31 16 .rw 64 .any true, fd 15 0 .rw 0x4000],
   -- SEI_WB_STATUS
   rg 0x4010c [(0x20, 16)] [fd 31 31 .ro, fd 15 0 .ro],
   -- SEI_WB_EDGE
   rg 0x40110 [(0x20, 16)] [fd 31 16 .ro 0xffff, fd 15 0 .ro 0xffff],
   -- SEI_PM_CTRL
   rg 0x40400 [(0x20, 16)] [fd 31 31 .ro, fd 30 30 .rw, fd 23 16 .ro, fd 5 0 .lk],
   -- SEI_PM_CFG
   rg 0x40404 [(0x20, 16)] [fd 31 24 .rw 8 .any true, fd 18 16 .rw, fd 15 0 .rw 0x4000],
   -- SEI_PM_AREA
   rg 0x40408 [(0x20, 16)] [fd 31 16 .rw 0x1000, fd 15 0 .rw 64],
   -- SEI_PM_WIN
   rg 0x4040c [(0x20, 16), (0x4, 2)] [fd 31 16 .rw, fd 15 0 .rw],
   -- SEI_PM_COUNT
   rg 0x40414 [(0x20, 16)] [fd 31 0 .ro],
   -- SEI_BAR_CTRL
   rg 0x0 [(0x2000, 16)] [fd 31 31 .ro, fd 22 16 .ro, fd 9 8 .rw 0 (.range 0 1), fd 4 4 .rw, fd 0 0 .rw],
   -- SEI_BAR_STATUS
   rg 0x4 [(0x2000, 16)] [fd 24 24 .ro, fd 9 8 .ro, fd 2 2 .ro, fd 1 1 .ro, fd 0 0 .ro],
   -- SEI_BAR_GRID
   rg 0x8 [(0x2000, 16)] [fd 10 0 .lk 0 .any true],
   -- SEI_BAR_WIDTH
   rg 0xc [(0x2000, 16)] [fd 18 0 .lk 0 .any true],
   -- SEI_BAR_DIST
   rg 0x10 [(0x2000, 16)] [fd 31 0 .lk],
   -- SEI_BAR_SPAN
   rg 0x14 [(0x2000, 16)] [fd 15 8 .ro, fd 7 0 .lk],
   -- SEI_BAR_FRAME
   rg 0x18 [(0x2000, 16)] [fd 15 0 .lk 0 .any true]]

/-- The registers of SEI, part 1. -/
def seiRegs1 : List RegDesc := [
   -- SEI_BAR_FILL
   rg 0x1c [(0x2000, 16)] [fd 15 0 .rw],
   -- SEI_BAR_STALL
   rg 0x20 [(0x2000, 16)] [fd 15 0 .lk 200 .any true],
   -- SEI_BAR_REG
   rg 0x24 [(0x2000, 16)] [fd 15 8 .rw 4 .any true, fd 1 0 .rw 2 (.range 0 2)] .basic,
   -- SEI_BAR_LOOP
   rg 0x28 [(0x2000, 16)] [fd 31 31 .rw 1, fd 3 0 .rw 2 (.clamp 0 8)] .expert,
   -- SEI_BAR_APPLY
   rg 0x2c [(0x2000, 16)] [fd 0 0 .wo],
   -- SEI_BAR_MARK_CFG
   rg 0x30 [(0x2000, 16)] [fd 31 24 .rw 8 .any true, fd 18 16 .rw, fd 15 0 .rw 0x4000],
   -- SEI_BAR_MARK_AREA
   rg 0x34 [(0x2000, 16)] [fd 31 16 .rw 0x1000, fd 15 0 .rw 64],
   -- SEI_BAR_MARK_Y0
   rg 0x38 [(0x2000, 16)] [fd 31 0 .lk],
   -- SEI_BAR_MARK_REP
   rg 0x3c [(0x2000, 16)] [fd 31 0 .lk],
   -- SEI_BAR_MARK_SEARCH
   rg 0x40 [(0x2000, 16)] [fd 31 0 .rw 0x7d0],
   -- SEI_BAR_JUMP
   rg 0x44 [(0x2000, 16)] [fd 31 16 .rw 100 .any true, fd 15 0 .rw 4 .any true],
   -- SEI_BAR_ROW_LO
   rg 0x48 [(0x2000, 16)] [fd 31 0 .ro] .both 0 2,
   -- SEI_BAR_ROW_HI
   rg 0x4c [(0x2000, 16)] [fd 31 0 .ro] .both 1 2,
   -- SEI_BAR_QUEUE
   rg 0x50 [(0x2000, 16)] [fd 31 31 .rw, fd 5 0 .lk],
   -- SEI_BAR_COUNTS
   rg 0x54 [(0x2000, 16), (0x4, 7)] [fd 31 0 .ro],
   -- SEI_CAM_CTRL
   rg 0x1000 [(0x2000, 16), (0x40, 64)] [fd 31 31 .ro, fd 23 16 .ro, fd 15 0 .ro],
   -- SEI_CAM_OX
   rg 0x1004 [(0x2000, 16), (0x40, 64), (0x4, 4)] [fd 31 0 .rw] .expert,
   -- SEI_CAM_SEAM
   rg 0x1014 [(0x2000, 16), (0x40, 64)] [fd 31 22 .rw, fd 18 0 .rw] .expert,
   -- SEI_CAM_NOM_OX
   rg 0x1018 [(0x2000, 16), (0x40, 64), (0x4, 4)] [fd 31 0 .ro],
   -- SEI_CAM_LIM_X
   rg 0x1028 [(0x2000, 16), (0x40, 64)] [fd 31 16 .rw, fd 15 0 .rw]]

/-- The registers of SEI, part 2. -/
def seiRegs2 : List RegDesc := [
   -- SEI_CAM_LIM_Y
   rg 0x102c [(0x2000, 16), (0x40, 64)] [fd 31 16 .rw, fd 15 0 .rw],
   -- SEI_CAM_WIN
   rg 0x1030 [(0x2000, 16), (0x40, 64), (0x4, 2)] [fd 31 31 .rw, fd 27 19 .rw, fd 18 0 .rw],
   -- SEI_CAM_STATUS
   rg 0x1038 [(0x2000, 16), (0x40, 64)] [fd 31 28 .ro, fd 27 26 .ro, fd 15 0 .ro],
   -- SEI_CAM_LINES
   rg 0x103c [(0x2000, 16), (0x40, 64)] [fd 31 0 .ro]]

/-- The registers of SEI. -/
def seiRegs : List RegDesc := seiRegs0 ++ seiRegs1 ++ seiRegs2

/-- The registers of CMP, part 0. -/
def cmpRegs0 : List RegDesc := [
   -- CMP_GCTRL
   rg 0x40000 [] [fd 31 31 .w1s],
   -- CMP_GSTATUS
   rg 0x40004 [] [fd 20 16 .ro, fd 3 0 .ro],
   -- CMP_EVT_MASK
   rg 0x40008 [] [fd 15 0 .lk],
   -- CMP_RS_CTRL
   rg 0x20000 [(0x100, 8)] [fd 31 31 .ro, fd 30 30 .rw, fd 29 28 .lk, fd 23 18 .lk, fd 15 8 .lk 0 .any true],
   -- CMP_RS_GEOM
   rg 0x20004 [(0x100, 8)] [fd 31 16 .lk 0 .any true, fd 15 0 .lk 0 .any true],
   -- CMP_RS_WIDTH
   rg 0x20008 [(0x100, 8)] [fd 18 0 .lk 0 .any true],
   -- CMP_RS_ROW0
   rg 0x2000c [(0x100, 8)] [fd 31 0 .lk],
   -- CMP_RS_RING_LO
   rg 0x20010 [(0x100, 8)] [fd 31 16 .lk] .both 0 2,
   -- CMP_RS_RING_HI
   rg 0x20014 [(0x100, 8)] [fd 7 0 .lk] .both 1 2,
   -- CMP_RS_LIST_LO
   rg 0x20018 [(0x100, 8)] [fd 31 4 .lk] .both 0 2,
   -- CMP_RS_LIST_HI
   rg 0x2001c [(0x100, 8)] [fd 31 0 .lk] .both 1 2,
   -- CMP_RS_LIST_SIZE
   rg 0x20020 [(0x100, 8)] [fd 15 0 .lk 0 .any true],
   -- CMP_RS_TAIL
   rg 0x20024 [(0x100, 8)] [fd 15 0 .rw],
   -- CMP_RS_HEAD
   rg 0x20028 [(0x100, 8)] [fd 15 0 .ro],
   -- CMP_RS_MAP
   rg 0x2002c [(0x100, 8)] [fd 31 28 .lk, fd 27 24 .lk],
   -- CMP_RS_DEFCELL_LO
   rg 0x20030 [(0x100, 8)] [fd 31 0 .rw] .both 0 2,
   -- CMP_RS_DEFCELL_HI
   rg 0x20034 [(0x100, 8)] [fd 31 0 .rw] .both 1 2,
   -- CMP_RS_DROP
   rg 0x20038 [(0x100, 8), (0x4, 8)] [fd 23 16 .lk, fd 15 8 .lk, fd 7 0 .lk],
   -- CMP_RS_NEXT_TILE
   rg 0x20058 [(0x100, 8)] [fd 31 0 .ro],
   -- CMP_RS_RES_FIRST
   rg 0x2005c [(0x100, 8)] [fd 31 0 .ro]]

/-- The registers of CMP, part 1. -/
def cmpRegs1 : List RegDesc := [
   -- CMP_RS_RES_LAST
   rg 0x20060 [(0x100, 8)] [fd 31 0 .ro],
   -- CMP_RS_COUNTS
   rg 0x20064 [(0x100, 8), (0x4, 4)] [fd 31 0 .ro],
   -- CMP_BAR_CTRL
   rg 0x0 [(0x1000, 16)] [fd 31 31 .ro, fd 30 30 .rw, fd 29 29 .rw, fd 28 28 .rw, fd 27 24 .lk, fd 18 16 .ro, fd 15 8 .ro, fd 1 1 .rw, fd 0 0 .rw],
   -- CMP_BAR_STATUS
   rg 0x4 [(0x1000, 16)] [fd 24 24 .ro, fd 9 8 .ro, fd 3 3 .ro, fd 2 2 .ro, fd 1 1 .ro, fd 0 0 .ro],
   -- CMP_BAR_RANGE
   rg 0x8 [(0x1000, 16)] [fd 31 24 .lk 0 .any true, fd 23 16 .lk 0 .any true, fd 15 8 .lk, fd 7 0 .lk],
   -- CMP_BAR_LUT_LO
   rg 0xc [(0x1000, 16)] [fd 31 12 .lk] .both 0 2,
   -- CMP_BAR_LUT_HI
   rg 0x10 [(0x1000, 16)] [fd 7 0 .lk] .both 1 2,
   -- CMP_BAR_LUT_CFG
   rg 0x14 [(0x1000, 16)] [fd 31 31 .w1s, fd 27 24 .lk 0 .any true, fd 14 12 .lk, fd 10 8 .lk, fd 6 4 .lk, fd 2 0 .lk],
   -- CMP_BAR_ABS
   rg 0x18 [(0x1000, 16), (0x4, 8)] [fd 31 16 .rw, fd 15 0 .rw],
   -- CMP_BAR_SIGMA
   rg 0x38 [(0x1000, 16)] [fd 31 16 .rw, fd 15 0 .rw] .basic,
   -- CMP_BAR_KX
   rg 0x3c [(0x1000, 16), (0x4, 4)] [fd 31 16 .rw, fd 15 0 .rw] .expert,
   -- CMP_BAR_KY
   rg 0x4c [(0x1000, 16), (0x4, 4)] [fd 31 16 .rw, fd 15 0 .rw] .expert,
   -- CMP_BAR_TOLG
   rg 0x5c [(0x1000, 16)] [fd 31 24 .rw 16, fd 23 16 .rw 16, fd 15 8 .rw 16, fd 7 0 .rw 16],
   -- CMP_BAR_REG
   rg 0x60 [(0x1000, 16)] [fd 15 8 .rw 4 .any true, fd 1 0 .rw 2 (.range 0 2)] .basic,
   -- CMP_BAR_LOOP
   rg 0x64 [(0x1000, 16)] [fd 31 31 .rw 1, fd 3 0 .rw 2 (.clamp 0 8)] .expert,
   -- CMP_BAR_EST
   rg 0x68 [(0x1000, 16)] [fd 31 16 .lk 0 .any true, fd 10 8 .rw, fd 7 4 .rw 4 .any true, fd 3 0 .rw 8 .any true],
   -- CMP_BAR_CONF
   rg 0x6c [(0x1000, 16)] [fd 31 16 .rw 0x400, fd 15 8 .rw 50 (.range 0 100) true],
   -- CMP_BAR_MINTEX
   rg 0x70 [(0x1000, 16)] [fd 31 0 .rw 0x1000],
   -- CMP_BAR_LIM
   rg 0x74 [(0x1000, 16)] [fd 31 16 .rw, fd 15 0 .rw],
   -- CMP_BAR_CLUSTER
   rg 0x78 [(0x1000, 16)] [fd 31 24 .rw 16 .any true, fd 15 8 .rw 2]]

/-- The registers of CMP, part 2. -/
def cmpRegs2 : List RegDesc := [
   -- CMP_BAR_CLMAX
   rg 0x7c [(0x1000, 16)] [fd 31 16 .rw 0x1000 .any true],
   -- CMP_BAR_QUEUE
   rg 0x80 [(0x1000, 16)] [fd 5 0 .lk],
   -- CMP_BAR_CROP
   rg 0x84 [(0x1000, 16)] [fd 31 31 .rw, fd 7 0 .rw 16],
   -- CMP_BAR_CROP_MAX
   rg 0x88 [(0x1000, 16)] [fd 31 16 .rw 0x200, fd 15 0 .rw 0x200],
   -- CMP_BAR_CROP_RING_LO
   rg 0x8c [(0x1000, 16)] [fd 31 16 .lk] .both 0 2,
   -- CMP_BAR_CROP_RING_HI
   rg 0x90 [(0x1000, 16)] [fd 7 0 .lk] .both 1 2,
   -- CMP_BAR_CROP_DEPTH
   rg 0x94 [(0x1000, 16)] [fd 15 0 .lk],
   -- CMP_BAR_CROP_BUDGET
   rg 0x98 [(0x1000, 16)] [fd 31 0 .rw],
   -- CMP_BAR_ROW_LO
   rg 0x9c [(0x1000, 16)] [fd 31 0 .ro] .both 0 2,
   -- CMP_BAR_ROW_HI
   rg 0xa0 [(0x1000, 16)] [fd 31 0 .ro] .both 1 2,
   -- CMP_BAR_COUNTS
   rg 0xa4 [(0x1000, 16), (0x4, 11)] [fd 31 0 .ro],
   -- CMP_BAR_REC_ID
   rg 0xd0 [(0x1000, 16)] [fd 31 0 .ro],
   -- CMP_SL_CTRL
   rg 0x800 [(0x1000, 16), (0x40, 16)] [fd 31 31 .ro, fd 18 0 .ro],
   -- CMP_SL_WIDTH
   rg 0x804 [(0x1000, 16), (0x40, 16)] [fd 18 0 .ro],
   -- CMP_SL_SHIFT_X
   rg 0x808 [(0x1000, 16), (0x40, 16)] [fd 15 0 .rw] .expert,
   -- CMP_SL_SHIFT_Y
   rg 0x80c [(0x1000, 16), (0x40, 16)] [fd 15 0 .rw] .expert,
   -- CMP_SL_EST
   rg 0x810 [(0x1000, 16), (0x40, 16)] [fd 31 16 .ro, fd 15 0 .ro],
   -- CMP_SL_STATUS
   rg 0x814 [(0x1000, 16), (0x40, 16)] [fd 31 28 .ro, fd 15 0 .ro],
   -- CMP_SL_COST
   rg 0x818 [(0x1000, 16), (0x40, 16)] [fd 31 0 .ro],
   -- CMP_SL_TEX
   rg 0x81c [(0x1000, 16), (0x40, 16)] [fd 31 0 .ro]]

/-- The registers of CMP. -/
def cmpRegs : List RegDesc := cmpRegs0 ++ cmpRegs1 ++ cmpRegs2

/-- The registers of NZL, part 0. -/
def nzlRegs0 : List RegDesc := [
   -- NZL_CTRL
   rg 0x0 [] [fd 31 31 .w1s],
   -- NZL_STATUS
   rg 0x4 [] [fd 10 0 .ro],
   -- NZL_EVT_MASK
   rg 0x8 [] [fd 15 0 .lk],
   -- NZL_WORK_LO
   rg 0xc [] [fd 31 16 .lk] .both 0 2,
   -- NZL_WORK_HI
   rg 0x10 [] [fd 7 0 .lk] .both 1 2,
   -- NZL_LEDGER_LO
   rg 0x14 [] [fd 31 16 .lk] .both 0 2,
   -- NZL_LEDGER_HI
   rg 0x18 [] [fd 7 0 .lk] .both 1 2,
   -- NZL_ACC_LO
   rg 0x1c [] [fd 31 12 .lk] .both 0 2,
   -- NZL_ACC_HI
   rg 0x20 [] [fd 7 0 .lk] .both 1 2,
   -- NZL_SD_CTRL
   rg 0x1000 [(0x100, 2)] [fd 31 31 .ro, fd 30 30 .rw, fd 27 24 .lk, fd 2 2 .rw, fd 1 1 .rw, fd 0 0 .rw],
   -- NZL_SD_STATUS
   rg 0x1004 [(0x100, 2)] [fd 24 24 .ro, fd 23 0 .ro],
   -- NZL_SD_POLICY
   rg 0x1008 [(0x100, 2)] [fd 15 8 .rw 4 .any true, fd 5 5 .rw 1, fd 4 4 .rw 1, fd 1 0 .rw 1 (.not 3)] .basic,
   -- NZL_SD_GAIN
   rg 0x100c [(0x100, 2)] [fd 11 8 .rw 2 (.clamp 0 8), fd 3 0 .rw 0 (.clamp 0 8)] .expert,
   -- NZL_SD_THR
   rg 0x1010 [(0x100, 2)] [fd 27 16 .rw 0x266, fd 11 0 .rw 51] .expert,
   -- NZL_SD_CLS
   rg 0x1014 [(0x100, 2)] [fd 23 16 .rw 32, fd 3 0 .rw 3 .any true] .expert,
   -- NZL_SD_SUBST
   rg 0x1018 [(0x100, 2)] [fd 7 0 .rw 100 (.range 0 100)] .expert,
   -- NZL_SD_BOUND
   rg 0x101c [(0x100, 2)] [fd 25 16 .rw 0x3c0, fd 9 0 .rw 0x100],
   -- NZL_SD_STEP
   rg 0x1020 [(0x100, 2)] [fd 20 16 .rw 15, fd 9 0 .rw 128 .any true],
   -- NZL_SD_OFF
   rg 0x1024 [(0x100, 2)] [fd 12 0 .rw 64],
   -- NZL_SD_EARLY
   rg 0x1028 [(0x100, 2)] [fd 31 0 .lk]]

/-- The registers of NZL, part 1. -/
def nzlRegs1 : List RegDesc := [
   -- NZL_SD_CLOSE
   rg 0x102c [(0x100, 2)] [fd 15 0 .lk 0x1f4 .any true],
   -- NZL_SD_STRIPE_Y0
   rg 0x1030 [(0x100, 2)] [fd 31 0 .lk],
   -- NZL_SD_STRIPE_REP
   rg 0x1034 [(0x100, 2)] [fd 31 0 .lk],
   -- NZL_SD_STRIPE_GEOM
   rg 0x1038 [(0x100, 2)] [fd 31 24 .lk 0 .any true, fd 23 16 .lk 0 .any true, fd 15 8 .lk],
   -- NZL_SD_RES
   rg 0x103c [(0x100, 2)] [fd 31 24 .rw 128, fd 23 16 .rw 8, fd 15 0 .rw 0x100],
   -- NZL_SD_KMIN
   rg 0x1040 [(0x100, 2)] [fd 15 0 .rw 0x1000],
   -- NZL_SD_ROW
   rg 0x1044 [(0x100, 2), (0x4, 8)] [fd 31 31 .lk, fd 26 24 .lk, fd 18 16 .lk],
   -- NZL_SD_RDIST
   rg 0x1064 [(0x100, 2), (0x4, 8)] [fd 31 0 .lk],
   -- NZL_SD_PAPER
   rg 0x1084 [(0x100, 2), (0x4, 2)] [fd 31 16 .rw, fd 15 0 .rw],
   -- NZL_SD_DNOM
   rg 0x108c [(0x100, 2), (0x4, 8)] [fd 31 0 .rw] .expert,
   -- NZL_SD_COUNTS
   rg 0x10ac [(0x100, 2), (0x4, 8)] [fd 31 0 .ro],
   -- NZL_MOD_CTRL
   rg 0x10000 [(0x20, 1024)] [fd 31 31 .ro, fd 30 30 .lk, fd 29 29 .lk, fd 26 24 .lk, fd 11 0 .lk],
   -- NZL_MOD_BASE
   rg 0x10004 [(0x20, 1024)] [fd 19 0 .lk],
   -- NZL_MOD_COUNT
   rg 0x10008 [(0x20, 1024)] [fd 13 0 .lk 0 .any true],
   -- NZL_MOD_X0
   rg 0x1000c [(0x20, 1024)] [fd 31 0 .lk],
   -- NZL_MOD_PITCH
   rg 0x10010 [(0x20, 1024)] [fd 15 0 .lk 0 .any true],
   -- NZL_MOD_STATUS
   rg 0x10014 [(0x20, 1024)] [fd 31 28 .ro, fd 27 27 .ro, fd 23 0 .ro],
   -- NZL_MOD_OFF
   rg 0x10018 [(0x20, 1024)] [fd 12 0 .ro],
   -- NZL_MOD_MISS
   rg 0x1001c [(0x20, 1024)] [fd 31 0 .ro]]

/-- The registers of NZL. -/
def nzlRegs : List RegDesc := nzlRegs1 ++ nzlRegs0

/-- The registers of MEM, part 0. -/
def memRegs0 : List RegDesc := [
   -- MEM_CTRL
   rg 0x0 [] [fd 31 31 .w1s, fd 0 0 .rw],
   -- MEM_STATUS
   rg 0x4 [] [fd 24 24 .ro, fd 1 1 .ro, fd 0 0 .ro],
   -- MEM_EVT_MASK
   rg 0x8 [] [fd 15 0 .lk],
   -- MEM_BLK_FREE
   rg 0xc [] [fd 16 0 .ro],
   -- MEM_GRN_FREE
   rg 0x10 [] [fd 20 0 .ro],
   -- MEM_RES_FREE
   rg 0x14 [] [fd 16 0 .ro 0x10000],
   -- MEM_RES_CFG
   rg 0x18 [] [fd 31 16 .rw 0x400 .any true, fd 6 0 .rw 100 (.range 0 100) true],
   -- MEM_ECC_CORR
   rg 0x1c [] [fd 31 0 .ro],
   -- MEM_ECC_UNCORR
   rg 0x20 [] [fd 31 0 .ro],
   -- MEM_SCRUB
   rg 0x24 [] [fd 7 0 .rw 24 .any true] .basic,
   -- MEM_SCRUB_RATE
   rg 0x28 [] [fd 15 0 .rw 0x320] .expert,
   -- MEM_ERR_ADDR_LO
   rg 0x2c [] [fd 31 0 .ro] .both 0 2,
   -- MEM_ERR_ADDR_HI
   rg 0x30 [] [fd 7 0 .ro] .both 1 2,
   -- MEM_RES_SPILLED
   rg 0x34 [] [fd 31 0 .ro],
   -- MEM_RES_DISCARDED
   rg 0x38 [] [fd 31 0 .ro],
   -- MEM_AP_CTRL
   rg 0x1000 [(0x20, 6)] [fd 31 31 .w1s, fd 30 28 .rw 0 (.range 0 3), fd 27 27 .rw, fd 20 0 .rw],
   -- MEM_AP_INDEX
   rg 0x1004 [(0x20, 6)] [fd 19 0 .rw],
   -- MEM_AP_OWNER
   rg 0x1008 [(0x20, 6)] [fd 31 16 .ro, fd 15 0 .rw],
   -- MEM_AP_STATUS
   rg 0x100c [(0x20, 6)] [fd 31 31 .ro, fd 30 30 .ro, fd 29 29 .ro, fd 7 0 .ro],
   -- MEM_RQ_CTRL
   rg 0x2000 [(0x40, 64)] [fd 31 31 .rw, fd 30 30 .w1s, fd 29 29 .lk, fd 21 16 .rw, fd 15 0 .rw 1]]

/-- The registers of MEM, part 1. -/
def memRegs1 : List RegDesc := [
   -- MEM_RQ_BASE_LO
   rg 0x2004 [(0x40, 64)] [fd 31 12 .lk] .both 0 2,
   -- MEM_RQ_BASE_HI
   rg 0x2008 [(0x40, 64)] [fd 31 0 .lk] .both 1 2,
   -- MEM_RQ_SIZE
   rg 0x200c [(0x40, 64)] [fd 20 0 .lk 0 .any true],
   -- MEM_RQ_HEAD
   rg 0x2010 [(0x40, 64)] [fd 31 0 .rw],
   -- MEM_RQ_TAIL
   rg 0x2014 [(0x40, 64)] [fd 31 0 .ro],
   -- MEM_RQ_NOTIFY
   rg 0x2018 [(0x40, 64)] [fd 15 0 .rw 100],
   -- MEM_RQ_STATUS
   rg 0x201c [(0x40, 64)] [fd 31 31 .ro, fd 30 30 .ro, fd 29 29 .ro, fd 28 28 .ro, fd 15 0 .ro],
   -- MEM_RQ_PKTS
   rg 0x2020 [(0x40, 64)] [fd 31 0 .ro],
   -- MEM_RQ_FULL_CNT
   rg 0x2024 [(0x40, 64)] [fd 31 0 .ro],
   -- MEM_OWN
   rg 0x40000 [(0x4, 65536)] [fd 31 31 .ro, fd 15 0 .ro]]

/-- The registers of MEM. -/
def memRegs : List RegDesc := memRegs0 ++ memRegs1

/-- The registers of JRN, part 0. -/
def jrnRegs0 : List RegDesc := [
   -- JRN_CTRL
   rg 0x0 [] [fd 31 31 .w1s, fd 2 2 .w1s, fd 1 1 .rw, fd 0 0 .rw],
   -- JRN_STATUS
   rg 0x4 [] [fd 24 24 .ro, fd 5 5 .ro, fd 4 4 .ro, fd 3 3 .ro, fd 2 2 .ro, fd 1 1 .ro, fd 0 0 .ro],
   -- JRN_EVT_MASK
   rg 0x8 [] [fd 15 0 .lk],
   -- JRN_INDEX_LO
   rg 0xc [] [fd 31 16 .lk] .both 0 2,
   -- JRN_INDEX_HI
   rg 0x10 [] [fd 7 0 .lk] .both 1 2,
   -- JRN_EXTENTS
   rg 0x14 [] [fd 28 0 .lk 0 .any true],
   -- JRN_STAGE_LO
   rg 0x18 [] [fd 31 16 .lk] .both 0 2,
   -- JRN_STAGE_HI
   rg 0x1c [] [fd 7 0 .lk] .both 1 2,
   -- JRN_STAGE_CFG
   rg 0x20 [] [fd 13 8 .lk, fd 5 0 .lk 0 .any true],
   -- JRN_QUEUE
   rg 0x24 [] [fd 5 0 .lk],
   -- JRN_POLICY
   rg 0x28 [] [fd 15 0 .rw 10 .any true] .basic,
   -- JRN_AGE
   rg 0x2c [] [fd 31 0 .rw 0x2710 .any true] .expert,
   -- JRN_OPEN_EXT
   rg 0x30 [] [fd 31 0 .ro 0xffffffff],
   -- JRN_SEAL_SEQ
   rg 0x34 [] [fd 31 0 .ro 1],
   -- JRN_RSEQ_LO
   rg 0x38 [] [fd 31 0 .ro] .both 0 2,
   -- JRN_RSEQ_HI
   rg 0x3c [] [fd 31 0 .ro] .both 1 2,
   -- JRN_FREE_CNT
   rg 0x40 [] [fd 28 0 .ro],
   -- JRN_OP
   rg 0x44 [] [fd 31 31 .w1s, fd 30 28 .rw 0 (.range 0 2)],
   -- JRN_OP_EXT
   rg 0x48 [] [fd 27 0 .rw],
   -- JRN_OP_COUNT
   rg 0x4c [] [fd 28 0 .rw]]

/-- The registers of JRN, part 1. -/
def jrnRegs1 : List RegDesc := [
   -- JRN_OP_STATUS
   rg 0x50 [] [fd 31 31 .ro, fd 30 30 .ro, fd 10 8 .ro, fd 7 0 .ro],
   -- JRN_NOTE_GO
   rg 0x54 [] [fd 0 0 .wo],
   -- JRN_NOTE_DATA
   rg 0x60 [(0x4, 8)] [fd 31 0 .rw],
   -- JRN_RECORDS
   rg 0x80 [(0x4, 4)] [fd 31 0 .ro],
   -- JRN_WIN_CTRL
   rg 0x1000 [(0x20, 16)] [fd 31 31 .rw],
   -- JRN_WIN_FIRST
   rg 0x1004 [(0x20, 16)] [fd 27 0 .rw],
   -- JRN_WIN_COUNT
   rg 0x1008 [(0x20, 16)] [fd 28 0 .rw],
   -- JRN_WIN_BASE_LO
   rg 0x100c [(0x20, 16)] [fd 31 16 .rw] .both 0 2,
   -- JRN_WIN_BASE_HI
   rg 0x1010 [(0x20, 16)] [fd 31 0 .rw] .both 1 2]

/-- The registers of JRN. -/
def jrnRegs : List RegDesc := jrnRegs0 ++ jrnRegs1

/-- The registers of MOV. -/
def movRegs : List RegDesc := [
   -- MOV_CTRL
   rg 0x0 [] [fd 31 31 .w1s, fd 0 0 .rw],
   -- MOV_STATUS
   rg 0x4 [] [fd 24 24 .ro, fd 13 8 .ro, fd 0 0 .ro],
   -- MOV_EVT_MASK
   rg 0x8 [] [fd 15 0 .lk],
   -- MOV_RD_CFG
   rg 0xc [] [fd 24 16 .rw 0x100 (.range 4 256) true, fd 2 0 .rw 5 (.range 0 5)] .expert,
   -- MOV_BYTES_LO
   rg 0x10 [] [fd 31 0 .ro] .both 0 2,
   -- MOV_BYTES_HI
   rg 0x14 [] [fd 31 0 .ro] .both 1 2,
   -- MOV_CH_CTRL
   rg 0x1000 [(0x40, 64)] [fd 31 31 .rw, fd 30 30 .w1s, fd 29 29 .w1s, fd 28 28 .ro, fd 27 27 .rw, fd 21 16 .rw],
   -- MOV_CH_RING_LO
   rg 0x1004 [(0x40, 64)] [fd 31 6 .rw] .both 0 2,
   -- MOV_CH_RING_HI
   rg 0x1008 [(0x40, 64)] [fd 31 0 .rw] .both 1 2,
   -- MOV_CH_ENTRIES
   rg 0x100c [(0x40, 64)] [fd 15 0 .rw 16 (.not 1) true],
   -- MOV_CH_TAIL
   rg 0x1010 [(0x40, 64)] [fd 15 0 .rw],
   -- MOV_CH_HEAD
   rg 0x1014 [(0x40, 64)] [fd 15 0 .ro],
   -- MOV_CH_STATUS
   rg 0x1018 [(0x40, 64)] [fd 31 28 .ro, fd 23 16 .ro, fd 15 8 .ro, fd 7 0 .ro],
   -- MOV_CH_RESULT
   rg 0x101c [(0x40, 64)] [fd 31 0 .ro],
   -- MOV_CH_DONE
   rg 0x1020 [(0x40, 64)] [fd 31 0 .ro],
   -- MOV_CH_ERR
   rg 0x1024 [(0x40, 64)] [fd 31 0 .ro]]

/-- The registers of PER, part 0. -/
def perRegs0 : List RegDesc := [
   -- PER_CTRL
   rg 0x0 [] [fd 31 31 .w1s],
   -- PER_STATUS
   rg 0x4 [] [fd 11 4 .ro, fd 3 0 .ro],
   -- PER_EVT_MASK
   rg 0x8 [] [fd 15 0 .lk],
   -- POD_START
   rg 0xc [] [fd 8 8 .rw, fd 7 0 .w1s],
   -- POD_STOP
   rg 0x10 [] [fd 7 0 .w1s],
   -- POD_AT_LO
   rg 0x14 [] [fd 31 0 .rw] .both 0 2,
   -- POD_AT_HI
   rg 0x18 [] [fd 31 0 .rw] .both 1 2,
   -- TWB_CTRL
   rg 0x1000 [(0x100, 4)] [fd 31 31 .rw, fd 30 30 .rw, fd 29 28 .rw 0 (.range 0 2), fd 0 0 .rw],
   -- TWB_STATUS
   rg 0x1004 [(0x100, 4)] [fd 31 31 .ro, fd 30 30 .ro, fd 29 29 .ro, fd 28 28 .w1c, fd 27 27 .ro, fd 24 24 .ro, fd 15 8 .ro, fd 7 0 .ro],
   -- TWB_XFER
   rg 0x1008 [(0x100, 4)] [fd 31 31 .w1s, fd 30 30 .rw, fd 22 16 .rw, fd 13 8 .rw 0 (.range 0 32), fd 5 0 .rw 0 (.range 0 32)],
   -- TWB_TIMING
   rg 0x100c [(0x100, 4)] [fd 29 20 .rw 0x1ae .any true, fd 19 10 .rw 0x1d6 .any true, fd 5 0 .rw 30] .expert,
   -- TWB_TO
   rg 0x1010 [(0x100, 4)] [fd 31 16 .rw 0x61a8, fd 15 0 .rw 0x61a8],
   -- TWB_IBR
   rg 0x1014 [(0x100, 4)] [fd 7 0 .rw 20 .any true],
   -- TWB_MEAS
   rg 0x1018 [(0x100, 4)] [fd 31 31 .w1s, fd 30 30 .ro, fd 15 0 .rw 0x898 .any true],
   -- TWB_TR
   rg 0x101c [(0x100, 4)] [fd 27 16 .ro, fd 11 0 .ro],
   -- TWB_CAP
   rg 0x1020 [(0x100, 4)] [fd 27 16 .ro, fd 11 0 .ro],
   -- TWB_SU
   rg 0x1024 [(0x100, 4)] [fd 31 16 .ro 100, fd 11 0 .ro 0xd48],
   -- TWB_TX
   rg 0x1028 [(0x100, 4), (0x4, 8)] [fd 31 0 .rw],
   -- TWB_RX
   rg 0x1048 [(0x100, 4), (0x4, 8)] [fd 31 0 .ro],
   -- TWB_XFERS
   rg 0x1068 [(0x100, 4)] [fd 31 0 .ro]]

/-- The registers of PER, part 1. -/
def perRegs1 : List RegDesc := [
   -- TWB_ERRS
   rg 0x106c [(0x100, 4)] [fd 31 0 .ro],
   -- TWB_TGT_CTRL
   rg 0x1080 [] [fd 31 31 .rw, fd 30 30 .w1s, fd 29 29 .w1s, fd 13 8 .rw 0 (.range 0 32), fd 6 0 .lk],
   -- TWB_TGT_STATUS
   rg 0x1084 [] [fd 31 31 .w1c, fd 30 30 .ro, fd 29 29 .ro, fd 5 0 .ro],
   -- TWB_TGT_TX
   rg 0x1088 [(0x4, 8)] [fd 31 0 .rw],
   -- TWB_TGT_RX
   rg 0x10a8 [(0x4, 8)] [fd 31 0 .ro],
   -- POD_CUES
   rg 0x2000 [(0x800, 2)] [fd 7 0 .w1s],
   -- POD_PINSEL
   rg 0x2004 [(0x800, 2)] [fd 15 0 .lk],
   -- POD_PINS
   rg 0x2008 [(0x800, 2)] [fd 15 0 .ro],
   -- POD_E_CTRL
   rg 0x2100 [(0x800, 2), (0x40, 4)] [fd 31 31 .ro, fd 30 30 .ro, fd 29 29 .rw, fd 26 20 .rw, fd 15 0 .rw 1 .any true],
   -- POD_E_PINS
   rg 0x2104 [(0x800, 2), (0x40, 4)] [fd 28 24 .rw 0 (.range 0 16), fd 19 16 .rw, fd 12 8 .rw 0 (.range 0 16), fd 3 0 .rw],
   -- POD_E_LOOP
   rg 0x2108 [(0x800, 2), (0x40, 4)] [fd 31 16 .rw, fd 15 0 .rw],
   -- POD_E_FEED
   rg 0x210c [(0x800, 2), (0x40, 4)] [fd 31 0 .wo],
   -- POD_E_CATCH
   rg 0x2110 [(0x800, 2), (0x40, 4)] [fd 31 0 .ro],
   -- POD_E_STATUS
   rg 0x2114 [(0x800, 2), (0x40, 4)] [fd 30 24 .ro, fd 20 16 .ro, fd 12 8 .ro, fd 3 0 .ro],
   -- POD_E_COUNT
   rg 0x2118 [(0x800, 2), (0x40, 4)] [fd 31 16 .ro, fd 15 0 .ro],
   -- POD_E_LOST
   rg 0x211c [(0x800, 2), (0x40, 4)] [fd 31 16 .ro, fd 15 0 .ro],
   -- POD_STEP
   rg 0x2400 [(0x800, 2), (0x4, 256)] [fd 31 0 .rw],
   -- GPIO_IN
   rg 0x3000 [] [fd 23 0 .ro],
   -- GPIO_OUT
   rg 0x3004 [] [fd 23 0 .rw],
   -- GPIO_SET
   rg 0x3008 [] [fd 23 0 .wo]]

/-- The registers of PER, part 2. -/
def perRegs2 : List RegDesc := [
   -- GPIO_CLR
   rg 0x300c [] [fd 23 0 .wo],
   -- GPIO_OE
   rg 0x3010 [] [fd 23 0 .rw],
   -- GPIO_PULLUP
   rg 0x3014 [] [fd 23 0 .rw],
   -- GPIO_PULLDN
   rg 0x3018 [] [fd 23 0 .rw],
   -- GPIO_OD
   rg 0x301c [] [fd 23 0 .rw],
   -- GPIO_RISE
   rg 0x3020 [] [fd 23 0 .rw],
   -- GPIO_FALL
   rg 0x3024 [] [fd 23 0 .rw],
   -- GPIO_PEND
   rg 0x3028 [] [fd 23 0 .w1c],
   -- ENC_CTRL
   rg 0x3100 [(0x20, 4)] [fd 31 31 .rw, fd 30 30 .rw, fd 29 29 .rw, fd 25 24 .rw, fd 7 0 .rw 2],
   -- ENC_POS
   rg 0x3104 [(0x20, 4)] [fd 31 0 .rw],
   -- ENC_IDX_POS
   rg 0x3108 [(0x20, 4)] [fd 31 0 .ro],
   -- ENC_STATUS
   rg 0x310c [(0x20, 4)] [fd 31 31 .w1c, fd 30 30 .ro, fd 2 0 .ro],
   -- ENC_ERR
   rg 0x3110 [(0x20, 4)] [fd 31 0 .ro],
   -- STB_CTRL
   rg 0x3200 [(0x20, 8)] [fd 31 31 .rw, fd 30 30 .rw, fd 29 29 .rw, fd 28 28 .w1c, fd 27 27 .ro, fd 23 16 .lk],
   -- STB_OFFSET
   rg 0x3204 [(0x20, 8)] [fd 31 0 .rw],
   -- STB_WIDTH
   rg 0x3208 [(0x20, 8)] [fd 31 0 .rw 0x3e8],
   -- STB_PWM
   rg 0x320c [(0x20, 8)] [fd 31 16 .rw 100 .any true, fd 9 0 .rw 0 (.range 0 1000)],
   -- STB_LOAD
   rg 0x3210 [(0x20, 8)] [fd 11 0 .ro],
   -- STB_LIMIT
   rg 0x3214 [(0x20, 8)] [fd 27 16 .rw 0x9c4, fd 11 0 .rw 50],
   -- STB_PULSES
   rg 0x3218 [(0x20, 8)] [fd 31 0 .ro]]

/-- The registers of PER, part 3. -/
def perRegs3 : List RegDesc := [
   -- STB_MISSED
   rg 0x321c [(0x20, 8)] [fd 31 0 .ro]]

/-- The registers of PER. -/
def perRegs : List RegDesc := perRegs0 ++ perRegs1 ++ perRegs2 ++ perRegs3

/-- The registers of EVT. -/
def evtRegs : List RegDesc := [
   -- EVT_CTRL
   rg 0x0 [] [fd 31 31 .w1s, fd 9 8 .lk 3, fd 0 0 .rw],
   -- EVT_STATUS
   rg 0x4 [] [fd 24 24 .ro, fd 15 8 .ro, fd 1 1 .ro, fd 0 0 .ro],
   -- EVT_EVT_MASK
   rg 0x8 [] [fd 15 0 .lk],
   -- EVT_Q_BASE_LO
   rg 0xc [] [fd 31 12 .ro] .both 0 2,
   -- EVT_Q_BASE_HI
   rg 0x10 [] [fd 7 0 .ro] .both 1 2,
   -- EVT_Q_SIZE
   rg 0x14 [] [fd 31 0 .ro],
   -- EVT_Q_HEAD
   rg 0x18 [] [fd 31 0 .rw],
   -- EVT_Q_TAIL
   rg 0x1c [] [fd 31 0 .ro],
   -- EVT_LOST
   rg 0x20 [] [fd 31 0 .ro],
   -- EVT_SUPPRESSED
   rg 0x24 [] [fd 31 0 .ro],
   -- EVT_FAULT
   rg 0x28 [] [fd 19 0 .w1c],
   -- EVT_HALT
   rg 0x2c [] [fd 19 0 .ro],
   -- EVT_INT
   rg 0x30 [] [fd 0 0 .w1c],
   -- EVT_CORE_PEND
   rg 0x34 [] [fd 3 0 .w1c],
   -- EVT_DL_MISS
   rg 0x40 [(0x4, 5)] [fd 31 0 .ro],
   -- EVT_DL_BURST
   rg 0x60 [(0x4, 5)] [fd 15 0 .rw],
   -- EVT_ROUTE
   rg 0x100 [(0x4, 32)] [fd 31 31 .rw, fd 30 28 .rw 1 (.range 1 4), fd 27 20 .rw 255, fd 19 16 .rw, fd 15 15 .rw, fd 14 14 .rw, fd 5 0 .rw]]

/-- The registers of CVU. -/
def cvuRegs : List RegDesc := [
   -- CVU_CTRL
   rg 0x0 [] [fd 31 31 .w1s, fd 0 0 .rw],
   -- CVU_STATUS
   rg 0x4 [] [fd 0 0 .ro],
   -- CVU_EVT_MASK
   rg 0x8 [] [fd 15 0 .lk],
   -- CVU_U_CTRL
   rg 0x100 [(0x40, 16)] [fd 31 31 .w1s, fd 9 8 .rw, fd 0 0 .rw],
   -- CVU_U_ADDR_LO
   rg 0x104 [(0x40, 16)] [fd 31 0 .rw] .both 0 2,
   -- CVU_U_ADDR_HI
   rg 0x108 [(0x40, 16)] [fd 7 0 .rw] .both 1 2,
   -- CVU_U_LEN
   rg 0x10c [(0x40, 16)] [fd 31 0 .rw],
   -- CVU_U_RESULT
   rg 0x110 [(0x40, 16)] [fd 31 0 .ro],
   -- CVU_U_STATUS
   rg 0x114 [(0x40, 16)] [fd 31 31 .ro, fd 30 30 .ro, fd 29 29 .ro, fd 7 0 .ro]]

/-- The registers of PT. -/
def partnerRegs : List RegDesc := [
   -- PT_CTRL
   rg 0x0 [(0x100, 4096)] [fd 31 31 .lk, fd 30 30 .lk, fd 29 29 .rw, fd 28 28 .w1s, fd 27 24 .lk, fd 6 0 .lk],
   -- PT_STATUS
   rg 0x4 [(0x100, 4096)] [fd 31 28 .ro, fd 27 24 .ro, fd 23 16 .ro],
   -- PT_ALIVE
   rg 0x8 [(0x100, 4096)] [fd 7 0 .lk 0 .any true],
   -- PT_GRANT01
   rg 0xc [(0x100, 4096)] [fd 31 16 .lk, fd 15 0 .lk],
   -- PT_GRANT23
   rg 0x10 [(0x100, 4096)] [fd 31 16 .lk, fd 15 0 .lk],
   -- PT_PEER01
   rg 0x14 [(0x100, 4096)] [fd 31 16 .ro, fd 15 0 .ro],
   -- PT_PEER23
   rg 0x18 [(0x100, 4096)] [fd 31 16 .ro, fd 15 0 .ro],
   -- PT_AVAIL01
   rg 0x1c [(0x100, 4096)] [fd 31 16 .ro, fd 15 0 .ro],
   -- PT_AVAIL23
   rg 0x20 [(0x100, 4096)] [fd 31 16 .ro, fd 15 0 .ro],
   -- PT_RX
   rg 0x24 [(0x100, 4096)] [fd 31 0 .ro],
   -- PT_TX
   rg 0x28 [(0x100, 4096)] [fd 31 0 .ro],
   -- PT_ERR
   rg 0x2c [(0x100, 4096)] [fd 31 24 .ro, fd 23 16 .ro, fd 15 8 .ro, fd 7 0 .ro],
   -- PT_UID_LO
   rg 0x30 [(0x100, 4096)] [fd 31 0 .lk] .both 0 2,
   -- PT_UID_HI
   rg 0x34 [(0x100, 4096)] [fd 31 0 .lk] .both 1 2,
   -- PT_DELAY
   rg 0x38 [(0x100, 4096)] [fd 31 0 .ro],
   -- PT_RSVD
   rg 0x3c [(0x100, 4096), (0x4, 17)] [fd 31 0 .ro],
   -- PT_DESC
   rg 0x80 [(0x100, 4096), (0x4, 32)] [fd 31 0 .ro]]

/-- The registers of NL. -/
def ledgerRegs : List RegDesc := [
   -- LEDGER_LO
   rg 0x0 [(0x8, 1048576)] [fd 31 0 .ro] .both 0 2,
   -- LEDGER_HI
   rg 0x4 [(0x8, 1048576)] [fd 31 0 .rw] .both 1 2]

/-- The regions that hold registers under their codes (R22, R499); 0x20 is the partner table, 0x30 the ledger. -/
def blockTable : List (Nat × List RegDesc) := [
  (32, partnerRegs), (13, nzlRegs), (10, outRegs), (9, capRegs), (0, hgwRegs),
  (1, hamRegs), (2, cfgRegs), (3, ccoRegs), (4, bchRegs), (5, lneRegs),
  (6, plkRegs), (7, timRegs), (8, ergRegs), (11, seiRegs), (12, cmpRegs),
  (14, memRegs), (15, jrnRegs), (16, movRegs), (17, perRegs), (18, evtRegs),
  (19, cvuRegs), (48, ledgerRegs)]

/-- The registers of the region with a code. -/
def blockRegs (code : Nat) : List RegDesc := mget [] code blockTable

end Sys2Proof.Machine
end

