-- ==== Sys2Proof/Machine/Regs.lean ====
section
/-!
DEFINITION. Register words: where an offset lies in the register table, a word's reset value, reading the word in force
and changing it.
-/
namespace Sys2Proof.Machine

/-- A distance from a register's first offset falls on one of its instances, under its strides and counts. -/
def instAt : List (Nat × Nat) → Nat → Bool
  | [], d => d == 0
  | (stride, count) :: r, d => bif Nat.ble count (d / stride) then false else instAt r (d % stride)

/-- The first register of a table that has an instance at a block-relative offset. -/
def findReg (rel : Nat) : List RegDesc → Option RegDesc
  | [] => none
  | r :: rs =>
    bif Nat.ble r.off rel then (bif instAt r.dims (rel - r.off) then some r else findReg rel rs) else findReg rel rs

/-- The region code of a BAR0 offset (R499): a block's code, 0x20 for the partner table, 0x30 for the ledger; 0xFF where
no region lies. -/
def regionOf (off : Nat) : Nat :=
  let c := off / 0x100000
  if c < 0x14 then c else if c = 0x20 then 0x20 else if 0x30 ≤ c ∧ c < 0x38 then 0x30 else 0xFF

/-- The block whose events and power a region belongs to: the partner table is PLK's, the ledger NZL's (R500). -/
def blockOf (off : Nat) : Nat :=
  match regionOf off with
  | 0x20 => 0x06
  | 0x30 => 0x0D
  | c => c

/-- The register at a BAR0 offset, if one is implemented there (R16). -/
def descAt (off : Nat) : Option RegDesc :=
  findReg (off - regionOf off * 0x100000) (blockRegs (regionOf off))

/-- LOW and HIGH limits of monitor channel `k` at reset (R432). [DESIGN CHOICE, log 2] -/
def monReset (k : Nat) : Nat × Nat :=
  nthD (384, 2704) k [(600, 900), (522, 578), (760, 840), (808, 893), (1140, 1260), (1045, 1155), (1710, 1890),
    (3135, 3465), (760, 840), (2000, 3600), (0, 4095), (0, 4095)]

/-- The reset word that the fields of a register give. -/
def resetOf (fs : List Field) : Nat := sumOf (fun f => f.reset * 2 ^ f.lo) fs

/-- The reset word of the register at an offset; 0 where none is implemented. HAM_MON_THR takes R432's table.
[DESIGN CHOICE, log 2] -/
def resetWord (off : Nat) : Word :=
  if Reg.HAM_MON_THR 0 ≤ off ∧ off < Reg.HAM_MON_THR 16 ∧ off % 8 = 0 then
    let m := monReset ((off - Reg.HAM_MON_THR 0) / 8)
    word (m.2 * 2 ^ 16 + m.1)
  else
    match descAt off with
    | some d => word (resetOf d.fields)
    | none => 0#32

/-- The word a register holds. -/
def regGet (s : State) (off : Nat) : Word := mget (resetWord off) off s.regs

/-- Field [hi:lo] of a register. -/
def regFld (s : State) (off hi lo : Nat) : Nat := fld (regGet s off) hi lo

/-- Bit `b` of a register. -/
def regBit (s : State) (off b : Nat) : Bool := bit (regGet s off) b

/-- A 64-bit quantity held in two register words. -/
def regWide (s : State) (lo hi : Nat) : Nat := (regGet s lo).toNat + (regGet s hi).toNat * 2 ^ 32

/-- A register takes a word. -/
def setReg (off : Nat) (w : Word) : Eff := act (.reg off w)

/-- A field of a register takes a value. -/
def putFld (off hi lo v : Nat) : Eff := rd fun s => setReg off (setFld (regGet s off) hi lo v)

/-- A bit of a register takes a value. -/
def putBit (off b : Nat) (v : Bool) : Eff := putFld off b b (b2n v)

/-- A counter register that wraps advances by `n`. -/
def countUp (off n : Nat) : Eff := rd fun s => setReg off (word ((regGet s off).toNat + n))

/-- A counter register that stops at 0xFFFF_FFFF advances by `n` (R6's ro counters). -/
def countSat (off n : Nat) : Eff := rd fun s => setReg off (word (satAdd32 (regGet s off).toNat n))

/-- A 64-bit counter held in two words advances by `n`. -/
def countWide (lo hi n : Nat) : Eff := rd fun s =>
  let v := regWide s lo hi + n
  chain [setReg lo (word v), setReg hi (word (v / 2 ^ 32))]

/-- One byte of device memory; a byte never written reads 0. [DESIGN CHOICE, log 6] -/
def memByte (s : State) (a : Nat) : Byte := mget 0#8 a s.mem

/-- `n` bytes of device memory from an address. -/
def memBytes (s : State) (a n : Nat) : List Byte := (upFrom a n).map (memByte s)

/-- The little-endian number in `n` bytes of device memory. -/
def memNat (s : State) (a n : Nat) : Nat := leVal (memBytes s a n)

/-- The acts that put bytes into device memory from an address up. -/
def memActs : Nat → List Byte → List Act
  | _, [] => []
  | a, b :: bs => .mem a b :: memActs (a + 1) bs

/-- Bytes are written to device memory. -/
def memWrite (a : Nat) (bs : List Byte) : Eff := fun _ => memActs a bs

/-- One byte of host memory as the device reads it. [DESIGN CHOICE, log 7] -/
def hostByte (s : State) (a : Nat) : Byte := mget 0#8 a s.hostMem

/-- `n` bytes of host memory from an address. -/
def hostBytes (s : State) (a n : Nat) : List Byte := (upFrom a n).map (hostByte s)

/-- The acts that put bytes into host memory from an address up. [DESIGN CHOICE, log 7] -/
def hostActs : Nat → List Byte → List Act
  | _, [] => []
  | a, b :: bs => .host a b :: hostActs (a + 1) bs

end Sys2Proof.Machine
end

