-- ==== Sys2Proof/Machine/Events.lean ====
section
/-!
DEFINITION. Device time as a function of the raw counter (R126), the requests the gateway sends upstream, MSI-X messages,
and the path of an event record: suppression, latching, queueing, merging, overflow and routing (R23, R24, R486 to R496).
-/
namespace Sys2Proof.Machine

/-! ## Device time -/

/-- The ticks after RAW_BASE for which the running slew lasts: until its error is removed (R137). -/
def slewTicks (t : Tim) : Nat :=
  let per := 2 ^ 33 * t.slew.natAbs
  (t.slewDue.natAbs * 10 ^ 6 + per - 1) / per

/-- The ticks of the running slew that have passed at a raw count. -/
def slewRun (t : Tim) (raw : Nat) : Nat := if t.slew = 0 then 0 else min (raw - t.rawBase) (slewTicks t)

/-- Device time in units of 2^-32 ns at a raw count: T_BASE + (RAW - RAW_BASE) x 2 ns x (1 + RATE + SLEW), rounded down,
with SLEW for as long as its error lasts (R126, R127, R137). -/
def timeAt (t : Tim) (raw : Nat) : Int :=
  t.base + ((((raw - t.rawBase) * 2 ^ 33 : Nat) : Int) * (2 ^ 44 * 10 ^ 6 + t.rate * 10 ^ 6)
    + ((slewRun t raw * 2 ^ 33 : Nat) : Int) * (t.slew * 2 ^ 44)) / (2 ^ 44 * 10 ^ 6)

/-- Device time now, in units of 2^-32 ns. -/
def timeNow (s : State) : Int := timeAt s.tim s.raw

/-- A device time as TIME_NS fields carry it: whole ns, 64 bits (R127). -/
def nsOf (t : Int) : Nat := wrapTo 64 (sar t 32)

/-- Device time now as a TIME_NS field. -/
def timeNs (s : State) : Nat := nsOf (timeNow s)

/-! ## Upstream requests and MSI-X -/

/-- The gateway may issue an upstream request (R348 to R353, R519). -/
def canIssue (s : State) : Bool := s.gw.up && s.gw.bme && !s.gw.d3 && !s.gw.flr && !s.mainReset

/-- A host range cut at multiples of a size. -/
def cutHost (size : Nat) : Nat → Nat → Nat → List (Nat × Nat)
  | 0, _, _ => []
  | fuel + 1, a, n =>
    if n = 0 then []
    else
      let k := min n (size - a % size)
      (a, k) :: cutHost size fuel (a + k) (n - k)

/-- A write is issued, in requests of at most MPS bytes (R344). -/
def issueWrite (a : Nat) (bs : List Byte) : Eff := rd fun s => chain [
  each (cutHost (max 1 s.gw.mps) (bs.length + 1) a bs.length) fun e =>
    emit (.hostWrite e.1 ((bs.drop (e.1 - a)).take e.2)),
  fun _ => hostActs a bs]

/-- A posted write to host memory: issued, or held in the gateway (R344, R350). -/
def hostWrite (a : Nat) (bs : List Byte) : Eff := rd fun s =>
  if canIssue s then issueWrite a bs
  else modGw fun g => { g with waiting := g.waiting ++ [(a, bs)] }

/-- Messages of vector `v` are held back: masked, disabled, or the link cannot carry them (R346, R353). -/
def msixHeld (s : State) (v : Nat) : Bool :=
  !s.gw.msixEn || s.gw.fmask || !s.gw.unmasked.testBit v || !canIssue s

/-- Vector `v` is triggered: one message, or its PBA bit; in D3hot also PM_PME (R345, R346, R353). -/
def msix (v : Nat) : Eff := rd fun s =>
  if msixHeld s v then
    chain [modGw fun g => { g with pba := g.pba ||| 2 ^ v },
      when (s.gw.d3 && s.gw.pmeEn) (chain [emit .pme, modGw fun g => { g with pmeStatus := true }])]
  else emit (.msix v (mget 0 v s.gw.msixAddr) (mget 0#32 v s.gw.msixData))

/-! ## Event records -/

/-- NOTICE, DEGRADED, FAULT and HALT (R486). -/
def notice : Nat := 1
def degraded : Nat := 2
def faultSev : Nat := 3
def haltSev : Nat := 4

/-- The EVT_MASK register of a block (R486). -/
def maskReg (blk : Nat) : Nat :=
  match blk with
  | 0x05 => Reg.LNE_EVT_MASK
  | 0x06 => Reg.PLK_EVT_MASK
  | 0x07 => Reg.TIM_EVT_MASK
  | 0x08 => Reg.ERG_EVT_MASK
  | 0x09 => Reg.CAP_EVT_MASK
  | 0x0A => Reg.OUT_EVT_MASK
  | 0x0B => Reg.SEI_EVT_MASK
  | 0x0C => Reg.CMP_EVT_MASK
  | b => b * 0x100000 + 8

/-- A NOTICE that its block's mask suppresses: bit k masks event 0x10 + k (R486). -/
def isMasked (s : State) (code sev : Nat) : Bool :=
  sev == notice && decide (0x10 ≤ code % 0x100 ∧ code % 0x100 < 0x20)
    && (regGet s (maskReg (code / 0x100))).toNat.testBit (code % 0x100 - 0x10)

/-- EVT is powered: from WATCH upwards (R419, R421). -/
def evtPowered (s : State) : Bool :=
  match s.ham.st with
  | .watch | .run | .full => true
  | _ => false

/-- The 32 bytes of a record (R23). -/
def recBytes (r : EventRec) : List Byte :=
  leBytes 8 r.time ++ leBytes 2 r.code ++ leBytes 2 r.source ++ leBytes 2 (r.sev + 16 * r.rep) ++ leBytes 2 0
    ++ leBytes 8 r.arg0 ++ leBytes 8 r.arg1

/-- Two events may share a record: CODE, SOURCE and SEVERITY agree (R24). -/
def sameKind (r q : EventRec) : Bool := r.code == q.code && r.source == q.source && r.sev == q.sev

/-- The place of the last record of a kind. -/
def lastKind (r : EventRec) : List EventRec → Option Nat
  | [] => none
  | q :: qs =>
    match lastKind r qs with
    | some n => some (n + 1)
    | none => if sameKind r q then some 0 else none

/-- The place of the record an event merges into: the newest of its kind, with equal arguments unless the event merges
whatever its arguments, and with REPEAT below 4,095 (R24, R488). [DEDUCED, log 21] -/
def mergeAt (anyArgs : Bool) (r : EventRec) (qs : List EventRec) : Option Nat :=
  match lastKind r qs with
  | some n =>
    let q := nthD r n qs
    if (anyArgs || (q.arg0 == r.arg0 && q.arg1 == r.arg1)) && decide (q.rep < 4095) then some n else none
  | none => none

/-- One more repeat in the record at a place. [DEDUCED, log 21] -/
def repeatAt (n : Nat) (qs : List EventRec) : List EventRec :=
  match qs.drop n with
  | q :: _ => setNth { q with rep := q.rep + 1 } n qs
  | [] => qs

/-- The ring's device address and size in records; size 0 until an image has placed it (R487). -/
def ringBase (s : State) : Nat := regWide s Reg.EVT_Q_BASE_LO Reg.EVT_Q_BASE_HI
def ringSize (s : State) : Nat := (regGet s Reg.EVT_Q_SIZE).toNat

/-- The records queued or held. -/
def records (s : State) : List EventRec := if s.evt.placed then s.evt.ring else s.evt.held

/-- Replace the records queued or held. -/
def setRecords (rs : List EventRec) : Eff := modEvt fun e =>
  if e.placed then { e with ring := rs } else { e with held := rs }

/-- Slots still free; one slot of the ring always stays empty (R487). -/
def freeSlots (s : State) : Nat := (if s.evt.placed then ringSize s - 1 else 64) - (records s).length

/-- The record at place `n` is written to its slot of the ring in memory, when the ring is placed. -/
def storeRec (n : Nat) : Eff := rd fun s =>
  when (s.evt.placed && ringSize s != 0)
    (memWrite (ringBase s + 32 * ((s.evt.head + n) % ringSize s)) (recBytes (nthD ⟨0, 0, 0, 0, 0, 0, 0⟩ n s.evt.ring)))

/-- A record takes the next slot, and TAIL advances (R487). [DEDUCED, log 21] -/
def appendRec (r : EventRec) : Eff := rd fun s => chain [
  setRecords (records s ++ [r]),
  storeRec (records s).length,
  when s.evt.placed (modEvt fun e => { e with tail := (e.tail + 1) % ringSize s })]

/-- A routing entry matches an event (R493). -/
def routeHit (s : State) (blk sev k : Nat) : Bool :=
  let w := regGet s (Reg.EVT_ROUTE k)
  bit w 31 && (fld w 27 20 == 0xFF || fld w 27 20 == blk) && decide (fld w 30 28 ≤ sev)

/-- The vectors of the matching entries, each once (R493). -/
def routeVecs (s : State) : List Nat → List Nat
  | [] => []
  | k :: ks =>
    let w := regGet s (Reg.EVT_ROUTE k)
    let r := routeVecs s ks
    if bit w 14 && !r.contains (fld w 5 0) then fld w 5 0 :: r else r

/-- An event is matched against the routing table (R493). -/
def routeEvent (blk sev : Nat) : Eff := rd fun s =>
  let ks := (upto 32).filter (routeHit s blk sev)
  chain [
    modEvt fun e => { e with
      corePend := ks.foldl (fun c k => c ||| regFld s (Reg.EVT_ROUTE k) 19 16) e.corePend
      int := e.int || ks.any fun k => regBit s (Reg.EVT_ROUTE k) 15 },
    each (routeVecs s ks) msix]

/-- An event is lost: QUEUE_OVERFLOW takes the last free slot, or counts on (R490). [DEDUCED, log 21] -/
def loseEvent (sev : Nat) : Eff := rd fun s =>
  chain [
    modEvt fun e => { e with lost := satAdd32 e.lost 1, lostNow := e.lostNow + 1 },
    if s.evt.overflow then rd fun s' =>
      let n := (records s').length - 1
      let r := nthD ⟨timeNs s', 0x1210, 0xFFFF, degraded, 0, 0, 0⟩ n (records s')
      chain [setRecords (setNth { r with arg0 := r.arg0 + 1, arg1 := r.arg1 ||| 2 ^ sev } n (records s')), storeRec n]
    else chain [
      modEvt fun e => { e with overflow := true },
      appendRec ⟨timeNs s, 0x1210, 0xFFFF, degraded, 0, 1, 2 ^ sev⟩,
      routeEvent 0x12 degraded]]

/-- A record enters the queue: merged, appended or lost (R24, R487, R490). Held records take merges only when no slot
is free (R487). [DEDUCED, log 21] -/
def queueRec (anyArgs : Bool) (r : EventRec) : Eff := rd fun s =>
  let room := !s.evt.overflow && decide (1 < freeSlots s)
  match (if s.evt.placed || !room then mergeAt anyArgs r (records s) else none) with
  | some n => chain [setRecords (repeatAt n (records s)), storeRec n]
  | none => if room then appendRec r else loseEvent r.sev

/-- One strobe output, and changing one. -/
def stbOf (s : State) (k : Nat) : Stb := mget {} k s.per.strobes
def modStb (k : Nat) (f : Stb → Stb) : Eff :=
  modPer fun p => { p with strobes := mput k (f (mget {} k p.strobes)) p.strobes }

/-- A strobe output becomes inactive; the pulses cut count as missed (R481, R482, R492). -/
def stbCut (k : Nat) : Eff := rd fun s =>
  let x := stbOf s k
  when (!x.active.isEmpty || x.phase) (chain [
    countSat (Reg.STB_MISSED k) x.active.length,
    modStb k fun y => { y with active := [], phase := false, measured := false },
    emit (.strobe k false)])

/-- A FAULT or HALT sets its block's summary bits, whatever happens to its record (R491, R492). -/
def latchEvent (blk sev : Nat) : Eff := rd fun s =>
  if sev == haltSev then chain [
    when (s.evtHalt == 0) (modEvt fun e => { e with haltFrom := s.raw }),
    when (regBit s Reg.EVT_CTRL 9) (each (upto 8) stbCut),
    act (.halt blk)]
  else when (sev == faultSev) (act (.fault blk))

/-- A record reaches EVT: latched, queued and routed. -/
def deliver (anyArgs : Bool) (r : EventRec) : Eff := chain [
  latchEvent (r.code / 0x100) r.sev,
  queueRec anyArgs r,
  routeEvent (r.code / 0x100) r.sev]

/-- A record waits in Hamada while EVT is unpowered: 16 deep, then merged or lost (R421). [DEDUCED, log 22] -/
def holdRest (anyArgs : Bool) (r : EventRec) : Eff := modEvt fun e =>
  if e.restHeld.length < 16 then { e with restHeld := e.restHeld ++ [r] }
  else match mergeAt anyArgs r e.restHeld with
    | some n => { e with restHeld := repeatAt n e.restHeld }
    | none => { e with restLost := satAdd32 e.restLost 1 }

/-- An event is raised: suppressed, delivered, or held by Hamada (R23, R421, R486). -/
def raiseWith (anyArgs : Bool) (code src sev a0 a1 : Nat) : Eff := rd fun s =>
  if isMasked s code sev then modEvt fun e => { e with suppressed := satAdd32 e.suppressed 1 }
  else
    let r : EventRec := ⟨timeNs s, code, src % 2 ^ 16, sev, 0, a0 % 2 ^ 64, a1 % 2 ^ 64⟩
    if evtPowered s then deliver anyArgs r else holdRest anyArgs r

/-- An event is raised (R24's first form of merging). -/
def raise (code src sev a0 a1 : Nat) : Eff := raiseWith false code src sev a0 a1

/-- An event that "merges under R24", whatever its arguments. -/
def raiseMerge (code src sev a0 a1 : Nat) : Eff := raiseWith true code src sev a0 a1

/-- The repeat count of the newest record of a kind goes up, in the queue or, while EVT is unpowered, among the records that
Hamada holds; nothing happens where none is left (R18, R421). -/
def raiseRepeat (code src sev : Nat) : Eff := rd fun s =>
  let r : EventRec := ⟨0, code, src, sev, 0, 0, 0⟩
  if evtPowered s then match mergeAt true r (records s) with
    | some n => chain [setRecords (repeatAt n (records s)), storeRec n]
    | none => skip
  else modEvt fun e => match mergeAt true r e.restHeld with
    | some n => { e with restHeld := repeatAt n e.restHeld }
    | none => e

/-- A loop's clamp of a result, with both values as R518 gives them (R21). -/
def policyClamp (blk src : Nat) (before after : Int) : Eff :=
  when (before != after) (raiseMerge (blk * 0x100 + 0x04) src notice (arg64 before) (arg64 after))

/-- The halt action holds the trigger generators, or makes the strobes inactive (R492). -/
def haltTriggers (s : State) : Bool := s.evtHalt != 0 && regBit s Reg.EVT_CTRL 8
def haltStrobes (s : State) : Bool := s.evtHalt != 0 && regBit s Reg.EVT_CTRL 9

/-- The window in force is the one of the raw counter: counts of an earlier one are gone (R496). [DEDUCED, log 23] -/
def rollWindow : Eff := rd fun s => when (s.raw / 2 ^ 29 != s.evt.windowNo)
  (modEvt fun e => { e with window := [0, 0, 0, 0, 0], burst := [], windowNo := s.raw / 2 ^ 29 })

/-- A deadline miss of class `c` is counted by EVT, and DEADLINE_BURST is raised once in a window in which the count
reaches its LIMIT (R495, R496). -/
def deadlineMiss (c : Nat) : Eff := chain [
  rollWindow,
  countSat (Reg.EVT_DL_MISS c) 1,
  modEvt fun e => { e with window := setNth (nthD 0 c e.window + 1) c e.window },
  rd fun s =>
    let n := nthD 0 c s.evt.window
    let lim := regFld s (Reg.EVT_DL_BURST c) 15 0
    when (lim != 0 && decide (lim ≤ n) && !s.evt.burst.contains c) (chain [
      modEvt fun e => { e with burst := c :: e.burst },
      raise 0x1213 c faultSev n lim])]

/-- INT_N is asserted (R494): by EVT, or by Hamada while EVT is unpowered and a held record is FAULT or HALT (R421). -/
def intAsserted (s : State) : Bool :=
  if evtPowered s then s.evtFault != 0 || s.evt.int else s.evt.restHeld.any fun r => decide (faultSev ≤ r.sev)

end Sys2Proof.Machine
end

