-- ==== Sys2Proof/Machine/Access.lean ====
section
/-!
DEFINITION. The common register rules: how an access reaches a block (R5, R16, R339, R347, R421, R500, R519), how a write
takes effect field by field (R6, R9 to R15, R18), and how a read latches a wide quantity (R8).
-/
namespace Sys2Proof.Machine

/-! ## Units, levels and locks -/

/-- The SOURCE number of the unit a register belongs to, as its block's event table numbers it (R518); 0xFFFF for the
block as a whole. -/
def unitSource (s : State) (off : Nat) : Nat :=
  let rel := off % 0x100000
  match regionOf off with
  | 0x01 => if 0x100 ≤ rel ∧ rel < 0x180 then (rel - 0x100) / 8
      else if 0x200 ≤ rel ∧ rel < 0x240 then (rel - 0x200) / 0x20 else 0xFFFF
  | 0x03 => if 0x1000 ≤ rel then (rel - 0x1000) / 0x100 else 0xFFFF
  | 0x05 => if 0x2000 ≤ rel then
      let n := (rel - 0x2000) / 0x40
      if regFld s (Reg.LNE_LN_CTRL (n - n % 4)) 11 10 = 2 then n - n % 4
      else if regFld s (Reg.LNE_LN_CTRL (n - n % 2)) 11 10 = 1 then n - n % 2 else n
    else 0xFFFF
  | 0x07 => if 0x3000 ≤ rel then (rel - 0x3000) / 0x20 else if 0x1000 ≤ rel then (rel - 0x1000) / 0x20 else 0xFFFF
  | 0x09 => if rel < 0x40000 then rel / 0x400 else 0xFFFF
  | 0x0A => if rel < 0x40000 then rel / 0x100 else 0xFFFF
  | 0x0B => if rel < 0x20000 then
      (if 0x1000 ≤ rel % 0x2000 then 64 * (rel / 0x2000) + (rel % 0x2000 - 0x1000) / 0x40 else 0x1000 + rel / 0x2000)
    else if 0x40400 ≤ rel then 0x3000 + (rel - 0x40400) / 0x20
    else if 0x40100 ≤ rel then 0x2000 + (rel - 0x40100) / 0x20 else 0xFFFF
  | 0x0C => if rel < 0x10000 then
      (if 0x800 ≤ rel % 0x1000 then 16 * (rel / 0x1000) + (rel % 0x1000 - 0x800) / 0x40 else rel / 0x1000)
    else if rel < 0x40000 then 0x100 + (rel - 0x20000) / 0x100 else 0xFFFF
  | 0x0D => if 0x10000 ≤ rel then (rel - 0x10000) / 0x20
      else if 0x1000 ≤ rel then 0x1000 + (rel - 0x1000) / 0x100 else 0xFFFF
  | 0x0E => if 0x40000 ≤ rel then 0xFFFF else if 0x2000 ≤ rel then (rel - 0x2000) / 0x40
      else if 0x1000 ≤ rel then (rel - 0x1000) / 0x20 else 0xFFFF
  | 0x0F => if 0x1000 ≤ rel then (rel - 0x1000) / 0x20 else 0xFFFF
  | 0x10 => if 0x1000 ≤ rel then (rel - 0x1000) / 0x40 else 0xFFFF
  | 0x11 => if 0x3200 ≤ rel then (rel - 0x3200) / 0x20 else if 0x3100 ≤ rel then (rel - 0x3100) / 0x20
      else if 0x3000 ≤ rel then 0xFFFF
      else if 0x2000 ≤ rel then
        (if 0x100 ≤ rel % 0x800 ∧ rel % 0x800 < 0x200 then 4 * ((rel - 0x2000) / 0x800) + (rel % 0x800 - 0x100) / 0x40
          else (rel - 0x2000) / 0x800)
      else if 0x1000 ≤ rel then (rel - 0x1000) / 0x100 else 0xFFFF
  | 0x13 => if 0x100 ≤ rel then (rel - 0x100) / 0x40 else 0xFFFF
  | 0x20 => rel / 0x100
  | _ => 0xFFFF

/-- The control register whose LEVEL bit governs a register: its block's, or its pipeline's, tap's, bar's, side's or
bus's (R17, R185, R204, R230, R262, R280, R471). [DEDUCED, log 17] -/
def levelUnit (off : Nat) : Nat :=
  let rel := off % 0x100000
  match regionOf off with
  | 0x09 => Reg.CAP_CTRL (rel / 0x400)
  | 0x0A => Reg.OUT_TAP_CTRL (rel / 0x100)
  | 0x0B => Reg.SEI_BAR_CTRL (rel / 0x2000)
  | 0x0C => Reg.CMP_BAR_CTRL (rel / 0x1000)
  | 0x0D => Reg.NZL_SD_CTRL ((rel - 0x1000) / 0x100)
  | 0x11 => Reg.TWB_CTRL ((rel - 0x1000) / 0x100)
  | c => c * 0x100000

/-- The level in force at a register's unit is expert (LEVEL_NOW, R17). -/
def atExpert (s : State) (unit : Nat) : Bool := s.acc.expert.contains unit

/-- The register that holds the LOCK bit over a register's lk fields (R10). [DEDUCED, log 18] -/
def lockReg (off : Nat) : Nat :=
  match regionOf off with
  | 0x09 => Reg.CAP_GCTRL
  | 0x0A => Reg.OUT_GCTRL
  | 0x0B => Reg.SEI_GCTRL
  | 0x0C => Reg.CMP_GCTRL
  | 0x20 => Reg.PLK_CTRL
  | 0x30 => Reg.NZL_CTRL
  | c => c * 0x100000

/-- LOCK is set over a register. -/
def isLocked (s : State) (off : Nat) : Bool := regBit s (lockReg off) 31

/-- LEVEL_NOW of a unit follows its LEVEL bit; entering the basic level arms EXPERT_IGNORED again (R18, R20).
[DEDUCED, log 16] -/
def levelBoundary (unit : Nat) : Eff := rd fun s =>
  if regBit s unit 0 then
    when (!atExpert s unit) (modAcc fun a => { a with expert := unit :: a.expert })
  else when (atExpert s unit) (modAcc fun a =>
    { a with expert := a.expert.filter (· != unit), ignored := mdel unit a.ignored })

/-- Blocks without a level boundary: LEVEL_NOW follows each write of LEVEL at once (R20). [DEDUCED, log 16] -/
def noBoundary (unit : Nat) : Bool :=
  unit == Reg.HAM_CTRL || unit == Reg.CFG_CTRL || unit == Reg.CCO_CTRL || unit == Reg.EVT_CTRL || unit == Reg.CVU_CTRL

/-! ## Writing a register -/

/-- The clamp event of a block: RANGE_CLAMP, or RATE_CLAMP in TIM (R45, R131). -/
def clampCode (blk : Nat) : Nat :=
  match blk with
  | 0x04 => 0x041F
  | 0x07 => 0x0717
  | 0x08 => 0x0812
  | 0x09 => 0x091E
  | 0x0B => 0x0B18
  | 0x0C => 0x0C1A
  | _ => 0x0D16

/-- The value a field takes from a written one (the limits of its table row), and whether it was clamped. -/
def limited (lim : Lim) (old new : Nat) : Nat × Bool :=
  match lim with
  | .any => (new, false)
  | .range lo hi => (if lo ≤ new ∧ new ≤ hi then new else old, false)
  | .oneOf vs => (if vs.contains new then new else old, false)
  | .not v => (if new = v then old else new, false)
  | .clamp lo hi => if new < lo then (lo, true) else if hi < new then (hi, true) else (new, false)

/-- What a write makes of a word: the new word, whether a kept field would have changed (R10), whether a value was
clamped, and the lowest bit of the first field whose zero is invalid (R13). -/
structure Written where
  word : Word
  kept : Bool
  clamped : Bool
  zero : Option Nat
  deriving DecidableEq, Repr

/-- A write of `v` to one field of a word (R6, R10, R13). [DEDUCED, log 14] -/
def writeField (locked once free : Bool) (v : Word) (f : Field) (a : Written) : Written :=
  let old := fld a.word f.hi f.lo
  let new := fld v f.hi f.lo
  let take := fun (_ : Unit) =>
    let l := limited f.lim old new
    { a with
      word := setFld a.word f.hi f.lo l.1
      clamped := a.clamped || l.2
      zero := if f.zeroBad && new == 0 && !free then (a.zero.orElse fun _ => some f.lo) else a.zero }
  match f.acc with
  | .ro => a
  | .wo => a
  | .rw => take ()
  | .lk => if locked then { a with kept := a.kept || new != old } else take ()
  | .once => if once then { a with kept := a.kept || new != old } else take ()
  | .w1c => { a with word := setFld a.word f.hi f.lo (clearMask old new) }
  | .w1s => { a with word := setFld a.word f.hi f.lo (old ||| new) }

/-- A write of `v` over the word `old` of a register, field by field from high to low.
[DEDUCED, log 14] [DESIGN CHOICE, log 15] -/
def writeFields (locked once free : Bool) (v : Word) : List Field → Written → Written
  | [], a => a
  | f :: fs, a => writeFields locked once free v fs (writeField locked once free v f a)

/-- What a write of `v` makes of a register: LOCK and once hold no write of the configuration engine (R10). -/
def writeOf (s : State) (ini : Ini) (off : Nat) (d : RegDesc) (v : Word) : Written :=
  let free := ini == .cfg
  writeFields (isLocked s off && !free) (s.acc.once.contains off && !free) free v d.fields
    ⟨regGet s off, false, false, none⟩

/-- The effect of a write on the fields of a register of the table, then what follows it: `k` gets the word before and
the word after. An invalid zero ends the write (R13); a write that would change a kept field raises LOCK_VIOLATION and
takes effect in the other fields (R10). [DESIGN CHOICE, log 15] -/
def commit (ini : Ini) (off : Nat) (d : RegDesc) (v : Word) (k : Word → Word → Eff) : Eff := rd fun s =>
  let old := regGet s off
  let w := writeOf s ini off d v
  let blk := blockOf off
  match w.zero with
  | some lo => raise (blk * 0x100 + 0x02) (unitSource s off) notice off lo
  | none => chain [
      setReg off w.word,
      when (d.fields.any fun f => f.acc == .once) (modAcc fun a =>
        { a with once := if a.once.contains off then a.once else off :: a.once }),
      when w.kept (raise (blk * 0x100 + 0x01) (unitSource s off) notice off v.toNat),
      when w.clamped (raise (clampCode blk) (unitSource s off) notice off v.toNat),
      k old w.word]

/-- Software can write some field of a register. -/
def writable (d : RegDesc) : Bool := d.fields.any fun f => f.acc != .ro

/-- The key of an initiator's latch of a register. -/
def latchKey (ini : Ini) (off : Nat) : Nat := 8 * off + iniCode ini

/-- The lower words an initiator has written since its last write of the highest word are applied, lowest first, and
are no longer held (R9). -/
def applyHeld (ini : Ini) (offs : List Nat) : Eff := each offs fun o => rd fun s =>
  match mget? (latchKey ini o) s.acc.held, descAt o with
  | some v, some d => chain [
      modAcc fun a => { a with held := mdel (latchKey ini o) a.held },
      commit ini o d v fun _ _ => skip]
  | _, _ => skip

/-- A write to an expert register at the basic level: the first since entering the level raises EXPERT_IGNORED, later
ones count in its record (R18). [DEDUCED, log 17] -/
def expertIgnored (off : Nat) (v : Word) : Eff := rd fun s =>
  let u := levelUnit off
  match mget? u s.acc.ignored with
  | some src => raiseRepeat (blockOf off * 0x100 + 0x03) src notice
  | none => chain [
      modAcc fun a => { a with ignored := mput u (unitSource s off) a.ignored },
      raise (blockOf off * 0x100 + 0x03) (unitSource s off) notice off v.toNat]

/-- Expert registers whose reset value is the image's: the configuration engine writes them at either level (R230, R288).
[DEDUCED, log 17] -/
def imageExpert (off : Nat) : Bool :=
  decide (Reg.SEI_CAM_OX 0 0 0 ≤ off ∧ off < Reg.SEI_BAR_CTRL 16 ∧ 0x1000 ≤ off % 0x2000)
    || decide (Reg.NZL_SD_DNOM 0 0 ≤ off ∧ off < Reg.NZL_SD_CTRL 2 ∧ 0x8C ≤ off % 0x100)

/-- The effect of a 32-bit write on a register: nothing where none is implemented, the level rule of R18, the holding
of low words and their application with the highest (R9), the fields, and then `k`. -/
def writeReg (ini : Ini) (off : Nat) (v : Word) (k : Word → Word → Eff) : Eff := rd fun s =>
  match descAt off with
  | none => skip
  | some d =>
    if d.lvl == .expert && !atExpert s (levelUnit off) && !(ini == .cfg && imageExpert off) then expertIgnored off v
    else if decide (d.word + 1 < d.words) && writable d then
      modAcc fun a => { a with held := mput (latchKey ini off) v a.held }
    else chain [
      applyHeld ini ((upto d.word).map fun i => off - 4 * (d.word - i)),
      commit ini off d v k]

/-- A write with no effect beyond the register's own fields. -/
def writePlain (ini : Ini) (off : Nat) (v : Word) : Eff := writeReg ini off v fun _ _ => skip

/-- A write of a register with a field that names a band: a band at or above BANDS leaves the field as it is, but where the
configuration engine writes it. [DESIGN CHOICE, log 140] -/
def bandWrite (ini : Ini) (off : Nat) (v : Word) (hi lo : Nat) (bands : State → Nat) : Eff := rd fun s =>
  writePlain ini off (if ini != .cfg && decide (bands s ≤ fld v hi lo) then setFld v hi lo (regFld s off hi lo) else v)

/-- A write of a register with a LEVEL bit: a block without a boundary follows at once (R20). [DEDUCED, log 17] -/
def writeLevel (ini : Ini) (off : Nat) (v : Word) (k : Word → Word → Eff) : Eff := writeReg ini off v fun old new =>
  chain [when (noBoundary off) (levelBoundary off), k old new]

/-! ## Reading a register -/

/-- A read of the low word of a quantity: it completes, and the higher words are latched for the initiator (R8). -/
def readLow (ini : Ini) (off : Nat) (live : Word) (higher : List Word) : Eff := chain [
  modAcc fun a => { a with latch :=
    (higher.zipIdx 1).foldl (fun l p => mput (latchKey ini (off + 4 * p.2)) p.1 l) a.latch },
  emit (.read ini off live)]

/-- The registers in [lo, hi) take their reset values, and nothing is latched or held for them any longer (R8, R9). -/
def resetRegs (lo hi : Nat) : Eff := chain [
  act (.clearRegs lo hi),
  modAcc fun a => { a with latch := cutKeys (8 * lo) (8 * hi) a.latch, held := cutKeys (8 * lo) (8 * hi) a.held }]

/-- A read of a higher word returns the initiator's latch, 0 before its first read of the low word (R8). -/
def readHigh (ini : Ini) (off : Nat) : Eff := rd fun s => emit (.read ini off (mget 0#32 (latchKey ini off) s.acc.latch))

/-- A read whose answer is all ones. -/
def readOnes (ini : Ini) (off : Nat) : Eff := emit (.read ini off allOnes)

/-! ## Reaching a block -/

/-- A host request completes with Unsupported Request: counted, reported to AER, and raised with the TLP's header and
address, which the command does not carry (R347). -/
def unsupportedWith (dw0 addr : Nat) : Eff := chain [
  emit .unsupported,
  countSat Reg.HGW_UR 1,
  modGw fun g => { g with aer := g.aer ||| 2 ^ 20 },
  raise 0x0016 0xFFFF notice dw0 addr]

/-- An unsupported memory request whose header and bus address are free. -/
def unsupportedMem : Eff := withFree 32 fun dw0 => withFree 64 fun addr => unsupportedWith dw0.toNat addr.toNat

/-- The endpoint takes memory requests of the host (R347, R348, R351, R519). -/
def takesRequests (s : State) : Bool := s.gw.up && s.gw.mse && !s.gw.d3 && !s.gw.flr && !s.mainReset

/-- A block is powered in the state in force (R419). -/
def blockPowered (s : State) (blk : Nat) : Bool :=
  match s.ham.st with
  | .off => false
  | .backup => false
  | .rest => blk == 0x00 || blk == 0x01 || blk == 0x03 || blk == 0x07
  | .watch => true
  | .run => true
  | .full => true

/-- The STATE code of a power state in HAM_STATUS (R439); OFF and BACKUP have none. -/
def powerCode : Power → Nat
  | .off => 0
  | .backup => 0
  | .rest => 2
  | .watch => 3
  | .run => 4
  | .full => 5

/-- The event of an access to a block that is not powered (R421). [DESIGN CHOICE, log 53] -/
def blockOff (bar off : Nat) : Eff := rd fun s =>
  raiseMerge 0x011C 0xFFFF notice (bar * 2 ^ 32 + off) (powerCode s.ham.st)

/-- The event of an access to an unimplemented offset (R16). -/
def unmapped (bar off data : Nat) : Eff := chain [
  countSat Reg.HGW_UNMAPPED 1,
  raise 0x0005 bar notice (bar * 2 ^ 32 + off) data]

/-- The event of a request with a byte enable clear (R339). -/
def accessSize (bar off : Nat) (be : BitVec 8) (dws : BitVec 10) : Eff :=
  raise 0x0013 bar notice off (be.toNat + dws.toNat * 2 ^ 16)

/-- A partner's queue holds a window read that has not completed, or a window write that PLK has not accepted (R121,
R342). -/
def winWaits (q : Partner) : Bool :=
  let is := fun (read : Bool) (r : TunReq) => match r.origin with
    | .winRead _ => read
    | .winWrite _ => !read
    | .slot _ => false
  (q.queue ++ q.overflow).any (is true) || q.overflow.any (is false)

/-- The access at the head of the gateway's queue is not yet performed (R342). -/
def gwWaits (s : State) : Bool := s.plk.partners.any fun e => winWaits e.2

/-- A request of the host stands behind others (R342). [DESIGN CHOICE, log 141] -/
def gwBusy (s : State) : Bool := gwWaits s || !s.gw.held.isEmpty

/-- A request of the host joins those that wait. -/
def holdReq (r : HostReq) : Eff := modGw fun g => { g with held := g.held ++ [r] }

/-- A request of the host is performed, or waits behind others, in the order of arrival (R342). -/
def inOrder (r : HostReq) (k : Eff) : Eff := rd fun s => if takesRequests s && gwBusy s then holdReq r else k

/-- A BAR0 access on its way to its block: `k` runs at an implemented register of a powered block; otherwise `ones` is
the answer (R16, R339, R421, R500, R519). [DESIGN CHOICE, log 79] -/
def reach (ini : Ini) (off : Nat) (size : Size) (data : Nat) (ones : Eff) (k : Eff) : Eff := rd fun s =>
  if ini == .host && !takesRequests s then (if s.gw.up then unsupportedMem else skip)
  else if s.mainReset then skip
  else match size with
    | .part be dws => chain [ones, accessSize 0 off be dws]
    | .whole =>
      if regionOf off = 0xFF then chain [ones, unmapped 0 off data]
      else if !blockPowered s (blockOf off) then chain [ones, blockOff 0 off]
      else if (descAt off).isNone && regionOf off != 0x30 then chain [ones, unmapped 0 off data]
      else k

/-- A BAR0 access in the order of its initiator: the host's stand behind its earlier ones (R342). -/
def access (ini : Ini) (off : Nat) (size : Size) (write : Option Word) (ones k : Eff) : Eff :=
  let now := reach ini off size (write.getD 0#32).toNat ones k
  if ini == .host then inOrder (.reg off size write) now else now

/-- A whole 32-bit write that reaches its register. -/
def busWrite (ini : Ini) (off : Nat) (v : Word) (k : Eff) : Eff := access ini off .whole (some v) skip k

/-- A whole 32-bit read that reaches its register. -/
def busRead (ini : Ini) (off : Nat) (k : Eff) : Eff := access ini off .whole none (readOnes ini off) k

end Sys2Proof.Machine
end

