-- ==== Sys2Proof/Machine/PowerOps.lean ====
section
/-!
DEFINITION. The start of a power-state change and the effect of a wake, which several blocks call (R422 to R428).
-/
namespace Sys2Proof.Machine

/-- Hamada runs: main power is present. -/
def hamOn (s : State) : Bool := s.ham.st != .off && s.ham.st != .backup

/-- Rank of a power state, for up and down. -/
def powerRank : Power → Nat
  | .off => 0
  | .backup => 1
  | .rest => 2
  | .watch => 3
  | .run => 4
  | .full => 5

/-- The power state a TARGET code names (R439). -/
def powerOfCode (n : Nat) : Power :=
  match n with
  | 2 => .rest
  | 3 => .watch
  | 5 => .full
  | _ => .run

/-- The next state on the way to a target: REST is reached through WATCH, FULL through RUN (R422). -/
def nextPower (cur target : Power) : Power :=
  match cur, target with
  | .rest, .rest => .rest
  | .rest, _ => .watch
  | .watch, .rest => .rest
  | .watch, .watch => .watch
  | .watch, _ => .run
  | .run, .full => .full
  | .run, .run => .run
  | .run, _ => .watch
  | .full, .full => .full
  | .full, .run => .run
  | .full, _ => .watch
  | c, _ => c

/-- A state change towards `goal` starts; leaving RUN or FULL for WATCH holds the generators (R423). -/
def startMove (goal : Power) (cause : Nat) : Eff := rd fun s => modHam fun h => { h with
  moving := true, goal := goal, cause := cause, since := s.raw, drainFrom := s.raw
  genHold := h.genHold || (decide (powerRank .run ≤ powerRank h.st) && decide (powerRank goal ≤ powerRank .watch)) }

/-- A running change leads downwards. -/
def movingDown (s : State) : Bool := s.ham.moving && decide (powerRank s.ham.goal < powerRank s.ham.st)

/-- STATE of a physical tile that is not good or under test. -/
def setBad (p st : Nat) : Eff := modErg fun e => { e with bad := mput p st e.bad }
def clearBad (p : Nat) : Eff := modErg fun e => { e with bad := mdel p e.bad }

/-- A tile's test ends: STATE 6 goes. -/
def endTest (p : Nat) : Eff := rd fun s => chain [
  when (mget? p s.erg.bad == some 6) (clearBad p),
  modBch fun b => { b with tests := b.tests.map fun t => { t with tiles := t.tiles.filter (· != p) } }]

/-- Runs without tiles left are reported and removed: TEST_DONE with RESULT and the tiles a region run has tested, and the
status of a run that BCH_TEST_CTRL started. [DEDUCED, log 116] -/
def reportTests (p result : Nat) : Eff := rd fun s => chain [
  each (s.bch.tests.filter fun t => t.tiles.isEmpty) fun t => chain [
    raise 0x0415 p notice result (if t.region.isSome then t.done else 0),
    match t.region with
    | some r => modBch fun b => { b with tested := mput r s.raw b.tested }
    | none => skip,
    when t.go (chain [
      modBch fun b => { b with testDone := true, testTile := p, testResult := result },
      putBit Reg.BCH_TEST_CTRL 31 false])],
  modBch fun b => { b with tests := b.tests.filter fun t => !t.tiles.isEmpty }]

/-- A wake or a TARGET write stops a region's test (R448). -/
def stopRegionTests : Eff := rd fun s => each (s.bch.tests.filter fun t => t.region.isSome) fun t =>
  chain [each t.tiles endTest, reportTests (t.tiles.headD 0) 3]

/-- What a wake does in the state in force: REST moves to WATCH, and on to RUN, as WATCH does, when HAM_WAKE_RUN names the
source. [DEDUCED, log 112] -/
def wakeMove (b : Nat) : Eff := rd fun s =>
  when (!s.ham.moving) (match s.ham.st with
    | .rest => chain [
        modHam fun h => { h with target := if regBit s Reg.HAM_WAKE_RUN b then 4 else 3 },
        startMove .watch 2]
    | .watch => when (regBit s Reg.HAM_WAKE_RUN b) (chain [
        modHam fun h => { h with target := 4 },
        startMove .run 2])
    | _ => skip)

/-- A wake source fires (R426, R428): it counts only when enabled and no thermal trip holds, and in
REST, in WATCH or during a downward change (R512). [DEDUCED, log 112] -/
def wake (b : Nat) : Eff := rd fun s =>
  let counts := regBit s Reg.HAM_WAKE_EN b && !s.ham.tripped
    && (s.ham.st == .rest || s.ham.st == .watch || movingDown s)
  when counts (chain [
    setReg Reg.HAM_WAKE_STATUS (setFld (word ((regGet s Reg.HAM_WAKE_STATUS).toNat ||| 2 ^ b)) 31 24 b),
    raise 0x0111 0xFFFF notice b (powerCode s.ham.st),
    when (regBit s Reg.HAM_WAKE_HOST b)
      (if !s.gw.up then emit .wakePin else when (s.gw.d3 && s.gw.pmeEn)
        (chain [emit .pme, modGw fun g => { g with pmeStatus := true }])),
    stopRegionTests,
    if s.ham.moving then modHam fun h => { h with
      wakeLater := if (h.wakeLater.map fun c => regBit s Reg.HAM_WAKE_RUN c).getD false then h.wakeLater else some b }
    else wakeMove b])

/-- The demand action of a safety input applies: a demand not yet released, or a latched fault (R436, R438). -/
def safeApplies (x : Safety) : Bool := x.demand || x.phase != 0

/-- The demand action bits in force: STROBE_OFF, TRIG_HOLD, GPIO_SAFE (R436). -/
def safeActions (s : State) : Nat :=
  (upto 2).foldl (fun a i =>
    if safeApplies (nthD {} i s.ham.safety) then a ||| regFld s (Reg.HAM_SAFE_CTRL i) 2 0 else a) 0

/-- A change of structure runs (R390). -/
def changeRuns (s : State) : Bool := decide (6 ≤ s.cfg.st ∧ s.cfg.st ≤ 9)

/-- The triggers of generator `g` are held (R520): by a safety demand, by the halt action, or by a move to WATCH, which
spares the watch pipelines and begins once no change of structure runs (R423). [DEDUCED, log 112] -/
def triggersHeld (s : State) (g : Nat) : Bool :=
  (safeActions s).testBit 1 || haltTriggers s || (s.ham.genHold && !changeRuns s && !s.erg.watch.contains g) || s.ham.genWait.contains g

end Sys2Proof.Machine
end

