-- ==== Sys2Proof/Machine/ChangeOps.lean ====
section
/-!
DEFINITION. What other blocks do with a live change of structure: abandoning it, and the XFER mark of the owners it
affects (R392, R396); and the pulses that triggers schedule at the strobe outputs (R481).
-/
namespace Sys2Proof.Machine

/-! ## A live change (R390 to R396) -/

/-- STATE of the configuration engine when nothing runs. [DEDUCED, log 84] -/
def cfgRest (s : State) : Nat := if s.erg.valid then 4 else 5

/-- SEQ in the header of the image at CFG_LD_ADDR. -/
def loadSeq (s : State) : Nat := memNat s (regWide s Reg.CFG_LD_ADDR_LO Reg.CFG_LD_ADDR_HI + 8) 4

/-! ## Owners that hardware changes (R297) -/

/-- Owner id of a unit; the evidence reserve is RESERVED 3 always (R291, R293). -/
def ownerOf (s : State) (kind i : Nat) : Nat :=
  if kind = 0 then mget 0 i s.store.blocks
  else if 983040 ≤ i then 0x8003 else mget 0 i s.store.granules

/-- A run of units takes an owner; FREE units are not listed. -/
def ownRun (owner first : Nat) : Nat → List (Nat × Nat) → List (Nat × Nat)
  | 0, l => l
  | n + 1, l => ownRun owner (first + 1) n (if owner = 0 then mdel first l else mput first owner l)

/-- A run of units takes an owner. -/
def setOwners (kind first n owner : Nat) : Eff := modStore fun m =>
  if kind = 0 then { m with blocks := ownRun owner first n m.blocks }
  else { m with granules := ownRun owner first n m.granules }

/-- The configuration engine frees a run of units of a removed owner or of an abandoned change, through checks 3 and
4 of R296: the guards of that owner's block went with it (R297). [DEDUCED, log 142] -/
def hardFree (r : Nat × Nat × Nat × Nat) : Eff := rd fun s =>
  let (kind, first, n, owner) := r
  match firstWhere (fun i => ownerOf s kind i != owner) (upFrom first n) with
  | some i => raise (if ownerOf s kind i = 0 then 0x0E11 else 0x0E10) 0xFFFF notice (kind * 2 ^ 63 + i)
      (2 ^ 32 + ownerOf s kind i)
  | none => setOwners kind first n 0

/-- A change in PREPARING, PREPARED or ARMED with no owner cut ends: shadow instances go, added partitions are freed, held
writes are discarded (R396). -/
def abortChange (reason : Nat) : Eff := rd fun s =>
  let c := s.cfg.change
  let cut := (c.map fun x => x.done).getD 0
  when (decide (6 ≤ s.cfg.st ∧ s.cfg.st ≤ 8) && cut == 0) (chain [
    modErg fun e => { e with insts := e.insts.filter fun x => !x.2.shadow },
    modStore fun m => { m with image := none },
    each ((c.map fun x => x.units).getD []) hardFree,
    modCfg fun g => { g with st := cfgRest s, change := none, armHeld := false },
    modHam fun h => { h with drainFrom := s.raw },
    putBit Reg.CFG_CTRL 3 false,
    putBit Reg.CFG_CTRL 5 false,
    raise 0x021A 0xFFFF notice ((c.map fun x => x.seq).getD (loadSeq s)) reason])

/-- The boot starts with main reset's release, and with RUN when no structure is loaded (R386, R422): the flash is read, or
the engine waits for a load. -/
def bootStart : Eff := rd fun s =>
  if s.cfg.bootSel % 2 = 0 then modCfg fun c => { c with st := 1, loading := true, hostLoad := false }
  else chain [
    modCfg fun c => { c with st := 5 },
    raise 0x0213 0xFFFF notice s.cfg.bootSel 0]

/-- The rank of an owner (R391): pipelines 0, Seif parts 1, comparator parts 2, nozzle sides 3. Bars own the stages of both
Seif and the comparator. [DEDUCED, log 118] -/
def ownerRank (kind owner : Nat) : Nat :=
  if owner = 3 then 3 else if owner = 2 then (if 0x18 ≤ kind ∧ kind < 0x20 then 2 else 1) else 0

/-- Lines and rows that pass an owner carry XFER: an affected owner, from the first cut to CUT_DONE (R392).
[DEDUCED, log 118] -/
def ownerXfer (s : State) (rank id : Nat) : Bool :=
  s.cfg.st == 9 && ((s.cfg.change.map fun c => c.owners.contains (rank, id)).getD false)

/-- A line's tag with XFER when it passes an affected owner. -/
def xferTag (s : State) (rank id : Nat) (t : LineTag) : LineTag :=
  if ownerXfer s rank id then { t with flags := t.flags ||| 16 } else t

/-- A whole frame of an owner, or a cycle of a nozzle side, has ended: the shadows of a change in PREPARED have run with it
(R390). [DEDUCED, log 95] -/
def warmFrame (rank id : Nat) : Eff := modCfg fun g => { g with change := g.change.map fun c => { c with
  warm := c.warm.map fun w => if w.1 = (rank, id) then (w.1, w.2 + 1) else w } }

/-- The ingress of a pipeline discards its segments: an instance of it has no tile (R449), or it is being reloaded in place
(R395). -/
def pipeLost (s : State) (p : Nat) : Bool :=
  s.erg.insts.any fun e => e.2.lost && e.2.id == p && (e.2.owner == 1 || e.2.owner == 4)
def reloadOf (s : State) (p : Nat) : Option Reload := firstWhere (fun r => r.pipe == p) s.cfg.reloading

/-- Change the pipelines that are being reloaded. -/
def modReloads (f : List Reload → List Reload) : Eff := modCfg fun g => { g with reloading := f g.reloading }

/-! ## Strobe pulses (R481, R482) -/

/-- MODE 1 is CONTINUOUS. -/
def stbPulsed (s : State) (k : Nat) : Bool := regBit s (Reg.STB_CTRL k) 31 && !regBit s (Reg.STB_CTRL k) 30

/-- Strobes of a generator. -/
def stbOfGen (s : State) (g : Nat) : List Nat :=
  (upto 8).filter fun k => stbPulsed s k && regFld s (Reg.STB_CTRL k) 23 16 == g

/-- An output may not become active: it is off, faulted, or held inactive (R436, R482, R492). -/
def stbBlocked (s : State) (k : Nat) : Bool :=
  !regBit s (Reg.STB_CTRL k) 31 || regBit s (Reg.STB_CTRL k) 28 || (safeActions s).testBit 0 || haltStrobes s

/-- The output is active. -/
def stbOn (x : Stb) : Bool := !x.active.isEmpty || x.phase

/-- The pulses whose start has come start, or are missed. [DEDUCED, log 123] -/
def stbStart (k : Nat) : Eff := rd fun s =>
  let x := stbOf s k
  let due := x.pulses.filter fun p => decide (p.start ≤ timeNow s)
  let good := due.filter fun p => decide (timeNow s < p.stop) && !stbBlocked s k
  chain [
    modStb k fun y => { y with
      pulses := y.pulses.filter fun p => decide (timeNow s < p.start)
      active := y.active ++ good, measured := y.measured && stbOn x },
    countSat (Reg.STB_MISSED k) (due.length - good.length),
    countUp (Reg.STB_PULSES k) good.length,
    when (!stbOn x && !good.isEmpty) (emit (.strobe k true))]

/-- A trigger schedules a pulse at each strobe of its generator: one whose start has passed starts at once, and one whose end
has passed is missed. -/
def stbSchedule (g seq : Nat) (t : Int) : Eff := rd fun s => each (stbOfGen s g) fun k =>
  let start : Int := t + sint 32 (regGet s (Reg.STB_OFFSET k)).toNat * 2 ^ 32
  let stop : Int := start + ((regGet s (Reg.STB_WIDTH k)).toNat : Int) * 2 ^ 32
  if stop ≤ timeNow s then countSat (Reg.STB_MISSED k) 1
  else chain [
    modStb k fun x => { x with pulses := x.pulses ++ [⟨seq, start, stop⟩] },
    when (decide (start ≤ timeNow s)) (stbStart k)]

/-- A trigger that is not sent produces no pulse. -/
def stbUnsent (g seq : Nat) : Eff := rd fun s => each (stbOfGen s g) fun k =>
  modStb k fun x => { x with pulses := x.pulses.filter fun p => p.seq != seq }

end Sys2Proof.Machine
end

