-- ==== Sys2Proof/Machine/Fabric.lean ====
section
/-!
DEFINITION. The Erg fabric (chapter "Erg fabric and device structure", R38 to R58): the repair map, the structure as
registers show it, the fabric clocks and local-memory errors.
-/
namespace Sys2Proof.Machine

/-- Tiles per instance of a stage kind (R49); 0 for a code that is not a kind. -/
def kindTiles (k : Nat) : Nat :=
  if [0x01, 0x02, 0x03, 0x04, 0x05, 0x07, 0x08, 0x0A, 0x11, 0x12, 0x1B, 0x1C, 0x1D, 0x20, 0x21, 0x28, 0x30, 0x31].contains k
  then 1
  else if [0x06, 0x09, 0x10, 0x19, 0x22].contains k then 2
  else if k = 0x1A then 4
  else if k = 0x18 then 32 else 0

/-- Kinds accepted on Oasis tiles (R49). -/
def kindOasis (k : Nat) : Bool := [0x01, 0x02, 0x07, 0x08, 0x0A, 0x12, 0x28, 0x30, 0x31].contains k

/-- Samples per clock of a kind (R49). -/
def kindRate (k : Nat) : Nat := if k = 0x18 then 72 else 8

/-- Pool traffic of a kind, bytes per input sample (R49). -/
def kindPool (k : Nat) : Nat :=
  if [0x02, 0x09, 0x21].contains k then 2
  else if k = 0x03 then 6
  else if [0x04, 0x10, 0x19, 0x1A].contains k then 4
  else if k = 0x1B then 1 else 0

/-- KiB of local memory that a kind uses in each of its tiles (R49). -/
def kindMem (k : Nat) : Nat :=
  if [0x03, 0x07, 0x10, 0x18, 0x19, 0x1A, 0x1C, 0x20, 0x22].contains k then 32
  else if k = 0x09 then 24
  else if [0x04, 0x11, 0x12, 0x21].contains k then 16
  else if [0x01, 0x0A, 0x1B].contains k then 8
  else if [0x02, 0x1D, 0x28].contains k then 4
  else if [0x06, 0x30, 0x31].contains k then 2 else 1

/-- Output routes of an instance of a kind at most, and input routes (R49); SPLIT and JOIN divide and merge a stream by
columns, so that what leaves a JOIN is the stream that entered its SPLIT. [DEDUCED, log 28] -/
def kindOuts (k : Nat) : Option Nat := if k = 0x30 then some 4 else if k = 0x18 then some 16 else none
def kindIns (k : Nat) : Option Nat := if k = 0x31 then some 4 else none

/-- Region and class of a logical tile (R50): regions 0 to 15 for the main class, 16 for Oasis. -/
def tileArea (l : Nat) : Nat := if l < 2040 then l / 136 else if l < 2116 then 15 else 16

/-- Region and class of a physical tile. -/
def physArea (p : Nat) : Nat :=
  let r := p / 48
  let c := p % 48
  if 40 ≤ r ∧ 40 ≤ c then 16 else 4 * (r / 12) + c / 12

/-- The physical tiles of a region and class in row-major order (R50). -/
def areaTiles (a : Nat) : List Nat := (upto 2304).filter fun p => physArea p == a

/-- First logical tile of a region and class. -/
def areaFirst (a : Nat) : Nat := if a = 16 then 2116 else 136 * a

/-- Number of logical tiles of a region and class (R50). -/
def areaLogical (a : Nat) : Nat := if a = 16 then 60 else if a = 15 then 76 else 136

/-- Physical tile i of a region and class in row-major order (R50). -/
def areaTile (a i : Nat) : Nat :=
  if a < 15 then (12 * (a / 4) + i / 12) * 48 + 12 * (a % 4) + i % 12
  else if a = 15 then
    if i < 48 then (36 + i / 12) * 48 + 36 + i % 12 else (40 + (i - 48) / 4) * 48 + 36 + (i - 48) % 4
  else (40 + i / 8) * 48 + 40 + i % 8

/-- The place of a logical tile in a part without bad tiles, its nominal position (R53). [DEDUCED, log 28] -/
def nominalTile (l : Nat) : Nat := areaTile (tileArea l) (l - areaFirst (tileArea l))

/-- From place `j` on, tile `i` of a region and class that is not among `ship`. -/
def goodTile (ship : List Nat) (a : Nat) : Nat → Nat → Nat → Nat
  | 0, j, _ => areaTile a j
  | fuel + 1, j, i =>
    if ship.contains (areaTile a j) then goodTile ship a fuel (j + 1) i
    else if i = 0 then areaTile a j else goodTile ship a fuel (j + 1) (i - 1)

/-- Physical tiles that were bad at shipment: STATE 4 (R52, R441). -/
def shippedBad (s : State) : List Nat := (s.erg.bad.filter fun e => e.2 == 4).map Prod.fst

/-- The factory map: logical tile i of a region and class is its i-th physical tile that was good at shipment (R52). -/
def factoryTile (s : State) (l : Nat) : Nat :=
  let a := tileArea l
  let ship := (shippedBad s).filter fun p => physArea p == a
  if ship.isEmpty then nominalTile l else goodTile ship a 144 0 (l - areaFirst a)

/-- The physical tile of a logical tile (R51, R52). -/
def physOf (s : State) (l : Nat) : Nat := (mget? l s.erg.moved).getD (factoryTile s l)

/-- The logical tile mapped to a physical tile, if any. -/
def logicalAt (s : State) (p : Nat) : Option Nat :=
  let a := physArea p
  firstWhere (fun l => physOf s l == p && !s.erg.gone.contains l) (upFrom (areaFirst a) (areaLogical a))

/-- Tiles of an instance. -/
def instTiles (i : Inst) : Nat := kindTiles i.kind

/-- An instance holds a logical tile. -/
def instHolds (i : Inst) (l : Nat) : Bool := decide (i.first ≤ l ∧ l < i.first + instTiles i)

/-- The instance on a physical tile, by number. -/
def instOn (s : State) (p : Nat) : Option (Nat × Inst) :=
  match logicalAt s p with
  | some l => firstWhere (fun e => instHolds e.2 l) s.erg.insts
  | none => none

/-- Change an instance. -/
def modInst (n : Nat) (f : Inst → Inst) : Eff := modErg fun e =>
  { e with insts := e.insts.map fun x => if x.1 = n then (n, f x.2) else x }

/-- The instances of a kind in force that an owner has, by number; owner types 1 and 4 both name pipelines. -/
def ownInsts (s : State) (kind owner id : Nat) : List (Nat × Inst) :=
  s.erg.insts.filter fun e => e.2.kind == kind && e.2.id == id && !e.2.shadow
    && (e.2.owner == owner || (owner == 1 && e.2.owner == 4))

/-- An owner has an instance of a kind. -/
def hasInst (s : State) (kind owner id : Nat) : Bool := !(ownInsts s kind owner id).isEmpty

/-- The place-th of an owner's instances of a kind, of which each serves a slot or a mark instance; where their number is not
`n`, all of them, which share the line's columns. [DEDUCED, log 27] -/
def placedInst (s : State) (kind owner id place n : Nat) : List (Nat × Inst) :=
  let is := ownInsts s kind owner id
  if is.length = n then (is.drop place).take 1 else is

/-- SPLIT and JOIN of an owner, which its lines pass as well. -/
def forks (s : State) (owner id : Nat) : List (Nat × Inst) := ownInsts s 0x30 owner id ++ ownInsts s 0x31 owner id

/-- A pipeline is declared in the structure: UNPACK is always present (R155). -/
def pipeDeclared (s : State) (p : Nat) : Bool := hasInst s 0x01 1 p

/-- Some instance that a line passes holds a failed word, which the line may read. -/
def mayRead (is : List (Nat × Inst)) : Bool := is.any fun e => e.2.failed && !e.2.mark

/-- The tag of a line as it leaves a stage: CHECK_MARK when it has read a failed word (R40), MIGRATE while an instance
migrates (R452), XFER while the owner's change cuts (R392). `is` are the instances of the stage that the line passes. Which
later lines read a failed word is free. [DEDUCED, log 27] -/
def stageTag (s : State) (kind owner id : Nat) (is : List (Nat × Inst)) (t : LineTag) : LineTag :=
  match is with
  | [] => t
  | is =>
    let read := (is.any fun e => e.2.mark) || (mayRead is && Config.freeValue 1 s.fresh == 1#1)
    xferTag s (ownerRank kind owner) id { t with
      flags := t.flags ||| 128 * b2n read ||| b2n (is.any fun e => e.2.moving || e.2.last) }

/-- What a line leaves behind at a stage: the mark of the line that read a failed word, and the last MIGRATE, are used up,
and so is the free value of `stageTag`. [DEDUCED, log 27] -/
def clearStageMark (is : List (Nat × Inst)) : Eff := chain [
  when (mayRead is) (act .fresh),
  each (is.filter fun e => e.2.mark || e.2.last) fun e => modInst e.1 fun i => { i with mark := false, last := false }]

/-! ## Clocks -/

/-- `n` rounded up to a multiple of 50 MHz. -/
def up50 (n : Nat) : Nat := ceilDiv n 50 * 50

/-- The target of a clock (R44, R45): from its minimum, its SET field, and its range. [DEDUCED, log 25] -/
def clockTarget (s : State) (lo hi min' set : Nat) : Nat :=
  let t := if atExpert s Reg.ERG_CTRL then set
    else match regFld s Reg.ERG_FCLK_POLICY 1 0 with
      | 0 => up50 min'
      | 1 => up50 (ceilDiv (115 * min') 100)
      | _ => hi
  min (max t lo) hi

/-- FCLK and OCLK targets, limited to what the voltage loop permits (R44 to R46). [DEDUCED, log 25] -/
def fclkTarget (s : State) : Nat := min (clockTarget s 200 1600 s.erg.fmin (regFld s Reg.ERG_FCLK_SET 11 0)) s.erg.permF
/-- [DEDUCED, log 25] -/
def oclkTarget (s : State) : Nat := min (clockTarget s 100 800 s.erg.omin (regFld s Reg.ERG_FCLK_SET 27 16)) s.erg.permO

/-- One step of at most 100 MHz towards a target (R43). A region that comes up starts from 0, and its first steps lie below the
range of its clock; the spec gives no first clock. [DESIGN CHOICE, log 126] -/
def clockMove (now target : Nat) : Nat := if now < target then min (now + 100) target else max (now - 100) target

/-- CLOCK_SHORT follows the clocks in force (R47). -/
def clockShort : Eff := rd fun s =>
  let e := s.erg
  let low := e.valid && (decide (e.fclk < e.fmin) || decide (e.oclk < e.omin))
  if low && !e.short then chain [
    modErg fun e => { e with short := true },
    raise 0x0810 0xFFFF degraded (e.fclk + e.oclk * 2 ^ 16) (e.fmin + e.omin * 2 ^ 16)]
  else when (!low && e.short) (chain [
    modErg fun e => { e with short := false },
    raise 0x0811 0xFFFF notice e.fclk e.oclk])

/-- Main regions are powered in RUN and FULL, Oasis also in WATCH (R419). -/
def mainPowered (s : State) : Bool := s.ham.st == .run || s.ham.st == .full
def oasisPowered (s : State) : Bool := mainPowered s || s.ham.st == .watch

/-- An instance runs: its region is powered (R419). -/
def instRuns (s : State) (i : Inst) : Bool := if tileArea i.first = 16 then oasisPowered s else mainPowered s

/-- A pipeline runs: in WATCH only the watch pipelines do (R48). -/
def pipeRuns (s : State) (p : Nat) : Bool := mainPowered s || (oasisPowered s && s.erg.watch.contains p)

/-- A stage takes lines: the tiles that they pass are powered, and its pipeline runs (R48). -/
def stageRuns (s : State) (owner id : Nat) (is : List (Nat × Inst)) : Bool :=
  is.all (fun e => instRuns s e.2) && (if owner = 1 then pipeRuns s id else mainPowered s)

/-- Fabric clocks of the step that ends in which some instance held its upstream: a free number of them; STATS_FREEZE holds
the count (R41, ERG_STALL). [DESIGN CHOICE, log 26] -/
def stallCount : Eff := rd fun s => when (!regBit s Reg.ERG_CTRL 4 && s.erg.fclk != 0) (withFree 32 fun v =>
  modErg fun e => { e with stall := (e.stall + v.toNat % (e.fclk * 100 + 1)) % 2 ^ 64 })

/-- A step boundary of the fabric (R43): LEVEL, then the clocks. [DESIGN CHOICE, log 26] -/
def fclkStep : Eff := chain [
  stallCount,
  levelBoundary Reg.ERG_CTRL,
  rd fun s => modErg fun e => { e with
    fclk := if mainPowered s then clockMove e.fclk (fclkTarget s) else 0
    oclk := if oasisPowered s then clockMove e.oclk (oclkTarget s) else 0 },
  clockShort]

/-- FCLK_STEP. -/
def execFclkStep (s : State) : Host.Outcome State Fault Refusal := .next (go fclkStep s)

/-! ## Local-memory errors -/

/-- A migration request is queued: one for a logical tile that is already queued merges with it; a FAULT request takes it
over. The queue holds 32 (R451). [DEDUCED, log 27] -/
def queueMig (q : MigReq) : Eff := modBch fun b =>
  if b.queue.any fun x => x.tile == q.tile then
    (if q.reason = 1 then { b with queue := b.queue.map fun x => if x.tile = q.tile then q else x } else b)
  else if b.queue.length < 32 then { b with queue := b.queue ++ [q] } else b

/-- An uncorrectable error in a tile's local memory (R40). For a tile without an instance TILE_FAULT has SOURCE and ARG1
0xFFFF, a case the spec does not give. [DEDUCED, log 27] [DESIGN CHOICE, log 127] -/
def tileUncorr (p : Nat) : Eff := rd fun s =>
  match instOn s p with
  | some (n, i) =>
    if s.erg.spoiled.contains p then modInst n fun i => { i with mark := true, failed := true }
    else chain [
      modInst n fun i => { i with mark := true, failed := true, st := 5 },
      raise 0x0814 n faultSev p n,
      if i.shadow then when (decide (s.cfg.st < 8)) (abortChange 19)
      else when ((logicalAt s p).isSome) (queueMig ⟨1, (logicalAt s p).getD 0⟩)]
  | none => raise 0x0814 0xFFFF faultSev p 0xFFFF

/-- TILE_ECC_UNCORR. -/
def execTileEccUncorr (p : Fin 2304) (s : State) : Host.Outcome State Fault Refusal := .next (go (tileUncorr p) s)

/-- A corrected error in a tile's local memory; STATS_FREEZE holds the counter (R40). -/
def tileCorr (p addr : Nat) : Eff := rd fun s =>
  let n := ((instOn s p).map Prod.fst).getD 0xFFFF
  chain [
    when (!regBit s Reg.ERG_CTRL 4) (countSat Reg.ERG_ECC_CORR 1),
    raise 0x0813 n notice p addr]

/-- LOCAL_ECC_CORR. -/
def execLocalEccCorr (p : Fin 2304) (word : BitVec 12) (s : State) : Host.Outcome State Fault Refusal :=
  .next (go (tileCorr p word.toNat) s)

/-! ## Views -/

/-- Good physical tiles of a region and class. -/
def areaGood (s : State) (a : Nat) : Nat :=
  (areaTiles a).length - (s.erg.bad.filter fun e => physArea e.1 == a && e.2 != 6).length

/-- The running migration has taken a spare of a region and class (R54). -/
def spareTaken (s : State) (a : Nat) : Bool :=
  (s.bch.mig.map fun m => m.taken.isNone && physArea m.target == a).getD false

/-- Free spares of a region and class. -/
def areaSpares (s : State) (a : Nat) : Nat :=
  areaGood s a - (areaLogical a - (s.erg.gone.filter fun l => tileArea l == a).length) - b2n (spareTaken s a)

/-- The spare tiles of a region and class that nothing uses: good, mapped by no logical tile. -/
def freeSpares (s : State) (a : Nat) : List Nat :=
  (areaTiles a).filter fun p => (mget? p s.erg.bad).isNone && (logicalAt s p).isNone
    && !((s.bch.mig.map fun m => m.target == p).getD false)

/-- ERG_MAP of a logical tile. -/
def mapWord (s : State) (l : Nat) : Word :=
  if s.erg.gone.contains l then 0#32
  else
    let p := physOf s l
    word (2 ^ 31 + b2n (mget? l s.erg.moved).isSome * 2 ^ 30 + b2n (tileArea l == 16) * 2 ^ 29
      + p / 48 * 2 ^ 8 + p % 48)

/-- A physical tile is a spare: outside the first tiles that the factory map uses. -/
def isSpare (s : State) (p : Nat) : Bool :=
  let a := physArea p
  !(upFrom (areaFirst a) (areaLogical a)).any fun l => factoryTile s l == p

/-- ERG_PTILE of a physical tile. -/
def ptileWord (s : State) (p : Nat) : Word :=
  let l := logicalAt s p
  let i := instOn s p
  let on := if physArea p = 16 then oasisPowered s else mainPowered s
  let st := match mget? p s.erg.bad with
    | some b => b
    | none => if !on then 7 else if l.isNone then 2 else if isSpare s p then 3 else if i.isSome then 1 else 0
  word (st * 2 ^ 28 + l.getD 0xFFF * 2 ^ 16 + (i.map Prod.fst).getD 0xFFFF)

/-- A word of ERG_INST. -/
def instWord (s : State) (n w : Nat) : Word :=
  match mget? n s.erg.insts with
  | none => 0#32
  | some i => match w with
    | 0 => word (2 ^ 31 + b2n i.shadow * 2 ^ 30 + i.kind * 2 ^ 16 + instTiles i)
    | 1 => word i.first
    | 2 => word (i.owner * 2 ^ 28 + i.id)
    | _ => word (if i.shadow then 2 else i.st)

/-- Declared pool traffic in percent of 26.21 TB/s: Msample/s times bytes, over 26,210,000 MB/s. [DEDUCED, log 28] -/
def poolPct (s : State) : Nat := sumOf (fun e => kindPool e.2.kind * e.2.rate) s.erg.insts * 100 / 26210000

/-- A direction of a packed direction list: 2 bits each (R378). -/
def dirAt (bs : List Byte) (k : Nat) : Nat := leAt bs (k / 4) 1 / 4 ^ (k % 4) % 4

/-- The links of a route from a physical tile: tile and direction of each hop. -/
def routeLinks (dirs : List Byte) : Nat → Nat → Nat → List (Nat × Nat)
  | 0, _, _ => []
  | h + 1, k, p =>
    let d := dirAt dirs k
    let q := match d with
      | 0 => p - 48
      | 1 => p + 1
      | 2 => p + 48
      | _ => p - 1
    (p, d) :: routeLinks dirs h (k + 1) q

/-- The links the routes take in their nominal placement, each from the nominal position of its source's first tile; the spec
does not name the tile of a source with several. [DEDUCED, log 28] [DESIGN CHOICE, log 128] -/
def usedLinks (s : State) : List (Nat × Nat) := s.erg.routes.flatMap fun e =>
  match mget? e.2.src s.erg.insts with
  | some i => routeLinks e.2.dirs e.2.hops 0 (nominalTile i.first)
  | none => []

/-- The most tracks in use on any link direction. [DEDUCED, log 28] -/
def trackPeak (ls : List (Nat × Nat)) : Nat :=
  ls.foldl (fun m l => max m (ls.filter (· == l)).length) 0

/-- The words of ERG that are views of its state. -/
def ergView (s : State) (off : Nat) : Option Word :=
  let e := s.erg
  if off = Reg.ERG_STATUS then some (word (e.insts.length * 2 ^ 20 + sumOf (fun x => instTiles x.2) e.insts * 2 ^ 8
    + b2n (e.insts.any fun x => x.2.shadow) * 16 + b2n e.short * 8
    + b2n ((mainPowered s && e.fclk != fclkTarget s) || (oasisPowered s && e.oclk != oclkTarget s)) * 4
    + b2n e.valid * 2 + b2n (atExpert s Reg.ERG_CTRL)))
  else if off = Reg.ERG_TILES then
    some (word (sumOf (areaGood s) (upto 17) * 2 ^ 16 + (2176 - e.gone.length)))
  else if off = Reg.ERG_SPARE_FREE_LO then some (word (sumOf (fun r => areaSpares s r * 16 ^ r) (upto 8)))
  else if off = Reg.ERG_SPARE_FREE_HI then some (word (sumOf (fun r => areaSpares s (8 + r) * 16 ^ r) (upto 8)))
  else if off = Reg.ERG_SPARE_FREE_OAS then some (word (areaSpares s 16))
  else if off = Reg.ERG_FCLK_NOW then some (word (e.oclk * 2 ^ 16 + e.fclk))
  else if off = Reg.ERG_FCLK_MIN then some (word (e.omin * 2 ^ 16 + e.fmin))
  else if off = Reg.ERG_FCLK_SET ∧ !atExpert s Reg.ERG_CTRL then
    some (word (clockTarget s 100 800 e.omin 0 * 2 ^ 16 + clockTarget s 200 1600 e.fmin 0))
  else if off = Reg.ERG_STRUCT_SEQ then some (word e.seq)
  else if off = Reg.ERG_USE then some (word (poolPct s * 2 ^ 16 + min (trackPeak (usedLinks s)) 4 * 2 ^ 8))
  else if off = Reg.ERG_REGION_PWR then
    some (word (b2n (oasisPowered s) * 2 ^ 16 + (if mainPowered s then 0xFFFF else 0)))
  else if off = Reg.ERG_STALL_LO then some (word e.stall)
  else if off = Reg.ERG_STALL_HI then some (word (e.stall / 2 ^ 32))
  else if Reg.ERG_MAP 0 ≤ off ∧ off < Reg.ERG_MAP 2176 then some (mapWord s ((off - Reg.ERG_MAP 0) / 4))
  else if Reg.ERG_PTILE 0 ≤ off ∧ off < Reg.ERG_PTILE 2304 then some (ptileWord s ((off - Reg.ERG_PTILE 0) / 4))
  else if Reg.ERG_INST 0 ≤ off then some (instWord s ((off - Reg.ERG_INST 0) / 16) ((off - Reg.ERG_INST 0) / 4 % 4))
  else none

end Sys2Proof.Machine
end

