-- ==== Sys2Proof/Machine/PartnerOps.lean ====
section
/-!
DEFINITION. What the lanes and the partner link share: a group's lanes and state, partner entries, queueing frames, and the
moves of entries when a group or an association comes up or goes down (R84, R96 to R98, R118).
-/
namespace Sys2Proof.Machine

/-- One lane's state. -/
def laneOf (s : State) (n : Nat) : Lane := mget {} n s.lne.lanes

/-- One octet's state. -/
def octetOf (s : State) (o : Nat) : Octet := mget {} o s.lne.octets

/-- Change one lane. -/
def modLane (n : Nat) (f : Lane → Lane) : Eff := modLne fun l => { l with lanes := mput n (f (mget {} n l.lanes)) l.lanes }

/-- Width code of the group whose first lane is `g`: a group of two or four lanes starts at an aligned position of its octet
(R67, R68). A changed BOND is in force at once, a moment that the spec does not give. [DESIGN CHOICE, log 130] -/
def groupBond (s : State) (g : Nat) : Nat :=
  let b := regFld s (Reg.LNE_LN_CTRL g) 11 10
  if b = 2 ∧ g % 4 = 0 then 2 else if b = 1 ∧ g % 2 = 0 then 1 else 0

/-- Number of lanes of the group whose first lane is `g` (R67). -/
def groupWidth (s : State) (g : Nat) : Nat := 2 ^ groupBond s g

/-- The lanes of the group whose first lane is `g`. -/
def groupLanes (s : State) (g : Nat) : List Nat := upFrom g (groupWidth s g)

/-- The first lane of the group a lane belongs to (R67), by the BOND fields as they stand. [DESIGN CHOICE, log 130] -/
def groupOf (s : State) (n : Nat) : Nat :=
  if groupBond s (n - n % 4) = 2 then n - n % 4
  else if groupBond s (n - n % 2) = 1 then n - n % 2 else n

/-- The group is in READY. -/
def groupReady (s : State) (g : Nat) : Bool := (laneOf s g).st == .ready

/-! ## Entries -/

/-- One partner entry's association. -/
def partnerOf (s : State) (p : Nat) : Partner := mget {} p s.plk.partners

/-- Change one partner entry's association. -/
def modPartner (p : Nat) (f : Partner → Partner) : Eff :=
  modPlk fun k => { k with partners := mput p (f (mget {} p k.partners)) k.partners }

/-- Fields of PT_CTRL (R123). -/
def ptValid (s : State) (p : Nat) : Bool := regBit s (Reg.PT_CTRL p) 31
def ptTimeSrc (s : State) (p : Nat) : Bool := regBit s (Reg.PT_CTRL p) 30
def ptLane (s : State) (p : Nat) : Nat := regFld s (Reg.PT_CTRL p) 6 0

/-- The entry is ACTIVE. -/
def isActive (s : State) (p : Nat) : Bool := (partnerOf s p).st == .active

/-- The ids of the entries on a lane group, rising. -/
def entriesOn (s : State) (g : Nat) : List Nat :=
  (s.plk.partners.map Prod.fst).filter fun p => ptValid s p && ptLane s p == g

/-- The account of class `c` with a partner. -/
def account (q : Partner) (c : Nat) : Account := nthD {} c q.accounts

/-- Change the account of class `c` with a partner. -/
def modAccount (p c : Nat) (f : Account → Account) : Eff :=
  modPartner p fun q => { q with accounts := setNth (f (account q c)) c q.accounts }

/-- Messages that consume no credit (R84). -/
def exempt (typ : Nat) : Bool := decide (typ ≤ 0x09)

/-- A frame is queued on a group. -/
def sendOn (g dst cls typ : Nat) (body : TxBody) : Eff :=
  modPlk fun k => { k with txq := k.txq ++ [⟨g, dst, cls, typ, body⟩] }

/-- A frame is queued to a partner on its group. -/
def sendTo (p cls typ : Nat) (body : TxBody) : Eff := rd fun s => sendOn (ptLane s p) p cls typ body

/-- A frame of a type that is queued once to a partner at most (R93). -/
def sendOnce (p cls typ : Nat) (body : TxBody) : Eff := rd fun s =>
  when (!s.plk.txq.any fun f => f.dst == p && f.typ == typ) (sendTo p cls typ body)

/-- BYE with a reason (R99). -/
def sendBye (p reason : Nat) : Eff := sendTo p 0 0x09 (.bytes (leBytes 4 reason))

/-- ALIVE, CREDIT, BYE and non-exempt frames carry and advance their class's ACNT (R95). [DEDUCED, log 31] -/
def carriesAcnt (typ : Nat) : Bool := typ == 0x01 || typ == 0x02 || decide (0x09 ≤ typ)

/-- Cost of a frame in credits (R83). -/
def frameCost (len : Nat) : Nat := 1 + ceilDiv (len - 15) 32

/-- Payload length of what a queued frame carries. -/
def bodyLen : TxBody → Nat
  | .bytes bs => bs.length
  | .alive => 8
  | .syncOrigin _ _ => 32
  | .delayReq _ => 4
  | .delayResp _ _ => 12
  | .trigger _ _ bs => bs.length
  | .corr _ _ bs => bs.length
  | .tunnel _ bs => bs.length

/-- Credit the device has towards a partner in a class (R90). -/
def available (s : State) (p c : Nat) : Nat :=
  let q := partnerOf s p
  nthD 0 c q.grants - ((account q c).consumed + 2 ^ 16 - (account q c).returned) % 2 ^ 16

/-- The device time of a moment as SYNC carries it: seconds, ns and 1/65,536 ns (R105). [DEDUCED, log 31] -/
def timeFields (t : Int) : List Byte :=
  leBytes 8 (wrapTo 64 (t / ((10 ^ 9 * 2 ^ 32 : Nat) : Int)))
    ++ leBytes 4 ((sar t 32) % ((10 ^ 9 : Nat) : Int)).toNat ++ leBytes 2 (wrapTo 16 (sar t 16))

/-- FLAGS of an originated SYNC (R105, R128, R138, R140). [DEDUCED, log 35] -/
def syncFlags (s : State) (step : Bool) : Nat :=
  b2n (s.tim.st == .holdover) + 2 * b2n step + 8 * b2n (s.tim.st == .unset)

/-- The payload of a frame that starts now: the contents formed at transmission are formed here (R94, R107, R142).
[DEDUCED, log 35] -/
def bodyBytes (s : State) (dst : Nat) : TxBody → List Byte
  | .bytes bs => bs
  | .alive => (partnerOf s dst).accounts.flatMap fun a => leBytes 2 a.consumed
  | .syncOrigin seq step => timeFields (timeNow s) ++ leBytes 2 seq ++ leBytes 8 0 ++ leBytes 8 (syncFlags s step)
  | .delayReq seq => leBytes 4 seq
  | .delayResp seq t2 => leBytes 4 seq ++ leBytes 8 (arg64 (sar (timeNow s - t2) 16))
  | .trigger _ _ bs => bs
  | .corr _ _ bs => bs
  | .tunnel _ bs => bs

/-- The 16 header bytes of a frame (R82). [DESIGN CHOICE, log 125] -/
def frameHeader (cls dst src typ acnt len : Nat) (rets : List Nat) : List Byte :=
  leBytes 2 (cls * 2 ^ 12 + dst) ++ leBytes 2 src ++ leBytes 1 typ ++ leBytes 1 acnt ++ leBytes 2 len
    ++ rets.flatMap (leBytes 2)

/-- The START block of a frame: header bytes at 0 to 15 and the first 15 payload bytes, padded with 0 (R76 to R78). -/
def startBlock (hd pl : List Byte) : BitVec 257 := BitVec.ofNat 257 (0x3C * 2 + leVal (hd ++ pl.take 15) * 2 ^ 9)

/-- A DATA block of up to 32 payload bytes, padded with 0 (R76 to R78). -/
def dataBlock (bs : List Byte) : BitVec 257 := BitVec.ofNat 257 (1 + leVal bs * 2)

/-- The END block with its FCS (R76 to R78). -/
def endBlock (fcs : Nat) : BitVec 257 := BitVec.ofNat 257 (0xC3 * 2 + fcs * 2 ^ 9)

/-- What follows the START block of a frame: its DATA blocks and its END (R78). -/
def restBlocks (pl : List Byte) (fcs : Nat) : List (BitVec 257) :=
  (chunks 32 pl.length (pl.drop 15)).map dataBlock ++ [endBlock fcs]

/-- What follows a frame's start in the device: a trigger has left, a correction frame is sent, and a delay request keeps its timestamp. -/
def afterStart (dst : Nat) (b : TxBody) : Eff := rd fun s =>
  match b with
  | .trigger g seq _ => modTim fun t => { t with gens := t.gens.map fun e =>
      if e.1 = g then (g, { e.2 with pending := e.2.pending.map fun x => if x.seq = seq then { x with sent := true } else x })
      else e }
  | .corr m first _ => modNzl fun n => { n with mods := n.mods.map fun e =>
      if e.1 = m then (m, { e.2 with set := e.2.set.map fun x => { x with frames := x.frames.map fun fr =>
        if fr.first = first ∧ fr.st < 3 then { fr with st := 1, since := s.raw } else fr } })
      else e }
  | .delayReq seq => modPartner dst fun q => { q with delaySeq := seq, delayT1 := some (timeNow s) }
  | _ => skip

/-- A frame starts: its cost is charged, its header takes ACNT and the freed counts, and its FCS is formed
(R79, R82, R90, R91, R95). A C0 or C1 frame goes out whole; of a C2 or C3 frame the START, and it stays open (R80, R88). -/
def startFrame (f : TxFrame) : Eff := rd fun s =>
  let q := partnerOf s f.dst
  let a := account q f.cls
  let pl := bodyBytes s f.dst f.body
  let hd := frameHeader f.cls f.dst 0 f.typ (if carriesAcnt f.typ then a.acntTx else 0) pl.length
    (if f.dst = 0xFFF then [0, 0, 0, 0] else q.accounts.map fun b => b.freed)
  let fcs := crc32c (hd ++ pl)
  chain [
    emit (.frame f.group (hd ++ pl) fcs),
    emit (.block f.group (startBlock hd pl)),
    if f.cls < 2 then each (restBlocks pl fcs) fun b => emit (.block f.group b)
    else modPlk fun k => { k with sending := mput f.group (restBlocks pl fcs) k.sending },
    when (f.dst != 0xFFF) (chain [
      modPartner f.dst fun q => { q with accounts := q.accounts.map fun b => { b with told := b.freed } },
      modAccount f.dst f.cls fun b => { b with
        consumed := if exempt f.typ then b.consumed else (b.consumed + frameCost pl.length) % 2 ^ 16
        acntTx := if carriesAcnt f.typ then (b.acntTx + 1) % 2 ^ 8 else b.acntTx },
      countUp (Reg.PT_TX f.dst) 1]),
    afterStart f.dst f.body]

/-- PROBE on a group (R97, R99); each group counts its own, from 0. [DESIGN CHOICE, log 134] -/
def sendProbe (g : Nat) : Eff := rd fun s =>
  let n := mget 0 g s.plk.probeSeq
  chain [
    sendOn g 0xFFF 0 0x03 (.bytes (leBytes 2 g ++ leBytes 2 n)),
    modPlk fun k => { k with probeSeq := mput g ((n + 1) % 2 ^ 16) k.probeSeq }]

/-! ## The end of tunnel requests (R118, R120) -/

/-- A request ends without data: a slot takes its RESULT and, for a read, all ones; a window read completes with all
ones. -/
def tunEndFail (r : TunReq) (result : Nat) : Eff :=
  match r.origin with
  | .slot t => chain [
      putBit (Reg.PLK_TUN_CTRL t) 31 false,
      setReg (Reg.PLK_TUN_STATUS t) (word (2 ^ 30 + result)),
      when (!r.write) (each (upto r.count) fun w => setReg (Reg.PLK_TUN_DATA t w) allOnes)]
  | .winRead off => emit (.window 2 off allOnes)
  | .winWrite _ => skip

/-- A request to a partner that is not ACTIVE ends at once with status 6 (R118). -/
def tunNotActive (p : Nat) (r : TunReq) : Eff := chain [tunEndFail r 6, raise 0x0617 p notice r.addr 6]

/-! ## Leaving an association (R98) -/

/-- Triggers formed for a partner's camera and not yet sent are dropped with their frames, and produce no pulse (R481). -/
def dropTriggers (p : Nat) : Eff := rd fun s =>
  let mine := fun (e : Nat × Gen) => regFld s (Reg.TIM_TRG_CTRL e.1) 27 16 == p
  chain [
    each (s.tim.gens.filter mine) fun e => each (e.2.pending.filter fun x => !x.sent) fun x => stbUnsent e.1 x.seq,
    modTim fun t => { t with
      gens := t.gens.map fun e => if mine e then (e.1, { e.2 with pending := e.2.pending.filter fun x => x.sent }) else e }]

/-- An entry leaves DESCRIBING, ACCEPTING or ACTIVE: non-exempt frames not yet started are dropped, and its tunnel
requests end. -/
def dropAssociation (p : Nat) : Eff := rd fun s =>
  let q := partnerOf s p
  chain [
    modPlk fun k => { k with txq := k.txq.filter fun f => !(f.dst == p && !exempt f.typ) },
    dropTriggers p,
    modPartner p fun q => { q with queue := [], overflow := [] },
    each (q.queue ++ q.overflow) (tunNotActive p)]

/-- An entry moves to LOST with a reason; PARTNER_LOST is raised (R96, R98, R102). -/
def loseEntry (p reason : Nat) : Eff := rd fun s => chain [
  raise 0x0611 p degraded reason (partnerOf s p).st.code,
  modPartner p fun q => { q with st := .lost, reason := reason },
  dropAssociation p]

/-- The state an entry that is not associated waits in (R98). -/
def restSt (s : State) (p : Nat) : EntrySt :=
  if groupReady s (ptLane s p) && regBit s Reg.PLK_CTRL 8 then .probing else .waiting

/-- The entry moves to PROBING, or to WAITING when its group is not READY or PROBE_EN is 0. -/
def toProbing (p : Nat) : Eff := rd fun s => modPartner p fun q => { q with st := restSt s p }

/-- A group leaves READY: its entries move (R98), and the frames that were open on it end. -/
def linkDown (g : Nat) : Eff := rd fun s => chain [
  modPlk fun k => { k with sending := mdel g k.sending, corrupt := k.corrupt.filter (· != g) },
  each (entriesOn s g) fun p => rd fun s' => match (partnerOf s' p).st with
    | .describing => loseEntry p 9
    | .accepting => loseEntry p 9
    | .active => loseEntry p 9
    | .probing => modPartner p fun q => { q with st := .waiting }
    | _ => skip]

/-- An entry of the group is not ACTIVE, and probing is on (R97, R98). -/
def probes (s : State) (g : Nat) : Bool := regBit s Reg.PLK_CTRL 8 && (entriesOn s g).any fun p => !isActive s p

/-- A group reaches READY: waiting entries are probed, PROBE goes out at once, and generators that waited for the lane
after capture-ready are released (R97, R98, R424). -/
def linkUp (g : Nat) : Eff := rd fun s => chain [
  modHam fun h => { h with genWait := h.genWait.filter fun k => ptLane s (regFld s (Reg.TIM_TRG_CTRL k) 27 16) != g },
  each (entriesOn s g) fun p => when ((partnerOf s p).st == .waiting) (toProbing p),
  rd fun s' => when (probes s' g) (sendProbe g)]

end Sys2Proof.Machine
end

