-- ==== Sys2Proof/Machine/Receive.lean ====
section
/-!
DEFINITION. What the receiver does with every frame, whatever its type: the checks of R122 in their order, the credit
account (R90 to R92, R94), the alive counts (R95), and the counters of the partner table.
-/
namespace Sys2Proof.Machine

/-- Class of a message type of R84; none for an unknown type. -/
def typeClass (typ : Nat) : Option Nat :=
  if 0x01 ≤ typ ∧ typ ≤ 0x09 then some 0
  else if typ = 0x10 ∨ typ = 0x11 ∨ typ = 0x12 ∨ typ = 0x14 then some 0
  else if typ = 0x20 ∨ typ = 0x22 ∨ typ = 0x23 then some 1
  else if 0x30 ≤ typ ∧ typ ≤ 0x33 then some 2
  else if typ = 0x40 ∨ typ = 0x41 then some 3
  else none

/-- The type may travel from a partner to the device (R84). -/
def toDevice (typ : Nat) : Bool :=
  [0x01, 0x02, 0x04, 0x07, 0x09, 0x10, 0x11, 0x12, 0x14, 0x23, 0x31, 0x33, 0x40, 0x41].contains typ

/-- Maximum LEN of a class (R83). -/
def classMax (c : Nat) : Nat := nthD 0 c [271, 1039, 271, 4111]

/-- LEN is as R84 and R112 require for the type, and within the maximum of the frame's class (R122, kind 4). -/
def lenOk (typ cls : Nat) (len : Nat) (pl : List Byte) : Bool :=
  decide (len ≤ classMax cls) && match typ with
  | 0x01 => len == 8
  | 0x02 => len == 0
  | 0x03 => len == 4
  | 0x04 => len == 12
  | 0x05 => len == 12
  | 0x06 => len == 15
  | 0x07 => len == 79
  | 0x08 => len == 16
  | 0x09 => len == 4
  | 0x10 => len == 32
  | 0x11 => len == 4
  | 0x12 => len == 12
  | 0x14 => len == 12
  | 0x20 => len == 15
  | 0x22 => decide (leAt pl 13 2 % 1024 ≤ 512) && len == 15 + 2 * (leAt pl 13 2 % 1024)
  | 0x23 => len == 12
  | 0x30 => len == 15
  | 0x31 => decide (leAt pl 1 1 ≤ 64) && len == 15 + 4 * leAt pl 1 1
  | 0x32 => decide (leAt pl 1 1 ≤ 64) && len == 15 + 4 * leAt pl 1 1
  | 0x33 => len == 15
  | 0x40 => decide (15 ≤ len)
  | 0x41 => len == 8
  | _ => true

/-- The bytes a frame's FCS covers (R79). -/
def rxBytes (f : RxFrame) (typ : Nat) : List Byte :=
  frameHeader f.cls f.dst.toNat f.src.toNat typ f.acnt.toNat f.len.toNat
    [f.ret0.toNat, f.ret1.toNat, f.ret2.toNat, f.ret3.toNat] ++ f.payload

/-- The frame's group. -/
def rxGroup (s : State) (f : RxFrame) : Nat := groupOf s f.lane

/-- SRC is an id assigned on the frame's group (R86). -/
def srcAssigned (s : State) (f : RxFrame) : Bool :=
  let p := f.src.toNat
  ptValid s p && ptLane s p == rxGroup s f && (match (partnerOf s p).st with
    | .describing | .accepting | .active => true
    | _ => false)

/-- The entry of SRC has a credit account: it is ACCEPTING or ACTIVE (R90). -/
def hasAccount (s : State) (f : RxFrame) : Bool :=
  srcAssigned s f && (partnerOf s f.src.toNat).st != .describing

/-- SRC and DST are acceptable for the type (kind 8 of R122). -/
def addressed (s : State) (f : RxFrame) (typ : Nat) : Bool :=
  f.dst.toNat == 0 && ((typ == 0x04 && f.src.toNat == 0xFFF && groupReady s (rxGroup s f))
    || (srcAssigned s f && (exempt typ || hasAccount s f)))

/-- The framing checks that do not rely on the header's numbers, in R122's order: the kind of the first that fails,
0 when all pass. [DEDUCED, log 32] -/
def framingKind (f : RxFrame) (typ : Nat) : Nat :=
  if f.marked then 1
  else if f.nested then 7
  else if f.idle && f.cls < 2 then 6
  else if f.blocks ≠ ceilDiv (f.len.toNat - 15) 32 then 3
  else if crc32c (rxBytes f typ) ≠ f.fcs.toNat then 1
  else 0

/-- The checks after the FCS but for the duplicate and the TAG: kinds 4, 5 and 8. `source` says that a SYNC comes from
a time source (R106). [DEDUCED, log 32] -/
def headerKind (s : State) (f : RxFrame) (typ : Nat) (source : Bool) : Nat :=
  if !lenOk typ f.cls f.len.toNat f.payload then 4
  else if typeClass typ ≠ some f.cls.val ∨ !toDevice typ ∨ !source then 5
  else if !addressed s f typ then 8
  else 0

/-- A counter field of PT_ERR that stops at 255. -/
def ptErrCount (p hi lo n : Nat) : Eff := rd fun s =>
  putFld (Reg.PT_ERR p) hi lo (min (regFld s (Reg.PT_ERR p) hi lo + n) 255)

/-- A discarded frame is counted at its partner, or at its group when no SRC is valid, and raised (R122).
[DEDUCED, log 32] -/
def frameErr (f : RxFrame) (kind : Nat) : Eff := rd fun s =>
  let p := f.src.toNat
  let g := rxGroup s f
  if srcAssigned s f then chain [
    if kind = 1 then ptErrCount p 31 24 1 else ptErrCount p 23 16 1,
    raise 0x0613 p notice kind g]
  else chain [
    countSat Reg.PLK_LANE_ERR 1,
    raise 0x0613 0xFFFF notice kind g]

/-- A frame's cost is charged to the partner's account of its class and, when its storage is released at once, freed
(R91). -/
def chargeFrame (f : RxFrame) (typ : Nat) (freed : Bool) : Eff := rd fun s =>
  let k := frameCost f.len.toNat
  when (hasAccount s f && !exempt typ) (modAccount f.src.toNat f.cls fun a => { a with
    charged := (a.charged + k) % 2 ^ 16
    freed := if freed then (a.freed + k) % 2 ^ 16 else a.freed
    held := if freed then a.held else a.held + k })

/-- Credits the partner still has in a class (R92). -/
def partnerCredit (s : State) (p c : Nat) : Nat :=
  let a := account (partnerOf s p) c
  let grant := if c < 2 then regFld s (Reg.PT_GRANT01 p) (16 * c + 15) (16 * c)
    else regFld s (Reg.PT_GRANT23 p) (16 * (c - 2) + 15) (16 * (c - 2))
  grant - (a.charged + 2 ^ 16 - a.freed) % 2 ^ 16

/-- The frame exceeds the sender's available credit (R92). -/
def overCredit (s : State) (f : RxFrame) (typ : Nat) : Bool :=
  hasAccount s f && !exempt typ && decide (partnerCredit s f.src.toNat f.cls < frameCost f.len.toNat)

/-- A credit violation ends the association with BYE reason 11 (R92). -/
def creditViolation (f : RxFrame) : Eff := rd fun s => chain [
  raise 0x0614 f.src.toNat faultSev f.cls (partnerCredit s f.src.toNat f.cls),
  sendBye f.src.toNat 11,
  loseEntry f.src.toNat 11]

/-- The frame's ACNT repeats the one before it (R95). -/
def isDuplicate (s : State) (f : RxFrame) : Bool :=
  hasAccount s f && (account (partnerOf s f.src.toNat) f.cls).acntRx == (f.acnt.toNat + 1) % 256

/-- Frames lost before this one (R95). -/
def framesLost (s : State) (f : RxFrame) : Nat :=
  if hasAccount s f then (f.acnt.toNat + 256 - (account (partnerOf s f.src.toNat) f.cls).acntRx) % 256 else 0

/-- E follows the frame, and a gap is counted and raised; a duplicate changes nothing (R95). [DEDUCED, log 32] -/
def takeAcnt (f : RxFrame) : Eff := rd fun s =>
  let lost := framesLost s f
  when (hasAccount s f && !isDuplicate s f) (chain [
    modAccount f.src.toNat f.cls fun a => { a with acntRx := (f.acnt.toNat + 1) % 256 },
    when (lost != 0) (chain [
      ptErrCount f.src.toNat 15 8 lost,
      raise 0x0615 f.src.toNat notice f.cls lost])])

/-- RETURNED follows the RET fields (R90). [DEDUCED, log 32] -/
def takeReturns (f : RxFrame) : Eff := rd fun s => when (hasAccount s f) (chain [
  modAccount f.src.toNat 0 fun a => { a with returned := f.ret0.toNat },
  modAccount f.src.toNat 1 fun a => { a with returned := f.ret1.toNat },
  modAccount f.src.toNat 2 fun a => { a with returned := f.ret2.toNat },
  modAccount f.src.toNat 3 fun a => { a with returned := f.ret3.toNat }])

/-- The corrupt frame of a group ends (R81). -/
def closeCorrupt (g : Nat) : Eff := modPlk fun k => { k with corrupt := k.corrupt.filter (· != g) }

/-- A frame arrives: checked, charged, counted, and handed on with the number of frames lost before it. Once its framing is
sound, a cost beyond the sender's credit is a violation whatever else is wrong with it (R92). `keep` holds its storage until
the consumer frees it; `known` says that a response's TAG is known (kind 11). -/
def receive (f : RxFrame) (typ : Nat) (source : Bool) (known : State → Bool) (keep : Bool) (accept : Nat → Eff) : Eff :=
  chain [when (decide (2 ≤ f.cls.val)) (rd fun s => closeCorrupt (rxGroup s f)), rd fun s =>
    let discard := fun k => chain [chargeFrame f typ true, frameErr f k]
    let k := framingKind f typ
    if k ≠ 0 then discard k
    else if overCredit s f typ then creditViolation f
    else
      let h := headerKind s f typ source
      if h = 4 ∨ h = 5 then chain [takeReturns f, takeAcnt f, discard h]
      else if h ≠ 0 then discard h
      else if isDuplicate s f then discard 9
      else if !known s then chain [takeReturns f, takeAcnt f, discard 11]
      else chain [
        chargeFrame f typ (!keep),
        takeReturns f,
        takeAcnt f,
        when (srcAssigned s f) (countUp (Reg.PT_RX f.src.toNat) 1),
        accept (framesLost s f)]]

/-- A frame of an ordinary type. -/
def receivePlain (f : RxFrame) (typ : Nat) (accept : Eff) : Eff :=
  receive f typ true (fun _ => true) false fun _ => accept

/-- Held storage of a class is released (R91). [DEDUCED, log 33] -/
def freeHeld (p c k : Nat) : Eff := modAccount p c fun a =>
  { a with freed := (a.freed + min k a.held) % 2 ^ 16, held := a.held - k }

end Sys2Proof.Machine
end

