-- ==== Sys2Proof/Machine/TimeOps.lean ====
section
/-!
DEFINITION. The time engine's operations: changing rate and slew without a jump, steps, the source selection, and the
correction at a measurement (R126 to R141).
-/
namespace Sys2Proof.Machine

/-- One ns, one ms and one second in units of 2^-32 ns. -/
def oneNs : Int := ((2 ^ 32 : Nat) : Int)
def oneMs : Int := 10 ^ 6 * oneNs
def oneSec : Int := 10 ^ 9 * oneNs

/-- The job web position in um, as whole micrometres of the job encoder's position (R145). -/
def jobWebUm (s : State) : Int := (nthD {} (regFld s Reg.TIM_JOB 1 0) s.tim.webs).pos / 1000000

/-- A MARK record is due in the journal while it accepts records, with the ERG_STRUCT_SEQ after it (R329). -/
def journalMarkSeq (kind seq arg : Nat) : Eff := rd fun s => when (regBit s Reg.JRN_CTRL 1) (modJrn fun j => { j with
  wait := j.wait ++ [{ type := 6, source := 0xFFFF, time := none
                       payload := leBytes 4 kind ++ leBytes 4 seq ++ leBytes 8 arg ++ leBytes 8 (arg64 (jobWebUm s)) }] })

/-- A MARK record that leaves the structure alone. [DEDUCED, log 73] -/
def journalMark (kind : Nat) (arg : Nat) : Eff := rd fun s => journalMarkSeq kind s.erg.seq arg

/-- A GAP record (R327): its cause, reason, source, count, first, last and web position. -/
def gapRec (cause reason source count first last web : Nat) : JRec := {
  type := 5, source := source, time := none
  payload := leBytes 1 cause ++ leBytes 1 reason ++ leBytes 2 source ++ leBytes 4 count ++ leBytes 8 first
    ++ leBytes 8 last ++ leBytes 8 web }

/-- The part of a running slew still to be removed (R136, R137). -/
def slewLeft (s : State) : Int :=
  s.tim.slewDue - ((slewRun s.tim s.raw * 2 ^ 33 : Nat) : Int) * s.tim.slew / ((10 ^ 6 : Nat) : Int)

/-- The running slew has removed its error (R137). -/
def slewOver (s : State) : Bool := decide (slewTicks s.tim ≤ s.raw - s.tim.rawBase)

/-- A change of rate or slew: T_BASE and RAW_BASE move to this tick first (R126). -/
def rebase (f : Tim → Tim) : Eff := rd fun s =>
  modTim fun t => f { t with base := timeNow s, rawBase := s.raw, slewDue := if t.slew = 0 then 0 else slewLeft s }

/-- Largest RATE, 500 ppm in 2^-44 (R131). -/
def rateLimit : Int := 0x20C49BA5E

/-- RATE takes a value already within the limits; its registers follow, and the log of LOCKED operation (R131, R138). -/
def setRate (r : Int) : Eff := rd fun s => chain [
  rebase fun t => { t with rate := r, rateLog := if t.st = .locked then (s.raw, some r) :: t.rateLog else t.rateLog },
  setReg Reg.TIM_RATE_LO (word (wrapTo 40 r)),
  setReg Reg.TIM_RATE_HI (word (wrapTo 40 r / 2 ^ 32))]

/-- STATE changes; the log of LOCKED operation follows its entries and its ends (R138). [DEDUCED, log 41] -/
def setTimeSt (st : TimeSt) : Eff := rd fun s => modTim fun t =>
  { t with st := st, rateLog :=
      if st = .locked ∧ t.st ≠ .locked then (s.raw, some t.rate) :: t.rateLog
      else if st ≠ .locked ∧ t.st = .locked then (s.raw, none) :: t.rateLog else t.rateLog }

/-- A slew of `d` starts, at SLEW_PPM; no slew for no error (R137). -/
def startSlew (d : Int) (auto : Bool) : Eff := rd fun s =>
  let ppm : Int := regFld s Reg.TIM_HOLD 19 16
  rebase fun t => { t with
    slew := if d = 0 then 0 else if d < 0 then -ppm else ppm
    slewDue := d, slewAuto := auto }

/-- The partners that take SYNC: ACTIVE with NEEDS_SYNC set (R100, R142). -/
def syncPartners (s : State) : List Nat :=
  (s.plk.partners.filter fun e => e.2.st == .active && (leAt e.2.desc 43 1).testBit 3).map Prod.fst

/-! ## Steps -/

/-- Every time a tap holds for its deadline moves with a step. -/
def shiftTap (d : Int) (t : Tap) : Tap :=
  let item := fun (i : TapItem) => match i with
    | .line l => .line { l with time := l.time + d }
    | .close c => .close c
  { t with
    inq := t.inq.map fun e => (e.1, e.2 + d), mid := t.mid.map item, outq := t.outq.map item
    hist := t.hist.map fun l => { l with time := l.time + d } }

/-- Every D_OUT end of a packet moves with a step. -/
def shiftPacket (d : Int) (p : Packet) : Packet := { p with due := p.due.map (· + d) }

/-- A strobe pulse under a step. -/
def shiftPulse (d : Int) (p : StbPulse) : StbPulse := { p with start := p.start + d, stop := p.stop + d }

/-- A time in the first eight bytes of a payload moves with a step. -/
def shiftTime (d : Int) (bs : List Byte) : List Byte := leBytes 8 (wrapTo 64 (leAt bs 0 8 + sar d 32)) ++ bs.drop 8

/-- The TIME_NS of a queued TRIGGER and the APPLY_NS of a queued CORR move with a step. -/
def shiftFrame (d : Int) (f : TxFrame) : TxFrame :=
  match f.body with
  | .trigger g q bs => { f with body := .trigger g q (shiftTime d bs) }
  | .corr m k bs => { f with body := .corr m k (shiftTime d bs) }
  | _ => f

/-- Every pending schedule moves by `d` (R140, R165): triggers and time-mode exposures, encoder edges, cycle starts,
relays, trigger records, apply points, frames not yet sent and output deadlines. -/
def shiftSchedules (d : Int) : Eff := chain [
  modPlk fun k => { k with txq := k.txq.map (shiftFrame d) },
  modTim fun t => { t with
    gens := t.gens.map fun e => (e.1, { e.2 with
      next := e.2.next + d, pending := e.2.pending.map fun x => { x with time := x.time + d } })
    webs := t.webs.map fun w => { w with edges := w.edges.map fun x => (x.1 + d, x.2) }
    relays := t.relays.map fun r => { r with ingress := r.ingress + d }
    cycNext := t.cycNext.map (· + d)
    cycles := t.cycles.map fun c => { c with start := c.start + d } },
  modCap fun c => { c with pipes := c.pipes.map fun e =>
    (e.1, { e.2 with trigs := e.2.trigs.map fun x => { x with time := x.time + d } }) },
  modNzl fun n => { n with
    sides := n.sides.map fun x => { x with
      lastEnd := x.lastEnd.map (· + d), runs := x.runs.map fun c => { c with start := c.start + d } }
    mods := n.mods.map fun e => (e.1, { e.2 with set := e.2.set.map fun x => { x with apply := x.apply + d } }) },
  modTaps fun o => { o with taps := o.taps.map fun e => (e.1, shiftTap d e.2) },
  modPer fun p => { p with
    podAt := p.podAt.map fun e => (e.1 + d, e.2)
    strobes := p.strobes.map fun e => (e.1, { e.2 with
      pulses := e.2.pulses.map (shiftPulse d), active := e.2.active.map (shiftPulse d) }) },
  modStore fun m => { m with producers := m.producers.map fun e =>
    (e.1, { e.2 with buf := e.2.buf.map (shiftPacket d), spill := e.2.spill.map (shiftPacket d) }) }]

/-- After a step a boundary is pulsed when T reaches it: not one that a forward step jumped over. The first pulse after a
forward step carries the marker (R139). [DEDUCED, log 39] -/
def jumpPulses (before after : Int) (t : Tim) (period : Int) : Tim :=
  { t with
    ppsFrom := -(-after / oneSec), ppsMark := t.ppsMark || decide (before < after)
    tpFrom := -(-after / max 1 period), tpMark := t.tpMark || decide (before < after) }

/-- Device time steps by `d`; `cause` is 1 for software and 2 under R136 (R139, R140). [DEDUCED, log 39, 41] -/
def stepTime (d : Int) (cause : Nat) : Eff := rd fun s => chain [
  rebase fun t => { t with base := t.base + d, stepSum := t.stepSum + d },
  rd fun s' => modTim fun t =>
    jumpPulses (timeNow s) (timeNow s') t ((regGet s Reg.TIM_TP_PERIOD).toNat * 1000 * oneNs),
  shiftSchedules d,
  each (syncPartners s) fun p => sendTo p 0 0x10 (.syncOrigin s.plk.syncSeq true),
  modPlk fun k => { k with syncSeq := (k.syncSeq + 1) % 2 ^ 16 },
  raise 0x0713 0xFFFF notice (arg64 (sar d 16)) cause,
  journalMark 3 (arg64 (sar d 16))]

/-! ## Sources -/

/-- Bits of PRESENT and EN: PTM, 1PPS, upstream. -/
def srcBit (src : Nat) : Nat := src - 1

/-- A source is enabled and present (R132). -/
def srcUsable (s : State) (src : Nat) : Bool :=
  regBit s Reg.TIM_SRC (srcBit src) && s.tim.present.testBit (srcBit src)

/-- Measurements in a row of a source. -/
def srcRun (t : Tim) (src : Nat) : Nat :=
  match src with
  | 1 => t.runPtm
  | 2 => t.runPps
  | _ => t.runUp

/-- Set a source's measurements in a row. [DEDUCED, log 38] -/
def setRun (src n : Nat) (t : Tim) : Tim :=
  match src with
  | 1 => { t with runPtm := n }
  | 2 => { t with runPps := n }
  | _ => { t with runUp := n }

/-- The source to select (R132): the one in force while it lasts, unless a higher one has been present for three of its
intervals; otherwise the highest that is usable. [DEDUCED, log 38] -/
def chooseSource (s : State) : Nat :=
  let cur := s.tim.sel
  if cur ≠ 0 ∧ srcUsable s cur then
    (firstWhere (fun i => srcUsable s i && decide (6 ≤ srcRun s.tim i)) ((upto 3).map (· + 1) |>.filter (· < cur))).getD cur
  else (firstWhere (srcUsable s) [1, 2, 3]).getD 0

/-- The ticks of the last 64 s of LOCKED operation, and the sum of RATE over them (R138): back from raw count `upto`, with
`left` ticks still to take. -/
def lockedRate : Nat → Nat → List (Nat × Option Int) → Nat × Int
  | _, _, [] => (0, 0)
  | upto, left, (from', none) :: rest => lockedRate (min upto from') left rest
  | upto, left, (from', some r) :: rest =>
    let k := min (upto - from') left
    let x := lockedRate from' (left - k) rest
    (k + x.1, r * (k : Int) + x.2)

/-- The average of RATE over the last 64 s of LOCKED operation, or over all of it if that is shorter, rounded down (R138).
[DEDUCED, log 39] -/
def averageRate (s : State) : Int :=
  let x := lockedRate s.raw 32000000000 s.tim.rateLog
  if x.1 = 0 then s.tim.rate else x.2 / (x.1 : Int)

/-- All time signals are lost (R138). -/
def loseTime : Eff := rd fun s =>
  match s.tim.st with
  | .locked =>
    let r := averageRate s
    chain [
      setTimeSt .holdover,
      setRate r,
      raise 0x0711 0xFFFF degraded (arg64 r) (arg64 s.tim.offset),
      journalMark 4 0]
  | .acquiring => setTimeSt .free
  | _ => skip

/-- The selected source follows the presence of the sources (R132): SOURCE_CHANGE, and the next measurement of a new
source is its acquisition (R136). -/
def reselect : Eff := rd fun s =>
  let new := chooseSource s
  when (new != s.tim.sel) (chain [
    modTim fun t => { t with sel := new, acquire := new != 0, integ := t.rate, lastMeas := none },
    raise 0x0710 0xFFFF notice new s.tim.sel,
    when (new == 0) loseTime])

/-- A measurement of a source in a row: the third makes it present. -/
def sourceSeen (src : Nat) : Eff := chain [
  modTim fun t => setRun src (srcRun t src + 1) t,
  rd fun s => when (decide (3 ≤ srcRun s.tim src))
    (modTim fun t => { t with present := t.present ||| 2 ^ srcBit src }),
  reselect]

/-- A source is absent: it is not present, and its measurements in a row start again. -/
def dropSource (src : Nat) (t : Tim) : Tim := { setRun src 0 t with present := clearMask t.present (2 ^ srcBit src) }

/-- A source is no longer present. -/
def sourceGone (src : Nat) : Eff := chain [modTim (dropSource src), reselect]

/-! ## Measurements -/

/-- Gains in force: KP and KI in 2^-16 (R133). [DEDUCED, log 38] -/
def servoGains (s : State) : Nat × Nat :=
  if atExpert s Reg.TIM_CTRL then (regFld s Reg.TIM_SERVO 31 16, regFld s Reg.TIM_SERVO 15 0)
  else match regFld s Reg.TIM_SRC 5 4 with
    | 0 => (0x8000, 0x2000)
    | 1 => (0x4000, 0x0800)
    | _ => (0x1000, 0x0100)

/-- The servo takes the error `e` (2^-32 ns) and the raw ticks since the last measurement; a gain K adds
K * e / tau, which is e * K / (32 * ticks) in 2^-44, rounded down; RATE is clamped (R21, R131, R133).
[DEDUCED, log 38] -/
def servo (e : Int) : Eff := rd fun s => match s.tim.lastMeas with
  | none => modTim fun t => { t with lastMeas := some s.raw }
  | some last =>
    let k := servoGains s
    let term := fun (g : Nat) => e * g / ((32 * (s.raw - last) : Nat) : Int)
    let integ := s.tim.integ + term k.2
    let raw := integ + term k.1
    let r := clampI (-rateLimit) rateLimit raw
    chain [
      modTim fun t => { t with lastMeas := some s.raw, integ := clampI (-rateLimit) rateLimit integ },
      policyClamp 0x07 0xFFFF raw r,
      setRate r]

/-- No trigger generator is enabled (R136). -/
def noGenerator (s : State) : Bool := (upto 256).all fun g => !regBit s (Reg.TIM_TRG_CTRL g) 31

/-- Error `e` in 1/16 ns, as TIM_OFFSET saturates it. -/
def offset16 (e : Int) : Int := clampI (-2147483648) 2147483647 (sar e 28)

/-- RETURN_NS in 2^-32 ns. -/
def returnLimit (s : State) : Int := (regFld s Reg.TIM_HOLD 15 0 : Int) * oneNs

/-- An integer's size. -/
def absI (i : Int) : Int := if i < 0 then -i else i

/-- The correction at a measurement (R135, R136): at acquisition any error is removed, later a residual error above
RETURN_NS. In UNSET and COARSE a whole-time source steps, and 1PPS corrects nothing. Answers by HOLDOVER_EXIT when the
measurement is the return from HOLDOVER (R138). [DEDUCED, log 38] -/
def correct (src : Nat) (e : Int) : Eff := rd fun s =>
  let first := s.tim.acquire
  let unset := s.tim.st == .unset || s.tim.st == .coarse
  let big := decide (returnLimit s < absI (if first then e else e - slewLeft s))
  let exit := fun (how : Nat) => when (first && s.tim.st == .holdover)
    (chain [raise 0x0712 0xFFFF notice (arg64 (sar e 28)) how, journalMark 5 0])
  if unset ∧ src = 2 then skip
  else chain [
    modTim fun t => { t with acquire := false },
    if unset then chain [startSlew 0 true, stepTime e 2]
    else if big ∧ regBit s Reg.TIM_CTRL 8 ∧ noGenerator s then chain [startSlew 0 true, stepTime e 2, exit 2]
    else when (first || big) (chain [startSlew e true, exit 1])]

/-- A measurement of the selected source with the offset `e` of source time (R20, R132 to R136). -/
def measure (src : Nat) (e : Int) : Eff := chain [
  levelBoundary Reg.TIM_CTRL,
  modTim fun t => { t with offset := offset16 e },
  rd fun s =>
    let t0 := timeNow s
    chain [
      correct src e,
      rd fun s' =>
        let left := e - (timeNow s' - t0) - (if s'.tim.slew = 0 then 0 else slewLeft s')
        chain [
          servo left,
          rd fun s2 => when (s2.tim.st != .unset && s2.tim.st != .coarse || src != 2)
            (setTimeSt (if s2.tim.slew = 0 ∧ absI left ≤ returnLimit s2 then .locked else .acquiring))]]]

/-- A measurement of a source: it counts towards its presence, and disciplines when the source is selected.
[DEDUCED, log 38] -/
def sourceMeasured (src : Nat) (e : Int) : Eff := chain [
  sourceSeen src,
  rd fun s => when (s.tim.sel == src) (measure src e)]

end Sys2Proof.Machine
end

