-- ==== Sys2Proof/Machine/Time.lean ====
section
/-!
DEFINITION. The commands of the time engine (chapter "Time engine", R126 to R154): reading and adjusting device time,
the sources, pulses, SYNC and DELAY exchanges, web position, trigger generators, cycles and capture channels.
-/
namespace Sys2Proof.Machine

/-! ## Reading and adjusting -/

/-- The words of a device time as TIM_NOW and TIM_CAP lay it out: FRAC, NS, SEC low and high (R127). -/
def nowFrac (t : Int) : Nat := wrapTo 16 (sar t 16)
def nowNs (t : Int) : Word := word (sar t 32 % 10 ^ 9).toNat
def nowSec (t : Int) : Nat := wrapTo 64 (sar t 32 / 10 ^ 9)

/-- The words above FRAC. -/
def timeWords (t : Int) : List Word := [nowNs t, word (nowSec t), word (nowSec t / 2 ^ 32)]

/-- A read of TIM_NOW_FRAC (R129). -/
def nowRead (ini : Ini) : Eff := rd fun s =>
  readLow ini Reg.TIM_NOW_FRAC (word (nowFrac (timeNow s))) (timeWords (timeNow s))

/-- TIM_NOW_READ. -/
def execTimNowRead (ini : Ini) (s : State) : Host.Outcome State Fault Refusal :=
  .next (go (busRead ini Reg.TIM_NOW_FRAC (nowRead ini)) s)

/-- The staged adjustment in 2^-32 ns; SEC signed or not (R130). -/
def staged (s : State) (signed : Bool) : Int :=
  let sec := (regGet s Reg.TIM_ADJ_SEC).toNat
  ((if signed then sint 32 sec else sec) * 10 ^ 9 + (regGet s Reg.TIM_ADJ_NS).toNat) * oneNs
    + (regFld s Reg.TIM_ADJ_CTRL 31 16 * 2 ^ 16 : Nat)

/-- The staged adjustment applies (R130, R137). [DEDUCED, log 41] -/
def adjGo : Eff := rd fun s =>
  let mode := regFld s Reg.TIM_ADJ_CTRL 1 0
  if mode = 3 ∨ 999999999 < (regGet s Reg.TIM_ADJ_NS).toNat then
    raise 0x0718 0xFFFF notice (regGet s Reg.TIM_ADJ_CTRL).toNat (regGet s Reg.TIM_ADJ_NS).toNat
  else chain [
    startSlew 0 false,
    match mode with
    | 0 => stepTime (staged s true) 1
    | 1 => chain [
        rd fun s' => stepTime (staged s false - timeNow s') 1,
        when (s.tim.st == .unset || s.tim.st == .coarse) (setTimeSt (if s.tim.sel = 0 then .free else .acquiring))]
    | _ => chain [
        startSlew (staged s true) (s.tim.sel != 0),
        when (s.tim.sel != 0 && (s.tim.st == .locked || s.tim.st == .acquiring)) (setTimeSt .acquiring)]]

/-- A write of TIM_ADJ_GO. -/
def adjWrite (ini : Ini) (v : Word) : Eff := writeReg ini Reg.TIM_ADJ_GO v fun _ _ => when (bit v 0) adjGo

/-- ADJ_GO. -/
def execAdjGo (ini : Ini) (v : Word) (s : State) : Host.Outcome State Fault Refusal :=
  .next (go (busWrite ini Reg.TIM_ADJ_GO v (adjWrite ini v)) s)

/-- A write of TIM_RATE_HI applies RATE, clamped; the servo goes on from it (R21, R131). -/
def rateWrite (ini : Ini) (v : Word) : Eff := writeReg ini Reg.TIM_RATE_HI v fun _ _ => rd fun s =>
  let r := sint 40 (regWide s Reg.TIM_RATE_LO Reg.TIM_RATE_HI)
  let c := clampI (-rateLimit) rateLimit r
  chain [
    when (c != r) (raise 0x0717 0xFFFF notice Reg.TIM_RATE_HI v.toNat),
    setRate c,
    modTim fun t => { t with integ := c }]

/-- RATE_HI_WRITE. -/
def execRateHiWrite (ini : Ini) (v : Word) (s : State) : Host.Outcome State Fault Refusal :=
  .next (go (busWrite ini Reg.TIM_RATE_HI v (rateWrite ini v)) s)

/-- A write of TIM_SRC: a disabled source is absent, and so is the upstream source when it names another partner (R132). -/
def srcWrite (ini : Ini) (v : Word) : Eff := writeReg ini Reg.TIM_SRC v fun old new => chain [
  modTim fun t =>
    let t := if bit new 0 then t else { dropSource 1 t with ptmBusy := false }
    let t := if bit new 1 then t else { dropSource 2 t with lastPps := none }
    if bit new 2 && fld old 31 20 == fld new 31 20 then t else { dropSource 3 t with lastSync := none },
  reselect]

/-! ## Sources -/

/-- A PTM dialog starts; one still open did not complete in its interval (R132). -/
def ptmStart : Eff := rd fun s => when (regBit s Reg.TIM_SRC 0) (chain [
  modTim fun t => { t with ptmBusy := true, runPtm := if t.ptmBusy && !t.present.testBit 0 then 0 else t.runPtm },
  emit .ptmRequest])

/-- PTM_DIALOG_START. -/
def execPtmDialogStart (s : State) : Host.Outcome State Fault Refusal := .next (go ptmStart s)

/-- A completed dialog with the PTM master time in ns (R132 to R134). -/
def ptmDone (master : Nat) : Eff := rd fun s => when (s.tim.ptmBusy) (chain [
  modTim fun t => { t with ptmBusy := false },
  rd fun s' =>
    let src : Nat := (master + 2 ^ 64 - regWide s' Reg.TIM_PTM_BASE_LO Reg.TIM_PTM_BASE_HI) % 2 ^ 64
    sourceMeasured 1 ((src : Int) * oneNs - timeNow s')])

/-- PTM_DIALOG_DONE. -/
def execPtmDialogDone (master : BitVec 64) (s : State) : Host.Outcome State Fault Refusal :=
  .next (go (ptmDone master.toNat) s)

/-- Source time minus device time at a second edge: to the nearest whole second (R134). [DEDUCED, log 39] -/
def secondError (t : Int) : Int :=
  let r := t % oneSec
  if 2 * r ≤ oneSec then -r else oneSec - r

/-- An edge of PPS_IN: the on-time edge is a measurement, and counts towards presence when it comes 1 s within 100 ppm
after the last (R132, R134). -/
def ppsEdge (rising : Bool) : Eff := rd fun s =>
  when (rising != regBit s Reg.TIM_PULSE_CTRL 1 && regBit s Reg.TIM_SRC 1) (chain [
    modTim fun t =>
      let inTime := match t.lastPps with
        | some r => decide (499950000 ≤ s.raw - r ∧ s.raw - r ≤ 500050000)
        | none => false
      { t with lastPps := some s.raw, runPps := if inTime || t.present.testBit 1 then t.runPps else 0 },
    rd fun s' => sourceMeasured 2 (secondError (timeNow s'))])

/-- PPS_EDGE. -/
def execPpsEdge (rising : Bool) (s : State) : Host.Outcome State Fault Refusal := .next (go (ppsEdge rising) s)

/-- SOURCE_ABSENT (1 PTM, 2 1PPS, 3 upstream). -/
def execSourceAbsent (src : Fin 4) (s : State) : Host.Outcome State Fault Refusal :=
  .next (go (when (src.val != 0) (sourceGone src)) s)

/-- A slew that has removed its error ends (R136, R137). -/
def slewEnd : Eff := rd fun s => when (s.tim.slew != 0 && slewOver s) (chain [
  rebase fun t => { t with slew := 0, slewDue := 0 },
  when (s.tim.st == .acquiring && s.tim.sel != 0) (setTimeSt .locked)])

/-- SLEW_END. -/
def execSlewEnd (s : State) : Host.Outcome State Fault Refusal := .next (go slewEnd s)

/-! ## Pulses -/

/-- A boundary joins the runs of those pulsed. -/
def addPulse (k : Int) : List (Int × Int) → List (Int × Int)
  | (a, b) :: r => if b + 1 = k then (a, k) :: r else (k, k) :: (a, b) :: r
  | [] => [(k, k)]

/-- A boundary is pulsed: T has reached it since the last step, and it was not pulsed before (R139). -/
def pulseDue (done : List (Int × Int)) (first k : Int) : Bool :=
  decide (first ≤ k) && !done.any fun r => decide (r.1 ≤ k ∧ k ≤ r.2)

/-- A second of device time on PPS_OUT (R139). -/
def ppsPulse : Eff := rd fun s =>
  let k := timeNow s / oneSec
  when (regBit s Reg.TIM_PULSE_CTRL 0 && pulseDue s.tim.ppsDone s.tim.ppsFrom k) (chain [
    emit (.ppsOut (regFld s Reg.TIM_PULSE_CTRL 23 16 * 1000000 * (if s.tim.ppsMark then 2 else 1))),
    modTim fun t => { t with ppsDone := addPulse k t.ppsDone, ppsMark := false }])

/-- PPS_OUT_PULSE. -/
def execPpsOutPulse (s : State) : Host.Outcome State Fault Refusal := .next (go ppsPulse s)

/-- The period of TIME_PULSE in 2^-32 ns. -/
def tpPeriod (s : State) : Int := max 1 ((regGet s Reg.TIM_TP_PERIOD).toNat * 1000 * oneNs)

/-- A whole multiple of PERIOD_US on TIME_PULSE (R139); WIDTH 0 disables it. -/
def timePulse : Eff := rd fun s =>
  let k := timeNow s / tpPeriod s
  let width := (regGet s Reg.TIM_TP_WIDTH).toNat
  when (width != 0 && pulseDue s.tim.tpDone s.tim.tpFrom k) (chain [
    emit (.timePulse (width * (if s.tim.tpMark then 2 else 1))),
    modTim fun t => { t with tpDone := addPulse k t.tpDone, tpMark := false }])

/-- A write of TIM_TP_PERIOD: pulses follow at the whole multiples of the new period that T has not passed (R153). -/
def tpWrite (ini : Ini) (v : Word) : Eff := writeReg ini Reg.TIM_TP_PERIOD v fun old new => rd fun s =>
  when (old != new) (modTim fun t => { t with tpDone := [], tpFrom := -(-timeNow s / tpPeriod s) })

/-- TIME_PULSE. -/
def execTimePulse (s : State) : Host.Outcome State Fault Refusal := .next (go timePulse s)

/-! ## SYNC and DELAY -/

/-- With no upstream source the device originates SYNC (R142). -/
def syncOriginate : Eff := rd fun s => when (s.tim.sel != 3) (chain [
  each (syncPartners s) fun p => sendTo p 0 0x10 (.syncOrigin s.plk.syncSeq false),
  modPlk fun k => { k with syncSeq := (k.syncSeq + 1) % 2 ^ 16 }])

/-- SYNC_ORIGINATE. -/
def execSyncOriginate (s : State) : Host.Outcome State Fault Refusal := .next (go syncOriginate s)

/-- The named upstream partner. -/
def upPartner (s : State) : Nat := regFld s Reg.TIM_SRC 31 20

/-- Mean path delay of a partner in 1/16 ns (PT_DELAY). -/
def pathDelay (s : State) (p : Nat) : Nat := (regGet s (Reg.PT_DELAY p)).toNat

/-- A sync interval in raw ticks: 2^LOG_INTERVAL s (R142). -/
def syncTicks (s : State) : Nat := 500000000 / 2 ^ ((16 - regFld s Reg.TIM_SYNC 3 0) % 16)

/-- A whole sync interval has passed without a SYNC of the upstream partner (R132). [DEDUCED, log 38] -/
def syncMissed (s : State) : Bool :=
  (s.tim.lastSync.map fun r => decide (2 * syncTicks s ≤ s.raw - r)).getD false

/-- A SYNC of the upstream partner (R105, R106, R132, R135, R142): a measurement unless it carries TIME_UNSET, and
relayed to the other sync partners while the source is selected. -/
def takeSync (f : RxFrame) : Eff := rd fun s =>
  let p := f.src.toNat
  let pl := f.payload
  let corr := sint 64 (leAt pl 16 8)
  let src := (leAt pl 0 8 * 10 ^ 9 + leAt pl 8 4) * oneNs + (leAt pl 12 2 * 2 ^ 16 : Nat) + corr * 2 ^ 16
    + (pathDelay s p * 2 ^ 28 : Nat)
  let relay := fun (d : Nat) => Relay.mk d (leAt pl 0 8) (leAt pl 8 4) (leAt pl 12 2) (leAt pl 14 2)
    (corr + (pathDelay s p * 2 ^ 12 : Nat)) (leAt pl 24 1) (timeNow s)
  when (p == upPartner s && regBit s Reg.TIM_SRC 2) (
    if (leAt pl 24 1).testBit 3 then sourceGone 3
    else chain [
      modTim fun t => { t with
        lastSync := some s.raw
        runUp := if syncMissed s && !t.present.testBit 2 then 0 else t.runUp },
      sourceMeasured 3 (src - timeNow s),
      rd fun s' => when (s'.tim.sel == 3) (modTim fun t => { t with
        relays := t.relays ++ ((syncPartners s').filter (· != p)).map relay })])

/-- SYNC_RECEIVE. -/
def execSyncReceive (f : RxFrame) (s : State) : Host.Outcome State Fault Refusal :=
  .next (go (receive f 0x10 (ptTimeSrc s f.src.toNat) (fun _ => true) false fun _ => takeSync f) s)

/-- A D_SYNC miss (R143, R495). -/
def dsyncMiss (p seq res : Nat) : Eff := chain [
  countSat Reg.TIM_DSYNC_MISS 1,
  raise 0x0715 p degraded seq res,
  deadlineMiss 4]

/-- The oldest relay that waits for a partner. -/
def relayTo (s : State) (p : Nat) : Option Relay := firstWhere (fun r => r.dst == p) s.tim.relays

/-- A relay's residence in ns (R106). -/
def residence (s : State) (r : Relay) : Nat := (sar (timeNow s - r.ingress) 32).toNat

/-- A relay may still leave: 2 ms have not passed since its ingress (R143). -/
def relayInTime (s : State) (r : Relay) : Bool := decide (timeNow s - r.ingress ≤ 2 * oneMs)

/-- The SYNC of a relay that leaves now, with the HOLDOVER flag in HOLDOVER (R105, R106, R138, R143). [DEDUCED, log 35] -/
def relayBytes (s : State) (r : Relay) (late : Bool) : List Byte :=
  leBytes 8 r.seconds ++ leBytes 4 r.ns ++ leBytes 2 r.frac ++ leBytes 2 r.seq
    ++ leBytes 8 (arg64 (r.corr + sar (timeNow s - r.ingress) 16)) ++ leBytes 8 (r.flags ||| 4 * b2n late ||| b2n (s.tim.st == .holdover))

/-- A relay leaves when its credit allows (R90, R143). -/
def syncRelay (p : Nat) : Eff := rd fun s => match relayTo s p with
  | none => skip
  | some r =>
    let late := decide (regFld s Reg.TIM_SYNC 31 16 < residence s r)
    let f : TxFrame := ⟨ptLane s p, p, 0, 0x10, .bytes (relayBytes s r late)⟩
    when (isActive s p && relayInTime s r && decide (frameCost 32 ≤ available s p 0)) (chain [
      modTim fun t => { t with relays := dropFirst (· == r) t.relays },
      startFrame f,
      when late (dsyncMiss p r.seq (residence s r))])

/-- SYNC_RELAY. -/
def execSyncRelay (p : BitVec 12) (s : State) : Host.Outcome State Fault Refusal := .next (go (syncRelay p.toNat) s)

/-- A relay that could not leave within 2 ms is dropped (R143). -/
def syncRelayDrop (p : Nat) : Eff := rd fun s => match relayTo s p with
  | none => skip
  | some r => when (!relayInTime s r) (chain [
      modTim fun t => { t with relays := dropFirst (· == r) t.relays },
      dsyncMiss p r.seq (2 ^ 63 + residence s r)])

/-- SYNC_RELAY_DROP. -/
def execSyncRelayDrop (p : BitVec 12) (s : State) : Host.Outcome State Fault Refusal :=
  .next (go (syncRelayDrop p.toNat) s)

/-- DELAY_REQ goes to each sync partner and to the upstream partner (R144). -/
def delayReqSend : Eff := rd fun s =>
  let up := upPartner s
  let ps := syncPartners s
  let all := if isActive s up && regBit s Reg.TIM_SRC 2 && !ps.contains up then ps ++ [up] else ps
  chain [
    each all fun p => sendTo p 0 0x11 (.delayReq s.plk.delaySeq),
    modPlk fun k => { k with delaySeq := (k.delaySeq + 1) % 2 ^ 16 }]

/-- DELAY_REQ_SEND. -/
def execDelayReqSend (s : State) : Host.Outcome State Fault Refusal := .next (go delayReqSend s)

/-- A DELAY_REQ is answered with the turnaround from this moment (R107). -/
def takeDelayReq (f : RxFrame) : Eff := rd fun s =>
  sendTo f.src.toNat 0 0x12 (.delayResp (leAt f.payload 0 2) (timeNow s))

/-- DELAY_REQ_RECEIVE. -/
def execDelayReqReceive (f : RxFrame) (s : State) : Host.Outcome State Fault Refusal :=
  .next (go (receivePlain f 0x11 (takeDelayReq f)) s)

/-- The mean path delay is half the round trip less the turnaround, in 1/16 ns (R107). [DEDUCED, log 35] -/
def takeDelayResp (f : RxFrame) : Eff := rd fun s =>
  let p := f.src.toNat
  let q := partnerOf s p
  match q.delayT1 with
  | none => skip
  | some t1 => when (q.delaySeq == leAt f.payload 0 2) (chain [
      modPartner p fun q => { q with delayT1 := none },
      setReg (Reg.PT_DELAY p) (word (wrapTo 32 (sar (timeNow s - t1 - sint 64 (leAt f.payload 4 8) * 2 ^ 16) 29)))])

/-- DELAY_RESP_RECEIVE. -/
def execDelayRespReceive (f : RxFrame) (s : State) : Host.Outcome State Fault Refusal :=
  .next (go (receivePlain f 0x12 (takeDelayResp f)) s)

/-! ## Web position -/

/-- One encoder's web position. -/
def webOf (s : State) (e : Nat) : WebPos := nthD {} e s.tim.webs

/-- Change one encoder's web position. -/
def modWeb (e : Nat) (f : WebPos → WebPos) : Eff := modTim fun t => { t with webs := setNth (f (nthD {} e t.webs)) e t.webs }

/-- The job encoder and its position. -/
def jobEnc (s : State) : Nat := regFld s Reg.TIM_JOB 1 0
def jobWeb (s : State) : WebPos := webOf s (jobEnc s)

/-- The edges kept for the velocity: 64, or those of the last 1 ms if there are more (R146). -/
def keepEdges (t : Int) (l : List (Int × Int)) : List (Int × Int) :=
  if 64 < (l.takeWhile fun e => decide (t - oneMs ≤ e.1)).length then l.takeWhile fun e => decide (t - oneMs ≤ e.1)
  else l.take 64

/-- The velocity as position change and time span (R146); none when the web is still or its span is empty. -/
def velocity (w : WebPos) : Option (Int × Int) :=
  match w.edges, w.edges.getLast? with
  | (t1, x1) :: _, some (t0, x0) => if w.still ∨ t1 ≤ t0 then none else some (x1 - x0, t1 - t0)
  | _, _ => none

/-- Lines per 25.4 mm and OFFSET in pm of a generator. -/
def lpiOf (s : State) (g : Nat) : Nat := max 1 (regFld s (Reg.TIM_TRG_CTRL g) 15 0)
/-- [DEDUCED, log 40] -/
def offsetPm (s : State) (g : Nat) : Int := sint 32 (regGet s (Reg.TIM_TRG_OFFSET g)).toNat * 1000000

/-- X_n times LPI, exactly (R147). -/
def lineScaled (s : State) (g : Nat) (n : Nat) : Int := offsetPm s g * lpiOf s g + n * 25400000000

/-- The lowest n >= 0 whose X_n is at or above a position (R147). [DEDUCED, log 40] -/
def lineFrom (s : State) (g : Nat) (pos : Int) : Nat :=
  (((pos - offsetPm s g) * lpiOf s g + 25399999999) / 25400000000).toNat

/-- One generator. -/
def genOf (s : State) (g : Nat) : Gen := mget {} g s.tim.gens

/-- Change one generator. -/
def modGen (g : Nat) (f : Gen → Gen) : Eff := modTim fun t => { t with gens := mput g (f (mget {} g t.gens)) t.gens }

/-- A declared pipeline names a camera (R156). -/
def cameraNamed (s : State) (c : Nat) : Bool :=
  (upto 256).any fun p => pipeDeclared s p && regFld s (Reg.CAP_CTRL p) 23 12 == c

/-- A generator may form a trigger (R520): enabled, not held, its camera ACTIVE and named by a pipeline (R156).
[DESIGN CHOICE, log 36] -/
def mayTrigger (s : State) (g : Nat) (timeMode : Bool) : Bool :=
  let c := regGet s (Reg.TIM_TRG_CTRL g)
  bit c 31 && bit c 30 == timeMode && !triggersHeld s g && isActive s (fld c 27 16) && cameraNamed s (fld c 27 16)

/-- A generator runs in encoder mode. -/
def encoderRuns (s : State) (g : Nat) : Bool := regBit s (Reg.TIM_TRG_CTRL g) 31 && !regBit s (Reg.TIM_TRG_CTRL g) 30

/-- The highest position already triggered follows the web: the next line lies beyond a position (R520).
[DEDUCED, log 40] -/
def passLines (g : Nat) (pos : Int) : Eff := rd fun s =>
  modGen g fun x => { x with line := max x.line ((pos - offsetPm s g) * lpiOf s g / 25400000000 + 1).toNat }

/-- A count of encoder `e` in a direction: the position moves, the edge is stamped, and a pending JOB_START makes it
zero and restarts the generators (R145, R147, R149). While a generator forms no trigger, its lines pass with the web (R520). -/
def encCount (e : Nat) (forward : Bool) : Eff := rd fun s =>
  let w := regGet s (Reg.TIM_ENC_SCALE e)
  let step : Int := if forward != bit w 31 then fld w 30 0 else -(fld w 30 0 : Int)
  let z := (webOf s e).zero
  let pos := if z then 0 else (webOf s e).pos + step
  chain [
    modWeb e fun x => { x with
      pos := pos, stamped := true, still := false, zero := false
      edges := keepEdges (timeNow s)
        ((timeNow s, pos) :: if z then x.edges.map fun p => (p.1, p.2 - (x.pos + step)) else x.edges) },
    when z (chain [
      putBit Reg.TIM_JOB 31 false,
      each (upto 256) fun g => when (regBit s (Reg.TIM_TRG_CTRL g) 31)
        (modGen g fun x => { x with line := lineFrom s g 0, formed := 0 })]),
    when (e == jobEnc s) (each (upto 256) fun g =>
      when (encoderRuns s g && !mayTrigger s g false) (passLines g pos))]

/-- A write of TIM_JOB: JOB_START zeroes the job encoder's position at its next count (R145). [DEDUCED, log 40] -/
def jobWrite (ini : Ini) (v : Word) : Eff := writeReg ini Reg.TIM_JOB v fun _ new =>
  when (bit v 31) (chain [
    modWeb (fld new 1 0) fun w => { w with zero := true, stamped := false },
    journalMark 6 0])

/-- JOB_START. -/
def execJobStart (ini : Ini) (v : Word) (s : State) : Host.Outcome State Fault Refusal :=
  .next (go (busWrite ini Reg.TIM_JOB v (jobWrite ini v)) s)

/-- With no edge for 10 ms the web is still (R146). -/
def webStill (e : Nat) : Eff := rd fun s =>
  when (((webOf s e).edges.head?.map fun x => decide (10 * oneMs ≤ timeNow s - x.1)).getD true)
    (modWeb e fun w => { w with still := true })

/-- VELOCITY_TIMEOUT (R146). -/
def execVelocityTimeout (e : Fin 4) (s : State) : Host.Outcome State Fault Refusal := .next (go (webStill e) s)

/-! ## Trigger generators -/

/-- The first whole multiple of a period in ns at or after a time (R148, R151). [DEDUCED, log 40] -/
def nextMultiple (t : Int) (ns : Nat) : Int :=
  let p := max 1 ((ns : Int) * oneNs)
  (t + p - 1) / p * p

/-- A zero that is invalid only in the mode in force is ignored at run time (R13, R153). [DESIGN CHOICE, log 15] -/
def zeroIn (ini : Ini) (off : Nat) (bad : Bool) (k : Eff) : Eff := rd fun s =>
  if bad && ini != .cfg && !isLocked s off then raise 0x0702 (unitSource s off) notice off 0 else k

/-- A write of TIM_TRG_PERIOD: zero is invalid in time mode. [DESIGN CHOICE, log 15] -/
def trgPeriod (ini : Ini) (g : Nat) (v : Word) : Eff := rd fun s =>
  zeroIn ini (Reg.TIM_TRG_PERIOD g) (v == 0#32 && regBit s (Reg.TIM_TRG_CTRL g) 30) (writePlain ini (Reg.TIM_TRG_PERIOD g) v)

/-- A write of TIM_ENC_SCALE: zero is invalid while the encoder is the job's. [DESIGN CHOICE, log 15] -/
def encScale (ini : Ini) (e : Nat) (v : Word) : Eff := rd fun s =>
  zeroIn ini (Reg.TIM_ENC_SCALE e) (fld v 30 0 == 0 && regFld s Reg.TIM_JOB 1 0 == e) (writePlain ini (Reg.TIM_ENC_SCALE e) v)

/-- A write of TIM_TRG_CTRL: EN starts the generator (R147 to R149); LPI zero is invalid in encoder mode. -/
def trgWrite (ini : Ini) (g : Nat) (v : Word) : Eff := zeroIn ini (Reg.TIM_TRG_CTRL g) (fld v 15 0 == 0 && !bit v 30) <|
  writeReg ini (Reg.TIM_TRG_CTRL g) v fun old new =>
  when (!bit old 31 && bit new 31) (rd fun s => modGen g fun x => { x with
    line := lineFrom s g (jobWeb s).pos
    next := nextMultiple (timeNow s) (regGet s (Reg.TIM_TRG_PERIOD g)).toNat
    formed := 0 })

/-- TRIGGER_GEN_ENABLE. -/
def execTriggerGenEnable (ini : Ini) (g : Fin 256) (v : Word) (s : State) : Host.Outcome State Fault Refusal :=
  .next (go (busWrite ini (Reg.TIM_TRG_CTRL g) v (trgWrite ini g v)) s)

/-- One pipeline. -/
def pipeOf (s : State) (p : Nat) : Pipe := mget {} p s.cap.pipes

/-- Change one pipeline. -/
def modPipe (p : Nat) (f : Pipe → Pipe) : Eff := modCap fun c => { c with pipes := mput p (f (mget {} p c.pipes)) c.pipes }

/-- Lines S from the first trigger with a new bank to its first line: SETTINGS_LAT, or CAP_SW_LAT at the expert level
(R183, R185). -/
def switchLat (s : State) (p : Nat) : Nat :=
  if atExpert s (Reg.CAP_CTRL p) then regFld s (Reg.CAP_SW_LAT p) 7 0
  else leAt (partnerOf s (regFld s (Reg.CAP_CTRL p) 23 12)).desc 42 1

/-- The bank that is ACTIVE. -/
def activeBank (x : Pipe) : Nat := (firstWhere (fun b => nthD 0 b x.banks == 2) [0, 1, 2, 3]).getD 0

/-- The forming trigger is at or past the boundary of a requested switch (R183). -/
def pastBoundary (first : Bool) (w : Switch) : Bool := w.e.isSome || first || w.atLine

/-- `a` is at or after `b` in serial arithmetic mod 2^16. -/
def seqGe (a b : Nat) : Bool := decide ((a + 2 ^ 16 - b) % 2 ^ 16 < 2 ^ 15)

/-- Lines before E may still come: their triggers have no line yet, or their line is open (R183). -/
def oldExpected (q : Pipe) (e : Nat) : Bool :=
  (q.trigs.any fun t => !t.unsent && !seqGe t.seq e) || ((q.line?.map fun l => l.trig.isSome && !seqGe l.seq e).getD false)

/-- A switch ends once its boundary has been formed and no line with the old bank is left in the pipeline or can still come
(R183). [DEDUCED, log 44] -/
def switchDone (p : Nat) : Eff := rd fun s =>
  let q := pipeOf s p
  match q.switch, firstWhere (fun b => nthD 0 b q.banks == 3) [0, 1, 2, 3] with
  | some w, some old =>
    let left := q.flow.any fun i => match i with
      | .line l => decide (l.stage ≠ 0) && l.bank == old
      | .close _ => false
    match w.first, w.e with
    | some seq, some e => when (!left && !oldExpected q e) (chain [
        modPipe p fun q => { q with banks := setNth 0 old q.banks, switch := none },
        putBit (Reg.CAP_SW p) 31 false,
        raise 0x0917 p notice w.bank seq])
    | _, _ => skip
  | _, _ => skip

/-- A trigger is formed for an exposure start and a web position in pm (R108, R149, R162, R183).
[DESIGN CHOICE, log 36] -/
def formTrigger (g : Nat) (t : Int) (webPm : Int) : Eff := rd fun s =>
  let x := genOf s g
  let c := regGet s (Reg.TIM_TRG_CTRL g)
  let first := x.formed % max 1 (regGet s (Reg.TIM_TRG_FRAME g)).toNat == 0
  let pipe := pipeOf s g
  let past : Bool := match pipe.switch with
    | some w => pastBoundary first w
    | none => false
  let bank := match pipe.switch with
    | some w => if past then w.bank else w.old
    | none => activeBank pipe
  let web := wrapTo 40 (webPm / 1000000)
  chain [
    sendTo (fld c 27 16) 1 0x20 (.trigger g x.seq (leBytes 8 (nsOf t) ++ leBytes 2 x.seq
      ++ leBytes 1 (bank + 4 * b2n first) ++ leBytes 4 (regGet s (Reg.TIM_TRG_EXPO g)).toNat)),
    modGen g fun y => { y with
      seq := (y.seq + 1) % 2 ^ 16, formed := y.formed + 1
      pending := y.pending ++ [⟨x.seq, t, false⟩] },
    stbSchedule g x.seq t,
    modPipe g fun q => { q with
      trigs := if q.trigs.length < 64 then
          q.trigs ++ [⟨x.seq, t, web, bank, false, s.tim.st == .holdover, false⟩] else q.trigs
      switch := q.switch.map fun w =>
        if past ∧ w.e.isNone then { w with e := some ((x.seq + switchLat s g) % 2 ^ 16) } else w },
    switchDone g]

/-- The trigger of an exposure start is due: T has reached t_n - LEAD (R147). -/
def leadReached (s : State) (g : Nat) (t : Int) : Bool :=
  decide (t - (regGet s (Reg.TIM_TRG_LEAD g)).toNat * oneNs ≤ timeNow s)

/-- An encoder-mode trigger for the lowest line beyond the highest position already triggered (R147); a generator that may
form none lets the lines pass (R520). [DEDUCED, log 40] -/
def triggerForm (g : Nat) : Eff := rd fun s =>
  let w := jobWeb s
  match velocity w, w.edges with
  | some (dx, dt), (te, xe) :: _ =>
    let n := (genOf s g).line
    let x := lineScaled s g n
    let l : Int := lpiOf s g
    let t := te + (x - xe * l) * dt / (l * dx)
    if mayTrigger s g false then when (decide (0 < dx) && leadReached s g t) (chain [
      modGen g fun y => { y with line := n + 1 },
      formTrigger g t (x / l)])
    else when (encoderRuns s g) (passLines g xe)
  | _, _ => skip

/-- TRIGGER_FORM. -/
def execTriggerForm (g : Fin 256) (s : State) : Host.Outcome State Fault Refusal := .next (go (triggerForm g) s)

/-- The job web position at a time, in pm; 0 when no edge was stamped since JOB_START (R149). -/
def webAt (w : WebPos) (t : Int) : Int :=
  if !w.stamped then 0
  else match velocity w, w.edges with
    | some (dx, dt), (te, xe) :: _ => xe + dx * (t - te) / dt
    | _, _ => w.pos

/-- The next exposure of a time-mode generator: past instants are over. -/
def nextExposure (s : State) (g : Nat) : Int :=
  let p : Int := (regGet s (Reg.TIM_TRG_PERIOD g)).toNat * oneNs
  let next := (genOf s g).next
  if next < timeNow s ∧ 0 < p then next + (timeNow s - next + p - 1) / p * p else next

/-- A time-mode trigger; a period that elapses while none is formed produces nothing (R148, R520). [DEDUCED, log 40] -/
def triggerFormTime (g : Nat) : Eff := rd fun s =>
  let t := nextExposure s g
  let pass := modGen g fun y => { y with next := t + (regGet s (Reg.TIM_TRG_PERIOD g)).toNat * oneNs }
  when (leadReached s g t) (
    if mayTrigger s g true then chain [pass, formTrigger g t (webAt (jobWeb s) t)]
    else when (regBit s (Reg.TIM_TRG_CTRL g) 31 && regBit s (Reg.TIM_TRG_CTRL g) 30) pass)

/-- TRIGGER_FORM_TIME. -/
def execTriggerFormTime (g : Fin 256) (s : State) : Host.Outcome State Fault Refusal :=
  .next (go (triggerFormTime g) s)

/-- A D_LINE miss (R150, R495). -/
def dlineMiss (g : Nat) (t : PendTrig) (unsent : Bool) : Eff := chain [
  countSat Reg.TIM_DLINE_MISS 1,
  raise 0x0714 g degraded (nsOf t.time) (t.seq + b2n unsent * 2 ^ 32),
  deadlineMiss 0]

/-- Cable length of a lane in cm for D_LINE (R150). -/
def lineLength (s : State) (n : Nat) : Nat :=
  let c := (laneOf s n).chan
  if bit c 30 then fld c 27 16 else if n < 112 then 200 else 30

/-- A sent trigger leaves: D_LINE is checked against its camera's lead (R150). -/
def triggerEgress (g : Nat) : Eff := rd fun s =>
  match firstWhere (fun x => x.sent) (genOf s g).pending with
  | none => skip
  | some x =>
    let p := regFld s (Reg.TIM_TRG_CTRL g) 27 16
    let reach := timeNow s + 400 * oneNs + (lineLength s (ptLane s p) : Int) * oneNs / 20
    chain [
      modGen g fun y => { y with pending := dropFirst (· == x) y.pending },
      when (decide (x.time - leAt (partnerOf s p).desc 32 4 * oneNs < reach)) (chain [
        modPipe g fun q => { q with trigs := q.trigs.map fun r => if r.seq = x.seq then { r with late := true } else r },
        dlineMiss g x false])]

/-- TRIGGER_EGRESS. -/
def execTriggerEgress (g : Fin 256) (s : State) : Host.Outcome State Fault Refusal := .next (go (triggerEgress g) s)

/-- The queued frame of a trigger. -/
def isTrigFrame (g seq : Nat) (f : TxFrame) : Bool :=
  match f.body with
  | .trigger g' q _ => g' == g && q == seq
  | _ => false

/-- A trigger still queued at its TIME_NS is not sent, and its line is not expected (R150, R164). -/
def triggerUnsent (g : Nat) : Eff := rd fun s =>
  match firstWhere (fun x => !x.sent && decide (sar x.time 32 ≤ sar (timeNow s) 32)) (genOf s g).pending with
  | none => skip
  | some x => chain [
      modGen g fun y => { y with pending := dropFirst (· == x) y.pending },
      stbUnsent g x.seq,
      modPlk fun k => { k with txq := dropFirst (isTrigFrame g x.seq) k.txq },
      modPipe g fun q => { q with trigs := q.trigs.map fun r => if r.seq = x.seq then { r with unsent := true } else r },
      dlineMiss g x true]

/-- TRIGGER_UNSENT. -/
def execTriggerUnsent (g : Fin 256) (s : State) : Host.Outcome State Fault Refusal := .next (go (triggerUnsent g) s)

/-! ## Cycles -/

/-- A write of TIM_CYC_CTRL: EN starts cycle 0 at the next whole multiple of PERIOD_MS (R151). -/
def cycWrite (ini : Ini) (v : Word) : Eff := writeReg ini Reg.TIM_CYC_CTRL v fun old new =>
  when (!bit old 31 && bit new 31) (rd fun s => modTim fun t => { t with
    cycNext := some (nextMultiple (timeNow s) (fld new 9 0 * 1000000)), cycNum := 0 })

/-- CYCLE_ENABLE. -/
def execCycleEnable (ini : Ini) (v : Word) (s : State) : Host.Outcome State Fault Refusal :=
  .next (go (busWrite ini Reg.TIM_CYC_CTRL v (cycWrite ini v)) s)

/-- The start of the next cycle, once T has reached it (R151). -/
def cycleDue (s : State) : Option Int := s.tim.cycNext.filter fun t => decide (t ≤ timeNow s)

/-- The next cycle starts, with the PERIOD_MS in force; with EN clear the last one ended (R151). -/
def cycleStart : Eff := rd fun s =>
  match cycleDue s with
  | none => skip
  | some t =>
    if regBit s Reg.TIM_CYC_CTRL 31 then
      let ms := regFld s Reg.TIM_CYC_CTRL 9 0
      modTim fun x => { x with
        cycles := ⟨x.cycNum, t, ms⟩ :: x.cycles.take 15
        cycNum := (x.cycNum + 1) % 2 ^ 32
        cycNext := some (t + ms * oneMs) }
    else modTim fun x => { x with cycNext := none }

/-! ## Event capture -/

/-- A SOURCE code of a capture channel that captures (R152). -/
def capSource (n : Nat) : Bool := decide (n ≤ 0x17 ∨ (0x20 ≤ n ∧ n ≤ 0x44))

/-- An edge on a channel's source (R152). -/
def capEdge (c : Nat) (rising : Bool) : Eff := rd fun s =>
  let w := regGet s (Reg.TIM_CAP_CTRL c)
  let fifo := mget [] c s.tim.caps
  when (bit w 31 && capSource (fld w 6 0) && bit w (if rising then 8 else 9)) (
    if fifo.length < 16 then modTim fun t => { t with caps := mput c (fifo ++ [(timeNow s, rising)]) t.caps }
    else chain [
      countSat (Reg.TIM_CAP_LOST c) 1,
      rd fun s' => raise 0x0716 c notice c (regGet s' (Reg.TIM_CAP_LOST c)).toNat])

/-- CAPTURE_EDGE. -/
def execCaptureEdge (c : Fin 16) (rising : Bool) (s : State) : Host.Outcome State Fault Refusal :=
  .next (go (capEdge c rising) s)

/-- A read of TIM_CAP_FRAC pops the oldest stamp for all and latches its words (R129, R152). [DEDUCED, log 42] -/
def capPop (ini : Ini) (c : Nat) : Eff := rd fun s =>
  match mget [] c s.tim.caps with
  | [] => emit (.read ini (Reg.TIM_CAP_FRAC c) 0#32)
  | (t, r) :: rest => chain [
      modTim fun x => { x with caps := mput c rest x.caps },
      readLow ini (Reg.TIM_CAP_FRAC c) (word (2 ^ 31 + b2n r * 2 ^ 16 + nowFrac t)) (timeWords t)]

/-- CAPTURE_POP. [DEDUCED, log 42] -/
def execCapturePop (ini : Ini) (c : Fin 16) (s : State) : Host.Outcome State Fault Refusal :=
  .next (go (busRead ini (Reg.TIM_CAP_FRAC c) (capPop ini c)) s)

/-! ## Views -/

/-- The words of TIM that are views of its state. -/
def timView (s : State) (off : Nat) : Option Word :=
  let t := s.tim
  if off = Reg.TIM_STATUS then some (word (b2n (atExpert s Reg.TIM_CTRL) * 2 ^ 24 + t.sel * 2 ^ 16
    + t.present * 2 ^ 8 + b2n (t.slew != 0) * 2 ^ 7 + t.st.code))
  else if off = Reg.TIM_SERVO ∧ !atExpert s Reg.TIM_CTRL then
    some (word ((servoGains s).1 * 2 ^ 16 + (servoGains s).2))
  else if off = Reg.TIM_OFFSET then some (word (wrapTo 32 t.offset))
  else if off = Reg.TIM_CYC_NUM then some (word ((t.cycles.head?.map fun c => c.num).getD 0))
  else if off = Reg.TIM_WEB_LO then some (word (wrapTo 40 ((jobWeb s).pos / 1000000)))
  else if off = Reg.TIM_WEB_HI then some (word (wrapTo 40 ((jobWeb s).pos / 1000000) / 2 ^ 32))
  else if Reg.TIM_TRG_CTRL 0 ≤ off ∧ off < Reg.TIM_TRG_CTRL 256 ∧ off % 0x20 = 0x18 then
    some (word (genOf s ((off - Reg.TIM_TRG_CTRL 0) / 0x20)).seq)
  else none

end Sys2Proof.Machine
end

