-- ==== Sys2Proof/Machine/MemOps.lean ====
section
/-!
DEFINITION. Device memory as every block uses it (chapter "Memory, buffers and queues"): the ranges of R290, poisoned
words (R310, R311), owners and guards (R293, R294), and the packets of producers with the evidence reserve
(R304 to R306).
-/
namespace Sys2Proof.Machine

/-! ## Ranges and poison -/

/-- `n` bytes from `a` lie within one range of the device address space (R290). -/
def inMap (a n : Nat) : Bool :=
  decide (a + n ≤ 0x10000000)
    || decide (0x20000000 ≤ a ∧ a + n ≤ 0x20400000)
    || decide (0x1000000000 ≤ a ∧ a + n ≤ 0x2000000000)

/-- Bytes of an ECC word at an address: 32 in DRAM, 8 elsewhere (R310). -/
def eccBytes (a : Nat) : Nat := if 0x1000000000 ≤ a then 32 else 8

/-- The poisoned words that `n` bytes from `a` touch. -/
def poisoned (s : State) (a n : Nat) : List Nat :=
  s.store.poison.filter fun w => decide (w < a + n ∧ a < w + eccBytes w)

/-- A read of a poisoned word by a block reports it (R311). -/
def reportPoison (blk : Nat) (ws : List Nat) : Eff := each ws fun w => chain [
  countSat Reg.MEM_ECC_UNCORR 1,
  setReg Reg.MEM_ERR_ADDR_LO (word w),
  setReg Reg.MEM_ERR_ADDR_HI (word (w / 2 ^ 32)),
  raise 0x0E1A 0xFFFF degraded w blk]

/-- The 64-byte block of a reservation holds a byte of `n` bytes from `a` (R404). [DEDUCED, log 106] -/
def breaks (a n : Nat) (c : Core) : Bool := c.reserved.any fun b => decide (64 * b < a + n ∧ a < 64 * b + 64)

/-- A write to a reserved block ends the reservation (R404). [DEDUCED, log 106] -/
def breakReserved (a n : Nat) : Eff := rd fun s => when (s.cco.cores.any fun e => breaks a n e.2) (modCco fun c =>
  { c with cores := c.cores.map fun e => if breaks a n e.2 then (e.1, { e.2 with reserved := none }) else e })

/-- Bytes are written: a word written in full is no longer poisoned (R311), and reservations of the blocks end. -/
def storeBytes (a : Nat) (bs : List Byte) : Eff := rd fun s => chain [
  memWrite a bs,
  breakReserved a bs.length,
  when (!(poisoned s a bs.length).isEmpty) (modStore fun m => { m with
    poison := m.poison.filter fun w => !decide (a ≤ w ∧ w + eccBytes w ≤ a + bs.length) })]

/-! ## Owners and guards -/

/-- The unit of an address: its kind (0 block, 1 granule) and index; none in the control SRAM. -/
def unitOf (a : Nat) : Option (Nat × Nat) :=
  if a < 0x10000000 then some (0, a / 0x1000)
  else if 0x1000000000 ≤ a then some (1, (a - 0x1000000000) / 0x10000) else none

/-- First device address of a unit, and its size. -/
def unitBase (kind i : Nat) : Nat := if kind = 0 then 0x1000 * i else 0x1000000000 + 0x10000 * i
def unitBytes (kind : Nat) : Nat := if kind = 0 then 0x1000 else 0x10000

/-- ACT_COUNT, BANDS and N of a pipeline (R180). -/
def actCount (s : State) (p : Nat) : Nat := regFld s (Reg.CAP_ACT p) 31 16
def inBands (s : State) (p : Nat) : Nat := regFld s (Reg.CAP_FMT p) 18 16
def tableN (s : State) (p : Nat) : Nat := actCount s p * inBands s p

/-- `n` rounded up to 4 KiB. -/
def up4k (n : Nat) : Nat := ceilDiv n 0x1000 * 0x1000

/-- The table area of a bank: DREF, DMAP, FLAT and TONE (R180). -/
def bankBase (s : State) (p b : Nat) : Nat := regWide s (Reg.BK_TBL_LO p b) (Reg.BK_TBL_HI p b)
def drefAt (s : State) (p b : Nat) : Nat := bankBase s p b
def dmapAt (s : State) (p b : Nat) : Nat := drefAt s p b + up4k (2 * tableN s p)
def flatAt (s : State) (p b : Nat) : Nat := dmapAt s p b + up4k (2 * tableN s p)
def toneAt (s : State) (p b : Nat) : Nat := flatAt s p b + up4k (4 * tableN s p)
def bankEnd (s : State) (p b : Nat) : Nat := toneAt s p b + 8192

/-- State of a bank (R181). -/
def bankSt (s : State) (p b : Nat) : Nat := nthD 0 b (pipeOf s p).banks

/-- The bank that is not FREE and whose tables hold an address of a unit that pipeline `p` owns. -/
def guardBank (s : State) (p a n : Nat) : Option Nat :=
  firstWhere (fun b => bankSt s p b != 0 && decide (bankBase s p b < a + n ∧ a < bankEnd s p b)) [0, 1, 2, 3]

/-- A range guarded for a load from device memory (R380). [DEDUCED, log 84] -/
def guardImage (s : State) (a n : Nat) : Bool :=
  match s.store.image with
  | some (b, l) => decide (b < a + n ∧ a < b + l)
  | none => false

/-- The LUT area of a bar whose LUT is being reloaded holds the address (R245). -/
def guardLut (s : State) (a n : Nat) : Bool := s.store.lutBusy.any fun r =>
  let b := regWide s (Reg.CMP_BAR_LUT_LO r) (Reg.CMP_BAR_LUT_HI r)
  decide (b < a + n ∧ a < b + 1002252)

/-- A granule of the extent index, which the journal guards (R317). -/
def guardIndex (s : State) (i : Nat) : Bool :=
  let b := regWide s Reg.JRN_INDEX_LO Reg.JRN_INDEX_HI
  let g := 0x1000000000 + i * 0x10000
  decide (b < g + 0x10000 ∧ g < b + 8 * regFld s Reg.JRN_EXTENTS 28 0)

/-- Why a write of `n` bytes at `a` is dropped. -/
inductive Guard where
  | none
  | bank (p b : Nat)
  | unit (owner : Nat)
  deriving DecidableEq, Repr

/-- The guard on a unit (R294): its owner's block guards the whole of it. -/
def unitGuard (s : State) (k i : Nat) : Guard :=
  let a := unitBase k i
  let n := unitBytes k
  let o := ownerOf s k i
  if o / 2 ^ 12 = 8 then .unit o
  else match (if o / 2 ^ 12 = 1 then guardBank s (o % 2 ^ 12) a n else .none) with
    | some b => .bank (o % 2 ^ 12) b
    | .none => if guardImage s a n || guardLut s a n || (k == 1 && o == 0x3000 && guardIndex s i) then .unit o else .none

/-- Pieces of a device range that lie in one unit each. -/
def unitPieces : Nat → Nat → List Byte → List (Nat × List Byte)
  | 0, _, _ => []
  | fuel + 1, a, bs =>
    if bs.isEmpty then []
    else
      let u := if 0x1000000000 ≤ a then 0x10000 else 0x1000
      let k := u - a % u
      (a, bs.take k) :: unitPieces fuel (a + k) (bs.drop k)

/-- The pieces of `n` bytes from an address, as ranges: at most one to a unit. -/
def unitRanges : Nat → Nat → Nat → List (Nat × Nat)
  | 0, _, _ => []
  | fuel + 1, a, n =>
    let u := if 0x1000000000 ≤ a then 0x10000 else 0x1000
    let k := u - a % u
    if n ≤ k then [(a, n)] else (a, k) :: unitRanges fuel (a + k) (n - k)

/-- The guard on the unit of an address, for `n` bytes that do not leave it (R294). -/
def guardAt (s : State) (a n : Nat) : Guard := match unitOf a with
  | .none => if guardImage s a n then .unit 0 else .none
  | some (k, i) => unitGuard s k i

/-- The first guard that `n` bytes at an address meet for the host, the cores and the Mover (R294). -/
def guardOf (s : State) (a n : Nat) : Guard :=
  ((unitRanges (n / 0x1000 + 2) a n).map fun r => guardAt s r.1 r.2).foldl (fun g h => if g = .none then h else g) .none

/-- A unit is guarded (R294, R296). -/
def unitGuarded (s : State) (kind i : Nat) : Bool := unitGuard s kind i != .none

/-- A write within one unit is dropped, with the event of its guard. -/
def dropWrite (a : Nat) (g : Guard) (bs : List Byte) : Eff := match g with
  | .none => storeBytes a bs
  | .bank p b => raiseMerge 0x091A p notice a b
  | .unit o => raise 0x0E12 0xFFFF notice a o

/-- A write by the host, a core or the Mover: what falls into a guarded unit is dropped with its event (R294). -/
def softWrite (a : Nat) (bs : List Byte) : Eff := rd fun s =>
  match guardOf s a bs.length with
  | .none => storeBytes a bs
  | _ => each (unitPieces (bs.length + 1) a bs) fun p => rd fun t => dropWrite p.1 (guardAt t p.1 p.2.length) p.2

/-! ## Producers and the evidence reserve -/

/-- One producer. [DESIGN CHOICE, log 55] -/
def producerOf (s : State) (k : Nat) : Producer := mget {} k s.store.producers

/-- Change one producer. [DESIGN CHOICE, log 55] -/
def modProducer (k : Nat) (f : Producer → Producer) : Eff :=
  modStore fun m => { m with producers := mput k (f (mget {} k m.producers)) m.producers }

/-- Bytes of a producer's spilled packets that are not yet delivered: in the reserve, or already in its buffer. -/
def spillHeld (x : Producer) : Nat :=
  sumOf (fun p => p.payload.length) (x.spill ++ x.buf.filter fun p => p.spilled)

/-- Reserve granules a producer holds: those with a spilled packet that is not yet delivered; its packets lie one after
another, and a drained part of a granule is not used again (R305). [DEDUCED, log 46] -/
def granulesOf (x : Producer) : Nat :=
  if spillHeld x = 0 then 0 else (x.spillEnd - 1) / 0x10000 - (x.spillEnd - spillHeld x) / 0x10000 + 1

/-- A packet joins the spilled ones, behind the newest, or in a granule of its own. [DEDUCED, log 46] -/
def addSpill (p : Packet) (x : Producer) : Producer :=
  let first := if spillHeld x = 0 then 0 else (x.spillEnd - spillHeld x) % 0x10000
  { x with spill := x.spill ++ [p], spillEnd := first + spillHeld x + p.payload.length }

/-- Reserve granules free (MEM_RES_FREE). [DEDUCED, log 46] -/
def reserveFree (s : State) : Nat := 65536 - sumOf (fun e => granulesOf e.2) s.store.producers

/-- A producer's share of the reserve (R305). -/
def shareLimit (s : State) : Nat := regFld s Reg.MEM_RES_CFG 6 0 * 65536 / 100

/-- The reserve can take a packet of a producer (R305). -/
def canSpill (s : State) (k : Nat) (p : Packet) : Bool :=
  let x := producerOf s k
  let more := granulesOf (addSpill p x) - granulesOf x
  decide (more ≤ reserveFree s) && decide (granulesOf x + more ≤ shareLimit s)

/-- RESERVE_LOW follows the free granules (R306). -/
def reserveLevel : Eff := rd fun s =>
  let low := decide (reserveFree s < 8192)
  when (low != s.store.resLow) (chain [
    modStore fun m => { m with resLow := low },
    when low (raise 0x0E16 0xFFFF notice (reserveFree s) 0)])

/-- A producer starts or goes on discarding; the first one raises RESERVE_EXHAUSTED (R306). -/
def startDiscard (k lines : Nat) : Eff := rd fun s =>
  let any := s.store.producers.any fun e => e.2.discarding
  chain [
    when (!any) (raise 0x0E17 0xFFFF degraded (if 0x1100 ≤ k ∧ k < 0x2000 then k - 0x100 else k) (reserveFree s)),
    modProducer k fun x => { x with discarding := true },
    modStore fun m => { m with episode := m.episode + lines },
    countSat Reg.MEM_RES_DISCARDED lines]

/-- At a frame start with enough free granules a producer stops discarding; the last one raises RESERVE_RECOVERED
(R306). -/
def endDiscard (k : Nat) : Eff := rd fun s =>
  when ((producerOf s k).discarding && decide (regFld s Reg.MEM_RES_CFG 31 16 ≤ reserveFree s)) (chain [
    modProducer k fun x => { x with discarding := false },
    rd fun s' => when (!(s'.store.producers.any fun e => e.2.discarding)) (chain [
      raise 0x0E18 0xFFFF notice (reserveFree s') s'.store.episode,
      modStore fun m => { m with episode := 0 }])])

/-- A packet goes to the reserve (R305). [DEDUCED, log 46] -/
def spillPacket (k : Nat) (p : Packet) : Eff := chain [
  modProducer k (addSpill p),
  countUp Reg.MEM_RES_SPILLED 1,
  reserveLevel]

/-- A packet goes to the producer's own buffer. -/
def bufferPacket (k : Nat) (p : Packet) : Eff := modProducer k fun x => { x with buf := x.buf ++ [p] }

/-- The oldest packet of a producer is delivered: with the last line of a reserve granule, the granule is free (R305). -/
def takePacket (k : Nat) : Eff := chain [modProducer k fun x => { x with buf := x.buf.drop 1 }, reserveLevel]

/-- Spilled data leaves the reserve in order for the producer's buffer, where room has freed (R305). Its granule stays the
producer's until the line is delivered. -/
def spillDrain (k : Nat) : Eff := rd fun s =>
  match (producerOf s k).spill with
  | [] => skip
  | p :: rest => chain [
      modProducer k fun x => { x with spill := rest, buf := x.buf ++ [{ p with spilled := true }] },
      reserveLevel]

/-- SPILL_DRAIN. -/
def execSpillDrain (producer : BitVec 16) (s : State) : Host.Outcome State Fault Refusal :=
  .next (go (spillDrain producer.toNat) s)

end Sys2Proof.Machine
end

