-- ==== Sys2Proof/Machine/Capture.lean ====
section
/-!
DEFINITION. Capture pipelines (chapter "Capture pipelines", R155 to R187): line assembly, the seven stages, calibration
and parameter banks.
-/
namespace Sys2Proof.Machine

/-! ## Registers of a pipeline -/

/-- The counters of R186 by their place from CAP_LINES_IN: 0 in, 1 out, 2 frames, 3 TRUNC, 4 CHECK, 5 MISSING,
6 UNEXPECTED, 7 DROPPED, 8 FRAME_ERR, 9 SAT, 10 DPC_STATIC, 11 DPC_DYN, 12 DPC_FAIL, 13 BANK_MISMATCH. -/
def capCount (p k n : Nat) : Eff := if k < 3 then countUp (Reg.CAP_COUNTS p k) n else countSat (Reg.CAP_COUNTS p k) n

/-- The pipeline of a camera: the lowest declared one that names it (R156). -/
def pipeOfPartner (s : State) (q : Nat) : Option Nat :=
  firstWhere (fun p => regFld s (Reg.CAP_CTRL p) 23 12 == q && pipeDeclared s p) (upto 256)

/-- The class at ingress (R166). -/
def pipeEvidence (s : State) (p : Nat) : Bool := regFld s (Reg.CAP_CTRL p) 25 24 == 1

/-- Container bits, samples and bytes per group of a packing code (R159, R197). -/
def packBits (code : Nat) : Nat := nthD 16 code [8, 10, 12, 14, 16]
def packGroup (code : Nat) : Nat := nthD 1 code [1, 4, 2, 4, 1]
def packBytes (code : Nat) : Nat := nthD 2 code [1, 5, 3, 7, 2]

/-- The configured line length L (R160). -/
def lineBytes (s : State) (p : Nat) : Nat :=
  let c := regFld s (Reg.CAP_FMT p) 3 0
  ceilDiv (regFld s (Reg.CAP_WIDTH p) 15 0 * inBands s p) (packGroup c) * packBytes c

/-- A flag bit of a tag set (R26). -/
def setFlag (k : Nat) (on : Bool) (t : LineTag) : LineTag := if on then { t with flags := t.flags ||| 2 ^ k } else t

/-- FLAGS bits of R26. -/
def fCheck : Nat := 7
def fTrunc : Nat := 6
def fSwitch : Nat := 5
def fHoldover : Nat := 3
def fLate : Nat := 2
def fDrop : Nat := 1
def fMigrate : Nat := 0

/-- A pipeline's camera gets C3 credits back (R91, R166). [DEDUCED, log 33] -/
def freeSegs (p k : Nat) : Eff := rd fun s => when (k != 0) (freeHeld (regFld s (Reg.CAP_CTRL p) 23 12) 3 k)

/-! ## Line assembly -/

/-- The open line closes (R163, R164), with its LINE_CHECK when LAST arrived; without LAST it closes as a short line. A line
without a trigger record leaves nothing. -/
def closeLine (p : Nat) (check : Option Nat) : Eff := rd fun s =>
  match (pipeOf s p).line? with
  | none => skip
  | some l => chain [
      modPipe p fun q => { q with line? := none },
      match l.trig with
      | none => freeSegs p l.cost
      | some t =>
        let n := lineBytes s p
        let bad := check.isNone || l.bytes.length != n
        let sum := crc32c l.bytes
        let fail := check ≠ some sum
        let tag : LineTag := { time := nsOf t.time, web := t.web, pipe := p, seq := l.seq, steps := s.tim.stepSum }
        let tag := setFlag fLate (t.late || l.trigLate) (setFlag fHoldover t.holdover
          (setFlag fTrunc bad (setFlag fCheck fail tag)))
        chain [
          when bad (chain [capCount p 3 1, raise 0x0910 p notice l.seq l.bytes.length]),
          when fail (chain [capCount p 4 1, raise 0x0911 p notice l.seq (check.getD 0 * 2 ^ 32 + sum)]),
          capCount p 0 1,
          modPipe p fun q => { q with
            got := q.got + 1
            flow := q.flow ++ [.line {
              tag := tag, frame := l.frame, bytes := l.bytes.take n, bank := l.bank, cost := l.cost, lost := l.lost
              first := q.got == 0, bands := inBands s p }] }]]

/-- The open frame closes: its marker follows its last line (R111, R167). FLAGS: 1 FRAME_END_MISSING, 2 COUNT_MISMATCH,
4 DROPPED. -/
def closeFrame (p flags : Nat) : Eff := rd fun s =>
  let q := pipeOf s p
  chain [
    capCount p 2 1,
    warmFrame 0 p,
    modPipe p fun q => { q with
      flow := q.flow ++ [.close ⟨q.frame, 0, q.missing, 0, q.dropped, flags ||| 4 * b2n (q.dropped != 0), {}, q.missAt⟩]
      frameOpen := false, got := 0, missing := 0, dropped := 0, dropping := false },
    when (flags &&& 1 == 1) (chain [capCount p 8 1, raise 0x0914 p notice q.frame (q.got + q.dropped)])]

/-- A frame opens with its first line (R164, R185): the frame start is the pipeline's LEVEL boundary. -/
def openFrame (p frame : Nat) : Eff := chain [
  levelBoundary (Reg.CAP_CTRL p),
  setReg (Reg.CAP_FRAME_NOW p) (word frame),
  modPipe p fun q => { q with frameOpen := true, frame := frame }]

/-- The first `n` trigger records are lines that will not come: those whose trigger was sent are missing
(R162, R164). -/
def missRecords (p n : Nat) : Eff := rd fun s =>
  let gone := (pipeOf s p).trigs.take n
  let sent := gone.filter fun t => !t.unsent
  chain [
    modPipe p fun q => { q with
      trigs := q.trigs.drop n, missing := q.missing + gone.length
      missAt := match gone with
        | t :: _ => if q.missing = 0 then (nsOf t.time, t.web) else q.missAt
        | [] => q.missAt },
    capCount p 5 gone.length,
    match sent with
    | t :: _ => raise 0x0912 p degraded t.seq sent.length
    | [] => skip]

/-- Place of a LINE_SEQ among the records. -/
def recordAt (seq : Nat) : List Trig → Option Nat
  | [] => none
  | t :: ts => if t.seq = seq ∧ ¬ t.unsent then some 0 else (recordAt seq ts).map (· + 1)

/-- The reported bank of a new line (R183): a change that does not fall on line E is a mismatch. -/
def reportBank (p seq bank : Nat) : Eff := rd fun s =>
  let q := pipeOf s p
  let e := q.switch.bind fun w => w.e
  chain [
    modPipe p fun q => { q with reported := bank },
    when (!regBit s (Reg.CAP_CTRL p) 28 && bank != q.reported && e != some seq) (chain [
      capCount p 13 1,
      raise 0x0919 p degraded (e.getD (2 ^ 32)) seq])]

/-- A line is dropped at the ingress: it counts as received and as dropped (R166). [DEDUCED, log 44] -/
def countDrop (p : Nat) : Eff := chain [capCount p 0 1, capCount p 7 1]

/-- The open line is dropped, and its later segments with it. -/
def dropOpen (p : Nat) : Eff := rd fun s => match (pipeOf s p).line? with
  | some l => when l.trig.isSome (chain [
      freeSegs p l.cost,
      countDrop p,
      modPipe p fun q => { q with dropped := q.dropped + 1, line? := some { l with trig := none, bytes := [], cost := 0 } }])
  | none => skip

/-- A new line starts: matched to its record, with the expected lines before it missing, or unexpected (R162, R164). While
the ingress drops a frame its expected lines are dropped (R166). -/
def openLine (p seq frame bank : Nat) : Eff := rd fun s =>
  match recordAt seq (pipeOf s p).trigs with
  | none => chain [
      capCount p 6 1,
      raise 0x0913 p notice seq frame,
      modPipe p fun q => { q with line? := some ⟨seq, frame, [], none, false, bank, 0, 0⟩ }]
  | some n => chain [
      missRecords p n,
      reportBank p seq bank,
      modPipe p fun q => { q with
        trigs := q.trigs.drop 1, line? := some ⟨seq, frame, [], q.trigs.head?, false, bank, 0, 0⟩ },
      when (pipeOf s p).dropping (dropOpen p)]

/-! ## Dropping at the ingress -/

/-- One tap. -/
def tapOf (s : State) (t : Nat) : Tap := mget {} t s.taps.taps

/-- Change one tap. -/
def modTap (t : Nat) (f : Tap → Tap) : Eff := modTaps fun o => { o with taps := mput t (f (mget {} t o.taps)) o.taps }

/-- DROP_FOLLOWS in a tag when it is that of the line `t`. -/
def dropTag (t u : LineTag) : LineTag := setFlag fDrop (u.pipe == t.pipe && u.seq == t.seq && u.time == t.time) u

/-- DROP_FOLLOWS on the line `t` among the items of a stream, and among the lines between a tap's stages. -/
def dropItem (t : LineTag) : CapItem → CapItem
  | .line l => .line { l with tag := dropTag t l.tag }
  | .close c => .close { c with tag := dropTag t c.tag }
def dropTapItem (t : LineTag) : TapItem → TapItem
  | .line l => .line { l with tag := dropTag t l.tag }
  | .close c => .close { c with tag := dropTag t c.tag }

/-- DROP_FOLLOWS in the tag of a tap's packet when it is that of the line `t`: bit 1 of byte 1. -/
def dropPacket (t : LineTag) (p : Packet) : Packet :=
  match p.payload with
  | a :: b :: r => if a.toNat = t.seq % 256 ∧ p.time = t.time then { p with payload := a :: (b ||| 2#8) :: r } else p
  | _ => p

/-- DROP_FOLLOWS on the line `t` wherever a tap still holds it. -/
def dropInTap (t : LineTag) (x : Tap) : Tap := { x with
  inq := x.inq.map fun e => (dropItem t e.1, e.2)
  route := x.route.map (dropItem t)
  mid := x.mid.map (dropTapItem t)
  outq := x.outq.map (dropTapItem t)
  hist := x.hist.map fun l => { l with tag := dropTag t l.tag }
  lastTag := dropTag t x.lastTag }

/-- DROP_FOLLOWS on the packets of the line `t` that a producer still holds. -/
def dropInProducer (t : LineTag) (x : Producer) : Producer :=
  { x with buf := x.buf.map (dropPacket t), spill := x.spill.map (dropPacket t) }

/-- The newest line that a pipeline holds or has delivered. -/
def newestTag (q : Pipe) : LineTag :=
  (q.flow.reverse.findSome? fun i => match i with
    | .line l => some l.tag
    | .close _ => none).getD q.lastTag

/-- The line `t` of a pipeline is marked DROP_FOLLOWS wherever the pipeline, its taps and their buffers and the slots of Seif
hold it (R28). [DEDUCED, log 44] -/
def markDrop (p : Nat) (t : LineTag) : Eff := chain [
  modPipe p fun q => { q with flow := q.flow.map (dropItem t), lastTag := dropTag t q.lastTag },
  each (upFrom (4 * p) 4) fun k => chain [modTap k (dropInTap t), modProducer k (dropInProducer t)],
  modSei fun x => { x with bars := x.bars.map fun b => (b.1, { b.2 with
    slots := b.2.slots.map fun k => (k.1, { k.2 with
      buf := k.2.buf.map fun l => { l with line := { l.line with tag := dropTag t l.line.tag } } }) }) }]

/-- A MONITOR ingress overflows: the last line of the frame so far is marked, and the rest of the frame is dropped
(R28, R166). -/
def dropFrame (p : Nat) : Eff := chain [
  dropOpen p,
  rd fun s =>
    let q := pipeOf s p
    let t := newestTag q
    chain [
      when (q.got != 0) (markDrop p t),
      modPipe p fun q => { q with dropping := true },
      raise 0x0916 p degraded q.frame t.seq]]

/-- A segment's bytes join the open line; an offset break ends it (R110, R163). `lost` frames were lost before the segment by
its ACNT, `flags` are its FLAGS and `bytes` its data. [DEDUCED, log 44] -/
def addSeg (p cost lost off flags check : Nat) (bytes : List Byte) : Eff := rd fun s =>
  match (pipeOf s p).line? with
  | none => freeSegs p cost
  | some l =>
    if l.trig.isNone then chain [
      freeSegs p cost,
      when (flags.testBit 1) (modPipe p fun q => { q with line? := none })]
    else if off ≠ l.bytes.length then chain [
      modPipe p fun q => { q with line? := some { l with lost := l.lost + lost } },
      freeSegs p cost,
      closeLine p none,
      when (!flags.testBit 1) (modPipe p fun q => { q with line? := some { l with trig := none, bytes := [], cost := 0 } })]
    else chain [
      modPipe p fun q => { q with line? := some { l with
        bytes := l.bytes ++ bytes, trigLate := l.trigLate || flags.testBit 2, cost := l.cost + cost, lost := l.lost + lost } },
      when (flags.testBit 1) (closeLine p (some check))]

/-- Journal taps of a pipeline. -/
def journalTaps (s : State) (p : Nat) : List Nat := (upFrom (4 * p) 4).filter fun t =>
  regBit s (Reg.OUT_TAP_CTRL t) 28 && regFld s (Reg.OUT_TAP_CTRL t) 27 26 == 1

/-- The first frame after a reload in place starts: INPLACE_DROP, and a GAP of cause 4 for each journal tap (R395). -/
def endReload (p frame : Nat) : Eff := rd fun s => match reloadOf s p with
  | some r => when ((r.frame.map fun k => k != frame).getD false) (chain [
      modReloads fun l => l.filter fun x => x.pipe != p,
      raise 0x0219 0xFFFF degraded p r.lines,
      when (regBit s Reg.JRN_CTRL 1) (modJrn fun j => { j with
        wait := j.wait ++ (journalTaps s p).map fun t => gapRec 4 0 t r.lines r.time (r.frame.getD 0) r.web })])
  | none => skip

/-- What a discarded line adds to the reload in place of its pipeline (R395): the lines so far, and the first one's tag. -/
def countReload (p frame : Nat) (t : Trig) : Eff := modReloads fun l => l.map fun r => if r.pipe = p then { r with
    frame := some frame, lines := r.lines + 1
    time := if r.lines = 0 then nsOf t.time else r.time
    web := if r.lines = 0 then t.web else r.web } else r

/-- A segment that the ingress discards, matched to its record like any other (R164, R395, R449). [DEDUCED, log 44] -/
def discardSeg (p cost seq frame flags : Nat) : Eff := chain [
  rd fun s => when (((pipeOf s p).line?.map fun l => l.seq) != some seq) (chain [
    modPipe p fun q => { q with line? := none },
    openLine p seq frame (flags / 16 % 4)]),
  rd fun s => match (pipeOf s p).line?.bind fun l => l.trig with
    | some t => chain [dropOpen p, countReload p frame t]
    | none => skip,
  modPipe p fun q => { q with missing := 0, dropped := 0 },
  addSeg p cost 0 0 flags 0 []]

/-- A LINE_SEG of a pipeline's camera (R109, R110, R163 to R166); `lost` is its ACNT loss count, and `room` says that the
ingress buffers take it. -/
def lineSegIn (p : Nat) (f : RxFrame) (lost : Nat) (room : Bool) : Eff := rd fun s0 =>
  let pl := f.payload
  let seq := leAt pl 0 2
  let flags := leAt pl 2 1
  let frame := leAt pl 11 4
  chain [
    when ((pipeOf s0 p).frameOpen && (pipeOf s0 p).frame != frame) (chain [closeLine p none, closeFrame p 1]),
    rd fun s => when (!(pipeOf s p).frameOpen) (openFrame p frame),
    rd fun s => when (!room && !pipeEvidence s p && !(pipeOf s p).dropping) (dropFrame p),
    rd fun s => when (((pipeOf s p).line?.map fun l => l.seq) != some seq) (chain [
      closeLine p none,
      openLine p seq frame (flags / 16 % 4)]),
    addSeg p (frameCost f.len.toNat) lost (leAt pl 3 4) flags (leAt pl 7 4) (pl.drop 15)]

/-- The ingress of a pipeline discards what arrives (R395, R449). -/
def ingressOff (s : State) (p : Nat) : Bool := pipeLost s p || (reloadOf s p).isSome

/-- A LINE_SEG reaches a pipeline whose ingress may be discarding. -/
def lineSeg (p : Nat) (f : RxFrame) (lost : Nat) (room : Bool) : Eff := chain [
  endReload p (leAt f.payload 11 4),
  rd fun s =>
    if ingressOff s p then
      discardSeg p (frameCost f.len.toNat) (leAt f.payload 0 2) (leAt f.payload 11 4) (leAt f.payload 2 1)
    else lineSegIn p f lost room,
  switchDone p]

/-- A LINE_SEG whose camera no pipeline names is discarded. [DEDUCED, log 33] -/
def takeSeg (f : RxFrame) (lost : Nat) (room : Bool) : Eff := rd fun s =>
  match pipeOfPartner s f.src.toNat with
  | some p => lineSeg p f lost room
  | none => freeHeld f.src.toNat 3 (frameCost f.len.toNat)

/-- LINE_SEG_RECEIVE. -/
def execLineSegReceive (f : RxFrame) (room : Bool) (s : State) : Host.Outcome State Fault Refusal :=
  .next (go (receive f 0x40 true (fun _ => true) true fun lost => takeSeg f lost room) s)

/-- The open frame ends with a FRAME_END that counts `n` lines (R111, R164). -/
def endFrame (p n : Nat) : Eff := chain [
  closeLine p none,
  rd fun s =>
    let q := pipeOf s p
    let got := q.got + q.dropped
    let bad := got ≠ n
    chain [
      when bad (chain [capCount p 8 1, raise 0x0915 p notice q.frame (n * 2 ^ 32 + got)]),
      closeFrame p (2 * b2n bad)]]

/-- FRAME_END closes the frame of its number and checks its count (R111, R164). It may be that of a frame of which no line
came, which then opens and closes; a frame that is still open before it has lost its own end. [DEDUCED, log 44] -/
def takeFrameEnd (f : RxFrame) : Eff := rd fun s =>
  match pipeOfPartner s f.src.toNat with
  | none => skip
  | some p =>
    let k := leAt f.payload 0 4
    let q := pipeOf s p
    let new := decide ((k + 2 ^ 32 - q.frame) % 2 ^ 32 < 2 ^ 31)
    if ingressOff s p || (q.frameOpen && q.frame != k && !new) then skip
    else chain [
      when (q.frameOpen && q.frame != k) (chain [closeLine p none, closeFrame p 1]),
      rd fun s' => when (!(pipeOf s' p).frameOpen) (openFrame p k),
      endFrame p (leAt f.payload 4 4)]

/-- FRAME_END_RECEIVE. -/
def execFrameEndReceive (f : RxFrame) (s : State) : Host.Outcome State Fault Refusal :=
  .next (go (receivePlain f 0x41 (takeFrameEnd f)) s)

/-- The end of a trigger's line (R165): TIME_NS, the camera's latency and MISSING_US. -/
def missDeadline (s : State) (p : Nat) (t : Trig) : Int :=
  t.time + (leAt (partnerOf s (regFld s (Reg.CAP_CTRL p) 23 12)).desc 36 4
    + regFld s (Reg.CAP_MISS_TO p) 15 0 * 1000 : Nat) * oneNs

/-- The deadline of the open line, or else of the oldest expected one, has passed (R163 to R165). -/
def missingTimeout (p : Nat) : Eff := rd fun s =>
  let q := pipeOf s p
  match q.line?.bind fun l => l.trig with
  | some t => when (decide (missDeadline s p t < timeNow s)) (closeLine p none)
  | none => match q.trigs with
    | t :: _ => when (decide (missDeadline s p t < timeNow s)) (missRecords p 1)
    | [] => skip

/-- MISSING_LINE_TIMEOUT. -/
def execMissingLineTimeout (p : Fin 256) (s : State) : Host.Outcome State Fault Refusal :=
  .next (go (missingTimeout p) s)

/-! ## Stages -/

/-- The oldest line that waits for a stage. -/
def lineAt (s : State) (p stage : Nat) : Option CapLine :=
  (pipeOf s p).flow.findSome? fun i => match i with
    | .line l => if l.stage = stage then some l else none
    | .close _ => none

/-- Replace the oldest line that waits for a stage. -/
def putLineAt (stage : Nat) (x : CapLine) : List CapItem → List CapItem
  | [] => []
  | .line l :: r => if l.stage = stage then .line x :: r else .line l :: putLineAt stage x r
  | .close c :: r => .close c :: putLineAt stage x r

/-- A stage kind is placed and enabled (R155). [DESIGN CHOICE, log 43] -/
def stageOn (s : State) (p kind en : Nat) : Bool := hasInst s kind 1 p && regBit s (Reg.CAP_CTRL p) en

/-- A stage's turn: its tiles and its pipeline run (R48), and the next stage can take a line, which it holds until it passes it
on (R41). [DESIGN CHOICE, log 43] -/
def pipeStage (p kind k : Nat) (f : Eff) : Eff := rd fun s =>
  when (stageRuns s 1 p (ownInsts s kind 1 p) && (lineAt s p (k + 1)).isNone) f

/-- A line leaves a stage with new samples; `sat` of them were limited, and `mark` sets CHECK_MARK (R40, R158, R311). -/
def leaveStage (p kind : Nat) (l : CapLine) (data : List Nat) (bands sat : Nat) (mark : Bool) : Eff := rd fun s =>
  let is := ownInsts s kind 1 p
  chain [
    when (sat != 0) (capCount p 9 sat),
    clearStageMark is,
    modPipe p fun q => { q with flow := putLineAt l.stage { l with
      data := data, bands := bands, stage := l.stage + 1, bytes := []
      tag := setFlag fCheck mark (stageTag s kind 1 p is l.tag) } q.flow }]

/-- A line passes a stage that is left out or disabled, with its samples unchanged (R155). [DESIGN CHOICE, log 43] -/
def passStage (p kind : Nat) (l : CapLine) : Eff := leaveStage p kind l l.data l.bands 0 false

/-- sat16 of every value, and how many were limited (R158). -/
def sat16s (l : List Int) : List Nat × Nat := (l.map u16, (l.filter fun i => decide (i < 0 ∨ 65535 < i)).length)

/-- A 32-bit sum saturates (R158). -/
def sat32 (i : Int) : Int := clampI (-2147483648) 2147483647 i

/-- Raw container values of packed bytes: only whole samples count (R159). -/
def rawSamples (code : Nat) (bs : List Byte) (count : Nat) : List Nat :=
  let b := packBits code
  (chunks (packBytes code) (bs.length + 1) bs).flatMap (fun g =>
    let v := leVal g
    ((upto (packGroup code)).filter fun i => decide (b * (i + 1) ≤ 8 * g.length)).map fun i => v / 2 ^ (b * i) % 2 ^ b)
    |>.take count

/-- A sample of D bits as U16 (R161). -/
def toU16 (d v : Nat) : Nat := if d < 8 then 0 else v * 2 ^ (16 - d) + v / 2 ^ (2 * d - 16)

/-- Pixel-interleaved order of a line that is `order` 0 already or band-sequential (R160). -/
def interleave (order : Bool) (px bands : Nat) (l : List Nat) : List Nat :=
  if order then (upto px).flatMap fun x => (upto bands).map fun c => nthD 0 (c * px + x) l else l

/-- The bank expected at a LINE_SEQ (R183). -/
def expectedBank (q : Pipe) (seq : Nat) : Nat := match q.switch with
  | some w => if (w.e.map fun e => seqGe seq e).getD false then w.bank else w.old
  | none => activeBank q

/-- The bank a line is processed with (R183): the reported one unless it is FREE, else the one expected at its
LINE_SEQ. -/
def lineBank (s : State) (p : Nat) (l : CapLine) : Nat :=
  if !regBit s (Reg.CAP_CTRL p) 28 && bankSt s p l.bank != 0 then l.bank else expectedBank (pipeOf s p) l.tag.seq

/-- UNPACK (R161, R164, R183). -/
def unpackLine (p : Nat) : Eff := rd fun s => match lineAt s p 0 with
  | none => skip
  | some l =>
    let fmt := regGet s (Reg.CAP_FMT p)
    let px := regFld s (Reg.CAP_WIDTH p) 15 0
    let d := fld fmt 12 8
    let n := px * inBands s p
    let raw := rawSamples (fld fmt 3 0) l.bytes n
    let above := (raw.zipIdx).filter fun e => decide (fld fmt 3 0 = 4 ∧ 2 ^ d ≤ e.1)
    let good := raw.map fun v => toU16 d (v % 2 ^ d)
    let all := good ++ (upto (n - good.length)).map fun _ => regFld s (Reg.CAP_PAD p) 15 0
    let bank := lineBank s p l
    let new := bankSt s p bank == 1
    let q := pipeOf s p
    chain [
      freeSegs p l.cost,
      when l.first (modPipe p fun q => { q with fmtErr := false }),
      when (!above.isEmpty) (chain [
        countSat (Reg.CAP_FMT_ERR p) above.length,
        when (!q.fmtErr || l.first) (raise 0x091D p notice l.tag.seq
          (let i := (above.head?.map Prod.snd).getD 0
           if bit fmt 20 then i % max 1 px else i / max 1 (inBands s p))),
        modPipe p fun q => { q with fmtErr := true }]),
      leaveStage p 0x01 { l with bank := bank, tag := setFlag fSwitch new l.tag }
        (interleave (bit fmt 20) px (inBands s p) all) (inBands s p) 0 false,
      when new (modPipe p fun q => { q with
        banks := setNth 2 bank (q.banks.map fun b => if b = 2 then 3 else b)
        switch := q.switch.map fun w => { w with first := some l.tag.seq } }),
      switchDone p]

/-- UNPACK_LINE. [DESIGN CHOICE, log 43] -/
def execUnpackLine (p : Fin 256) (s : State) : Host.Outcome State Fault Refusal :=
  .next (go (pipeStage p 0x01 0 (unpackLine p)) s)

/-- Half `k` of an array of words of 16-bit values, two per word. -/
def half (s : State) (reg : Nat → Nat) (k : Nat) : Nat := regFld s (reg (k / 2)) (16 * (k % 2) + 15) (16 * (k % 2))

/-- The time constant K (R169). -/
def blackK (s : State) (p : Nat) : Nat :=
  if atExpert s (Reg.CAP_CTRL p) then regFld s (Reg.CAP_BLK_K p) 3 0
  else
    let n := regFld s (Reg.CAP_BLK_TAU p) 15 0
    ((upFrom 1 8).filter fun j => decide (2 ^ (2 * j - 1) ≤ n * n)).length

/-- Mean of a band over columns of a line, rounded down. -/
def bandMean (data : List Nat) (bands c first count : Nat) : Nat :=
  sumOf (fun x => nthD 0 (x * bands + c) data) (upFrom first count) / max 1 count

/-- BLACK (R168, R169). -/
def blackLine (p : Nat) : Eff := rd fun s => match lineAt s p 1 with
  | none => skip
  | some l =>
    if !stageOn s p 0x02 1 then passStage p 0x02 l
    else
      let nb := l.bands
      let q := pipeOf s p
      let act := regGet s (Reg.CAP_ACT p)
      let dk := regGet s (Reg.CAP_DARK p)
      let ref := fun c => half s (Reg.BK_DCOL_REF p l.bank) c
      let f := if q.dark.isEmpty || fld dk 31 16 == 0 then (upto nb).map fun c => ref c * 256 else q.dark
      let mode := regFld s (Reg.BK_CTRL p l.bank) 1 0
      let at' := drefAt s p l.bank
      let n := fld act 31 16 * nb
      let bad := if mode < 2 then [] else poisoned s at' (2 * n)
      let dref := fun (i : Nat) => sint 16 (memNat s (at' + 2 * i) 2)
      let level := fun (c i : Nat) => sint 16 (half s (Reg.BK_BLK_OFF p l.bank) c)
        + (if mode < 2 then 0 else dref i)
        + (if mode % 2 = 1 then ((nthD 0 c f / 256 : Nat) : Int) - ref c else 0)
      let out := sat16s ((upto n).map fun i =>
        ((nthD 0 ((fld act 15 0 + i / nb) * nb + i % nb) l.data : Nat) : Int) - level (i % nb) i)
      let next := if fld dk 31 16 = 0 then f else (upto nb).map fun c =>
        let m := bandMean l.data nb c (fld dk 15 0) (fld dk 31 16)
        if q.dark.isEmpty then m * 256
        else
          let old : Int := ((nthD 0 c f : Nat) : Int)
          (old + sar (((m * 256 : Nat) : Int) - old) (blackK s p)).toNat
      chain [
        reportPoison 0x09 bad,
        modPipe p fun q => { q with dark := next },
        leaveStage p 0x02 l out.1 nb out.2 (!bad.isEmpty)]

/-- BLACK_LINE. -/
def execBlackLine (p : Fin 256) (s : State) : Host.Outcome State Fault Refusal :=
  .next (go (pipeStage p 0x02 1 (blackLine p)) s)

/-- Dynamic parameters DYN_T, IMP_T, DYN_K (R172). -/
def dpcParams (s : State) (p : Nat) : Nat × Nat × Nat :=
  if atExpert s (Reg.CAP_CTRL p) then
    (regFld s (Reg.CAP_DPC_T p) 31 16, regFld s (Reg.CAP_DPC_T p) 15 0, regFld s (Reg.CAP_DPC_K p) 3 0)
  else match regFld s (Reg.CAP_DPC_SENS p) 1 0 with
    | 0 => (0xFFFF, 0xFFFF, 8)
    | 1 => (4096, 16384, 8)
    | 2 => (2048, 8192, 7)
    | _ => (1024, 4096, 6)

/-- Insertion into a rising list. -/
def insertNat (n : Nat) : List Nat → List Nat
  | [] => [n]
  | m :: r => if n ≤ m then n :: m :: r else m :: insertNat n r

/-- A list in rising order. -/
def sortNat (l : List Nat) : List Nat := l.foldr insertNat []

/-- The median of up to four values (R171). -/
def medianOf (l : List Nat) : Option Nat :=
  match sortNat l with
  | [] => none
  | [a] => some a
  | [a, b] => some ((a + b) / 2)
  | [_, b, _] => some b
  | _ :: b :: c :: _ => some ((b + c) / 2)

/-- A column mirrored at the edges of the active window; none when it still lies outside (R171). -/
def mirror (n : Nat) (x : Int) : Option Nat :=
  let y := if x < 0 then -x else if (n : Int) ≤ x then 2 * ((n : Int) - 1) - x else x
  if 0 ≤ y ∧ y < n then some y.toNat else none

/-- What DPC makes of one sample (R171): the sample, the new state word, and 0 untouched, 1 static, 2 dynamic, 3
failed. -/
def dpcSample (n nb : Nat) (data : List Nat) (st : List Int) (map : List Nat) (dynT impT dynK i : Nat) :
    Nat × Int × Nat :=
  let x : Int := ((i / nb : Nat) : Int)
  let c := i % nb
  let v := nthD 0 i data
  let r := nthD 0 i st
  let near := fun (k : Int) => match mirror n (x + k) with
    | none => none
    | some y =>
      let j := y * nb + c
      if (nthD 0 j map).testBit 15 || decide ((dynT : Int) < absI (nthD 0 j st)) then none else some (nthD 0 j data)
  let valid := [near (-2), near (-1), near 1, near 2].filterMap id
  let med := medianOf valid
  let d := match med with
    | some m => s16 ((v : Int) - m)
    | none => 0
  let r' := if valid.isEmpty then r else s16 (r + sar (d - r) dynK)
  let meth0 := if valid.length < 2 then none else med
  let m := nthD 0 i map
  if m.testBit 15 then
    let w := match m / 2 ^ 13 % 4 with
      | 0 => meth0
      | 1 => (near (-1)).bind fun a => (near 1).map fun b => (a + b) / 2
      | 2 => near (-1)
      | _ => near 1
    match w with
    | some w => (w, r', 1)
    | none => (v, r', 3)
  else if (dynT : Int) < absI r' ∨ (impT : Int) < absI d then
    match meth0 with
    | some w => (w, r', 2)
    | none => (v, r', 3)
  else (v, r', 0)

/-- DPC (R170 to R172). -/
def dpcLine (p : Nat) : Eff := rd fun s => match lineAt s p 2 with
  | none => skip
  | some l =>
    if !stageOn s p 0x03 2 then passStage p 0x03 l
    else
      let nb := max 1 l.bands
      let n := l.data.length
      let map := dmapAt s p l.bank
      let area := regWide s (Reg.CAP_DPC_ST_LO p) (Reg.CAP_DPC_ST_HI p)
      let bad := poisoned s map (2 * n) ++ poisoned s area (2 * n)
      let st := (upto n).map fun i => sint 16 (memNat s (area + 2 * i) 2)
      let maps := (upto n).map fun i => memNat s (map + 2 * i) 2
      let (dynT, impT, dynK) := dpcParams s p
      let out := (upto n).map (dpcSample (n / nb) nb l.data st maps dynT impT dynK)
      let num := fun k => (out.filter fun e => e.2.2 == k).length
      chain [
        reportPoison 0x09 bad,
        capCount p 10 (num 1), capCount p 11 (num 2), capCount p 12 (num 3),
        storeBytes area (out.flatMap fun e => leBytes 2 (wrapTo 16 e.2.1)),
        leaveStage p 0x03 l (out.map Prod.fst) l.bands 0 (!bad.isEmpty)]

/-- DPC_LINE. -/
def execDpcLine (p : Fin 256) (s : State) : Host.Outcome State Fault Refusal :=
  .next (go (pipeStage p 0x03 2 (dpcLine p)) s)

/-- The lens-shading gain of column x (R174). R39 holds intermediate results at 32 bits and R158 saturates sums; a product
beyond 32 bits, such as u2 * u2 or A4 * u4, is kept exact here, which the spec does not settle. [DESIGN CHOICE, log 136] -/
def lensGain (xc halfw : Nat) (a2 a4 : Int) (x : Nat) : Int :=
  let u := if halfw = 0 then 0 else s16 (Int.tdiv (((x : Int) - xc) * 16384) halfw)
  let u2 := sar (u * u) 14
  let u4 := sar (u2 * u2) 14
  clampI 0 65535 (16384 + sar (a2 * u2) 14 + sar (a4 * u4) 14)

/-- A line is taken by the running calibration; the last one writes the G words (R175). -/
def calibrate (p : Nat) (l : CapLine) : Eff := rd fun s => match (pipeOf s p).cal with
  | none => skip
  | some c => when (!l.tag.flags.testBit fCheck && !l.tag.flags.testBit fTrunc) (
      let sums := if c.sums.isEmpty then l.data else (c.sums.zip l.data).map fun e => e.1 + e.2
      if 1 < c.left then modPipe p fun q => { q with cal := some { c with sums := sums, left := c.left - 1 } }
      else
        let means := sums.map fun x => x / c.lines
        let target := regFld s (Reg.CAP_CAL_TARGET p) 15 0
        let g := means.map fun m => if m = 0 then 65535 else min ((target * 16384 * 2 + m) / (2 * m)) 65535
        let zeros := (means.filter (· == 0)).length
        chain [
          each g.zipIdx fun e => storeBytes (flatAt s p c.bank + 4 * e.2) (leBytes 2 e.1),
          modPipe p fun q => { q with cal := none },
          putBit (Reg.CAP_CAL_CTRL p) 31 false,
          setReg (Reg.CAP_CAL_STATUS p) (word (2 ^ 31 + zeros)),
          raise 0x091B p notice c.lines zeros])

/-- FLAT (R173 to R175). -/
def flatLine (p : Nat) : Eff := rd fun s => match lineAt s p 3 with
  | none => skip
  | some l =>
    if !stageOn s p 0x04 3 then passStage p 0x04 l
    else
      let mode := regFld s (Reg.BK_CTRL p l.bank) 3 2
      let tbl := flatAt s p l.bank
      let lc := regGet s (Reg.BK_LENS_C p l.bank)
      let la := regGet s (Reg.BK_LENS_A p l.bank)
      let bad := if mode % 2 = 1 then poisoned s tbl (4 * l.data.length) else []
      let one := fun (i v : Nat) =>
        let w := if mode % 2 = 1 then memNat s (tbl + 4 * i) 4 else 0
        let ls := lensGain (fld lc 15 0) (fld lc 31 16) (sint 16 (fld la 15 0)) (sint 16 (fld la 31 16))
          (i / max 1 l.bands)
        let g : Int := match mode with
          | 0 => 16384
          | 1 => ((w % 2 ^ 16 : Nat) : Int)
          | 2 => ls
          | _ => min (sar (((w % 2 ^ 16 : Nat) : Int) * ls + 8192) 14) 65535
        sar (v * g + 8192) 14 + (if mode % 2 = 1 then sint 16 (w / 2 ^ 16) else 0)
      let out := sat16s (l.data.zipIdx.map fun e => one e.2 e.1)
      chain [
        reportPoison 0x09 bad,
        calibrate p l,
        leaveStage p 0x04 l out.1 l.bands out.2 (!bad.isEmpty)]

/-- FLAT_LINE. -/
def execFlatLine (p : Fin 256) (s : State) : Host.Outcome State Fault Refusal :=
  .next (go (pipeStage p 0x04 3 (flatLine p)) s)

/-- Automatic white balance is in force (R176, R177). -/
def wbAuto (s : State) (p : Nat) : Bool :=
  !atExpert s (Reg.CAP_CTRL p) && regBit s (Reg.CAP_WB_AUTO p) 31 && regFld s (Reg.CAP_WB_WIN p) 31 16 != 0

/-- The gain that a mean gives before it is limited; none for a mean of 0, which gives MAX (R177). -/
def wbGain (ref mean : Nat) : Option Nat := if mean = 0 then none else some ((ref * 4096 * 2 + mean) / (2 * mean))

/-- At a frame start automatic white balance derives its gains from the last frame, each limited to CAP_WB_BOUND
(R21, R177). -/
def wbUpdate (p : Nat) : Eff := rd fun s =>
  let q := pipeOf s p
  let ref := regFld s (Reg.CAP_WB_AUTO p) 2 0
  let lo := regFld s (Reg.CAP_WB_BOUND p) 15 0
  let hi := regFld s (Reg.CAP_WB_BOUND p) 31 16
  let means := q.wbSums.map fun x => x / max 1 q.wbCount
  let raw := means.zipIdx.map fun e => if e.2 = ref then some 4096 else wbGain (nthD 0 ref means) e.1
  let gain := fun (g : Option Nat) => ((g.map fun k => (clampI lo hi k).toNat).getD hi)
  chain [
    when (wbAuto s p && q.wbCount != 0) (chain [
      each (raw.filterMap id) fun g => policyClamp 0x09 p g (gain (some g)),
      modPipe p fun q => { q with gains := raw.map gain }]),
    when (!wbAuto s p) (modPipe p fun q => { q with gains := [] }),
    modPipe p fun q => { q with wbSums := [], wbCount := 0 }]

/-- Gain of a band (R176). -/
def wbNow (s : State) (p bank c : Nat) : Nat :=
  let q := pipeOf s p
  if wbAuto s p && !q.gains.isEmpty then nthD 0 c q.gains else half s (Reg.BK_WB_GAIN p bank) c

/-- WBAL (R176, R177). -/
def wbalLine (p : Nat) : Eff := rd fun s0 => match lineAt s0 p 4 with
  | none => skip
  | some l =>
    if !stageOn s0 p 0x05 4 then passStage p 0x05 l
    else chain [
      when l.first (wbUpdate p),
      rd fun s =>
        let win := regGet s (Reg.CAP_WB_WIN p)
        let nb := max 1 l.bands
        let cols := upFrom (fld win 15 0) (fld win 31 16)
        let sums := (upto nb).map fun c => sumOf (fun x => nthD 0 (x * nb + c) l.data) cols
        let out := sat16s (l.data.zipIdx.map fun e => sar ((e.1 * wbNow s p l.bank (e.2 % nb) + 2048 : Nat) : Int) 12)
        chain [
          modPipe p fun q => { q with
            wbSums := if q.wbSums.isEmpty then sums else (q.wbSums.zip sums).map fun e => e.1 + e.2
            wbCount := q.wbCount + fld win 31 16 },
          leaveStage p 0x05 l out.1 l.bands out.2 false]]

/-- WBAL_LINE. -/
def execWbalLine (p : Fin 256) (s : State) : Host.Outcome State Fault Refusal :=
  .next (go (pipeStage p 0x05 4 (wbalLine p)) s)

/-- The saturating sum of one output of CMAT, and whether a sum was limited (R158, R178). -/
def cmatSum (start : Int) (terms : List Int) : Int × Bool :=
  terms.foldl (fun a t => (sat32 (a.1 + t), a.2 || decide (sat32 (a.1 + t) ≠ a.1 + t))) (start, false)

/-- Coefficient m[j][i] and offset of a bank (R178, R186). -/
def cmatCoef (s : State) (p b j i : Nat) : Int := sint 16 (half s (fun k => Reg.BK_CMAT p b (3 * j + k)) i)
def cmatOff (s : State) (p b j : Nat) : Int := sint 16 (half s (Reg.BK_CMAT_OFF p b) j)

/-- CMAT (R178). -/
def cmatLine (p : Nat) : Eff := rd fun s => match lineAt s p 5 with
  | none => skip
  | some l =>
    if !stageOn s p 0x06 5 then passStage p 0x06 l
    else
      let nb := max 1 l.bands
      let no := regFld s (Reg.BK_CTRL p l.bank) 6 4
      let pix := chunks nb (l.data.length + 1) l.data
      let sums := pix.flatMap fun px => (upto no).map fun j =>
        cmatSum (cmatOff s p l.bank j * 4096 + 2048)
          (px.zipIdx.map fun e => cmatCoef s p l.bank j e.2 * ((e.1 : Nat) : Int))
      let vals := sums.map fun e => (sar e.1 12, e.2)
      let sat := (vals.filter fun e => e.2 || decide (e.1 < 0 ∨ 65535 < e.1)).length
      leaveStage p 0x06 l (vals.map fun e => u16 e.1) no sat false

/-- CMAT_LINE. -/
def execCmatLine (p : Fin 256) (s : State) : Host.Outcome State Fault Refusal :=
  .next (go (pipeStage p 0x06 5 (cmatLine p)) s)

/-- A tone curve at an input (R179). -/
def toneAtInput (tbl : List Byte) (j v : Nat) : Int :=
  let e := fun k => ((leAt tbl (2048 * j + 2 * k) 2 : Nat) : Int)
  let k := v / 64
  if k < 1023 then e k + sar ((e (k + 1) - e k) * ((v % 64 : Nat) : Int) + 32) 6 else e 1023

/-- The taps of a pipeline that were enabled at its frame start. -/
def liveTaps (s : State) (p : Nat) : List Nat := (upFrom (4 * p) 4).filter fun t => (tapOf s t).enNow

/-- Lines on a track: markers travel on its sideband. -/
def itemLine : CapItem → Bool
  | .line _ => true
  | .close _ => false

/-- Every SEIF and CMP tap can take a line: none waits at it. HOST and JOURNAL taps never hold their pipeline (R41, R199,
R200). [DESIGN CHOICE, log 43] -/
def tapsTake (s : State) (p : Nat) : Bool := (liveTaps s p).all fun t =>
  decide (regFld s (Reg.OUT_TAP_CTRL t) 27 26 < 2) || !((tapOf s t).inq.any fun e => itemLine e.1)

/-- An item leaves the pipeline for its taps: a tap that was enabled takes it (R188, R191). -/
def toTaps (p : Nat) (i : CapItem) : Eff := rd fun s => each (liveTaps s p) fun t =>
  modTap t fun x => { x with inq := x.inq ++ [(i, timeNow s)] }

/-- A line also goes to the free-standing MARK and WEB_BREAK instances of its pipeline (R228, R229).
[DEDUCED, log 61] -/
def toWatchers (p : Nat) (l : CapLine) : Eff := rd fun s => chain [
  each ((upto 16).filter fun j => regBit s (Reg.SEI_PM_CTRL j) 31 && regFld s (Reg.SEI_PM_CTRL j) 23 16 == p) fun j =>
    modSei fun x => { x with marks := mput j { mget {} j x.marks with inq := (mget {} j x.marks).inq ++ [l] } x.marks },
  each ((upto 16).filter fun j => regBit s (Reg.SEI_WB_CTRL j) 31 && regFld s (Reg.SEI_WB_CTRL j) 23 16 == p) fun j =>
    modSei fun x => { x with webs := mput j { mget {} j x.webs with inq := (mget {} j x.webs).inq ++ [l] } x.webs }]

/-- What stands at the head of the flow leaves: lines past TONE, while the taps take them, and markers behind them (R41, R167,
R191). SPLIT and JOIN of the pipeline are passed as well. -/
def drainFlow (p : Nat) : Nat → Eff
  | 0 => skip
  | n + 1 => rd fun s => match (pipeOf s p).flow with
    | .line l0 :: rest => when (l0.stage == 7 && tapsTake s p && stageRuns s 1 p (forks s 1 p)) (
      let l := { l0 with tag := stageTag s 0x30 1 p (forks s 1 p) l0.tag }
      chain [
        clearStageMark (forks s 1 p),
        modPipe p fun q => { q with
          flow := rest, lastTag := l.tag, delivered := q.delivered + 1
          check := q.check + b2n (l.tag.flags.testBit fCheck) },
        capCount p 1 1,
        toTaps p (.line l),
        toWatchers p l,
        drainFlow p n])
    | .close c :: rest => chain [
        rd fun s' =>
          let q := pipeOf s' p
          toTaps p (.close { c with delivered := q.delivered, check := q.check, tag := q.lastTag }),
        modPipe p fun q => { q with flow := rest, delivered := 0, check := 0 },
        drainFlow p n]
    | [] => skip

/-- The way out of a pipeline: what the taps take leaves, and a switch may end (R183). -/
def pipeOut (p : Nat) : Eff := chain [rd fun s => drainFlow p (pipeOf s p).flow.length, switchDone p]

/-- TONE (R179). -/
def toneStage (p : Nat) : Eff := rd fun s => match lineAt s p 6 with
  | none => skip
  | some l =>
    if !stageOn s p 0x07 6 then passStage p 0x07 l
    else
      let tbl := mget [] l.bank (pipeOf s p).tone
      let out := sat16s (l.data.zipIdx.map fun e => toneAtInput tbl (e.2 % max 1 l.bands) e.1)
      leaveStage p 0x07 l out.1 l.bands out.2 false

/-- TONE, and the line's way out of the pipeline, for which a held line may be waiting already (R41, R179, R183). -/
def toneLine (p : Nat) : Eff := chain [pipeOut p, pipeStage p 0x07 6 (toneStage p), pipeOut p]

/-- TONE_LINE. -/
def execToneLine (p : Fin 256) (s : State) : Host.Outcome State Fault Refusal := .next (go (toneLine p) s)

/-! ## Calibration and banks -/

/-- A write of CAP_CAL_CTRL: GO starts a calibration of a FREE bank (R175). -/
def calWrite (ini : Ini) (p : Nat) (v : Word) : Eff := writeReg ini (Reg.CAP_CAL_CTRL p) v fun old new =>
  when (bit v 31) (rd fun s =>
    let b := fld new 29 28
    let n := fld new 10 0
    if bankSt s p b ≠ 0 ∨ (pipeOf s p).cal.isSome then chain [
      putBit (Reg.CAP_CAL_CTRL p) 31 (bit old 31),
      raise 0x091C p notice b (bankSt s p b)]
    else if n = 0 then chain [
      putBit (Reg.CAP_CAL_CTRL p) 31 false,
      setReg (Reg.CAP_CAL_STATUS p) (word (2 ^ 31)),
      raise 0x091B p notice 0 0]
    else chain [
      setReg (Reg.CAP_CAL_STATUS p) 0#32,
      modPipe p fun q => { q with cal := some ⟨b, n, n, []⟩ }])

/-- CAL_GO. -/
def execCalGo (ini : Ini) (p : Fin 256) (v : Word) (s : State) : Host.Outcome State Fault Refusal :=
  .next (go (busWrite ini (Reg.CAP_CAL_CTRL p) v (calWrite ini p v)) s)

/-- TONE copies a bank's tables from the pool (R179). -/
def copyTone (p b : Nat) : Eff := rd fun s =>
  modPipe p fun q => { q with tone := mput b (memBytes s (toneAt s p b) 8192) q.tone }

/-- Why a switch is refused, 0 when it is accepted (R182). -/
def switchRefusal (s : State) (p b : Nat) : Nat :=
  let q := pipeOf s p
  let first := bankBase s p b / 0x1000
  let own := (upFrom first ((bankEnd s p b - bankBase s p b) / 0x1000)).all fun i => ownerOf s 0 i == 0x1000 + p
  let ctl := regGet s (Reg.BK_CTRL p b)
  if !pipeDeclared s p then 5
  else if q.switch.isSome then 1
  else if !own || decide (0x10000000 < bankEnd s p b) then 2
  else if (decide (2 ≤ fld ctl 3 2) && regFld s (Reg.BK_LENS_C p b) 31 16 == 0) || fld ctl 6 4 == 0
      || decide (4 < fld ctl 6 4) then 3
  else if (q.cal.map fun c => c.bank) == some b then 4
  else 0

/-- GO of a parameter switch (R182, R183). -/
def switchGo (p : Nat) : Eff := rd fun s =>
  let b := regFld s (Reg.CAP_SW p) 1 0
  let r := switchRefusal s p b
  if r ≠ 0 then chain [
    putBit (Reg.CAP_SW p) 31 (pipeOf s p).switch.isSome,
    raise 0x0918 p notice r b]
  else if bankSt s p b = 2 then chain [
    putBit (Reg.CAP_SW p) 31 false,
    raise 0x0917 p notice b (2 ^ 32)]
  else chain [
    modPipe p fun q => { q with
      banks := setNth 1 b q.banks
      switch := some { bank := b, old := activeBank q, atLine := regBit s (Reg.CAP_SW p) 30 } },
    copyTone p b]

/-- A write of CAP_SW; the configuration engine's GO is ignored (R181, R182). -/
def switchWrite (ini : Ini) (p : Nat) (v : Word) : Eff := writeReg ini (Reg.CAP_SW p) v fun old _ =>
  when (bit v 31) (if ini == .cfg then putBit (Reg.CAP_SW p) 31 (bit old 31) else switchGo p)

/-- BANK_SWITCH_GO. -/
def execBankSwitchGo (ini : Ini) (p : Fin 256) (v : Word) (s : State) : Host.Outcome State Fault Refusal :=
  .next (go (busWrite ini (Reg.CAP_SW p) v (switchWrite ini p v)) s)

/-- A write of a bank register: ignored with BANK_WRITE_BUSY while the bank is not FREE; an invalid HALFW of 0 is
ignored (R174, R181). -/
def bankWrite (ini : Ini) (p b off : Nat) (v : Word) : Eff := rd fun s =>
  if bankSt s p b ≠ 0 ∧ ini ≠ .cfg then raiseMerge 0x091A p notice off b
  else if off = Reg.BK_LENS_C p b ∧ fld v 31 16 = 0 ∧ 2 ≤ regFld s (Reg.BK_CTRL p b) 3 2 then
    raise 0x0902 p notice off 16
  else writePlain ini off v

/-! ## Views -/

/-- Two halves in a word. -/
def halves (f : Nat → Nat) (k : Nat) : Word := word (f (2 * k + 1) * 2 ^ 16 + f (2 * k))

/-- The words of CAP that are views of its state. -/
def capView (s : State) (off : Nat) : Option Word :=
  let rel := off - Reg.CAP_CTRL 0
  if off = Reg.CAP_GSTATUS then
    some (word ((upto 256).filter fun g => regBit s (Reg.TIM_TRG_CTRL g) 31).length)
  else if 0x40000 ≤ rel then none
  else
    let p := rel / 0x400
    let r := rel % 0x400
    let q := pipeOf s p
    let ex := atExpert s (Reg.CAP_CTRL p)
    let bank := activeBank q
    if r = 0x004 then some (word (b2n ex * 2 ^ 24 + b2n q.cal.isSome * 2 ^ 17 + b2n q.frameOpen * 2 ^ 16
      + (nthD 0 0 q.banks + 4 * nthD 0 1 q.banks + 16 * nthD 0 2 q.banks + 64 * nthD 0 3 q.banks) * 2 ^ 8 + bank))
    else if r = 0x020 ∧ !ex then some (word (switchLat s p))
    else if r = 0x02C ∧ !ex then some (word (blackK s p))
    else if r = 0x034 ∧ !ex then some (word ((dpcParams s p).1 * 2 ^ 16 + (dpcParams s p).2.1))
    else if r = 0x038 ∧ !ex then some (word (dpcParams s p).2.2)
    else if r = 0x05C then some (word ((q.trigs.head?.map fun t => t.seq).getD 0))
    else if 0x09C ≤ r ∧ r < 0x0A8 then some (halves (fun c => nthD 0 c q.dark / 256) ((r - 0x09C) / 4))
    else if 0x0A8 ≤ r ∧ r < 0x0B4 then
      some (halves (fun c => if c < inBands s p then wbNow s p bank c else 0) ((r - 0x0A8) / 4))
    else if 0x100 ≤ r ∧ (r - 0x100) % 0xC0 = 0 then
      some (setFld (regGet s off) 31 30 (nthD 0 ((r - 0x100) / 0xC0) q.banks))
    else none

end Sys2Proof.Machine
end

