-- ==== Sys2Proof/Machine/Output.lean ====
section
/-!
DEFINITION. Output streams (chapter "Output streams", R188 to R205): the taps' settings, CROP, SCALE, PACK, their packets,
and what a full buffer does.
-/
namespace Sys2Proof.Machine

/-- The counters of R204 by their place from OUT_LINES: 0 lines, 1 frames, 2 DISCARD, 3 DROPPED, 4 DOUT_MISS, 5 SPILL. -/
def outCount (t k n : Nat) : Eff := if k < 2 then countUp (Reg.OUT_LINES t k) n else countSat (Reg.OUT_LINES t k) n

/-- DEST and CLASS of a tap (R189, R204). -/
def tapDest (s : State) (t : Nat) : Nat := regFld s (Reg.OUT_TAP_CTRL t) 27 26
/-- [DEDUCED, log 47] -/
def tapEvidence (s : State) (t : Nat) : Bool := regFld s (Reg.OUT_TAP_CTRL t) 25 24 == 1

/-! ## The stages of a tap -/

/-- The instances that feed an instance (`back`) or that it feeds, by the routes and through SPLIT and JOIN. -/
def linked (s : State) (back : Bool) : Nat → Nat → List (Nat × Inst)
  | 0, _ => []
  | fuel + 1, n => s.erg.routes.flatMap fun e =>
    let (a, b) := if back then (e.2.dst, e.2.src) else (e.2.src, e.2.dst)
    if a = n then
      match mget? b s.erg.insts with
      | some i => if i.kind = 0x30 ∨ i.kind = 0x31 then linked s back fuel b else [(b, i)]
      | none => []
    else []

/-- What feeds an instance, and what it feeds. -/
def feeders (s : State) (n : Nat) : List (Nat × Inst) := linked s true 8 n
def feeds (s : State) (n : Nat) : List (Nat × Inst) := linked s false 8 n

/-- Declared taps of a pipeline: those that pack (HOST and JOURNAL), or those that are routes (SEIF and CMP). -/
def tapsOf (s : State) (p : Nat) (pack : Bool) : List Nat := (upFrom (4 * p) 4).filter fun t =>
  regBit s (Reg.OUT_TAP_CTRL t) 28 && (decide (tapDest s t < 2) == pack)

/-- An instance joins the first group that shares a key with it, or starts one. -/
def joinGroup (key : Nat → List Nat) (e : Nat × Inst) : List (List (Nat × Inst)) → List (List (Nat × Inst))
  | [] => [[e]]
  | g :: gs =>
    if g.any fun x => (key x.1).any fun n => (key e.1).contains n then (g ++ [e]) :: gs else g :: joinGroup key e gs

/-- Instances in groups: parallel instances of one stage share what feeds them, or what they feed (R49). [DEDUCED, log 137] -/
def inGroups (key : Nat → List Nat) (l : List (Nat × Inst)) : List (List (Nat × Inst)) :=
  l.foldl (fun gs e => joinGroup key e gs) []

/-- The CROP instances that feed an instance, through SCALE or directly. -/
def cropsBefore (s : State) (n : Nat) : List Nat := (feeders s n).flatMap fun f =>
  if f.2.kind = 0x09 then ((feeders s f.1).filter fun g => g.2.kind == 0x08).map Prod.fst
  else if f.2.kind = 0x08 then [f.1] else []

/-- The PACK instances of a pipeline, in a group for each packing tap. [DEDUCED, log 137] -/
def packGroups (s : State) (p : Nat) : List (List (Nat × Inst)) := inGroups (cropsBefore s) (ownInsts s 0x0A 1 p)

/-- CROP instances of a pipeline that feed neither SCALE nor PACK: those of its SEIF and CMP taps, in a group for each tap. -/
def routeCrops (s : State) (p : Nat) : List (List (Nat × Inst)) :=
  inGroups (fun n => (feeds s n).map Prod.fst) ((ownInsts s 0x08 1 p).filter fun e =>
    !((feeds s e.1).any fun f => f.2.kind == 0x09 || f.2.kind == 0x0A))

/-- The instances that feed the instances of a list, each once. -/
def feedersOf (s : State) (l : List (Nat × Inst)) : List (Nat × Inst) := (l.flatMap fun e => feeders s e.1).eraseDups

/-- The instances of a kind that a tap contains (R188): the records of an image name no tap, so the packing taps of a pipeline
take the groups of its PACK instances in order, each with what feeds it, and the other taps the groups of its remaining CROP
instances in order. [DEDUCED, log 137] -/
def tapInsts (s : State) (t kind : Nat) : List (Nat × Inst) :=
  let p := t / 4
  let k := ((tapsOf s p (tapDest s t < 2)).takeWhile (· != t)).length
  if 2 ≤ tapDest s t then (if kind = 0x08 then nthD [] k (routeCrops s p) else [])
  else
    let packs := nthD [] k (packGroups s p)
    let before := feedersOf s packs
    let scales := before.filter fun e => e.2.kind == 0x09
    match kind with
    | 0x0A => packs
    | 0x09 => scales
    | _ => (if scales.isEmpty then before else feedersOf s scales).filter fun e => e.2.kind == kind

/-- A tap contains SCALE, or CROP (R189). [DEDUCED, log 137] -/
def tapScaled (s : State) (t : Nat) : Bool := !(tapInsts s t 0x09).isEmpty
def tapCropped (s : State) (t : Nat) : Bool := decide (tapDest s t < 2) || !(tapInsts s t 0x08).isEmpty

/-- A tap's stage has its turn: its tiles and its pipeline run, and a SEIF or CMP tap leads into main tiles (R48). -/
def tapRuns (s : State) (t kind : Nat) : Bool :=
  stageRuns s 1 (t / 4) (tapInsts s t kind) && (decide (tapDest s t < 2) || mainPowered s)

/-- Bands of the lines that leave a pipeline: OUT_BANDS of its active bank, or BANDS with CMAT absent or disabled (R178). -/
def outBands (s : State) (p : Nat) : Nat :=
  if stageOn s p 0x06 5 then regFld s (Reg.BK_CTRL p (activeBank (pipeOf s p))) 6 4 else inBands s p

/-! ## Settings -/

/-- A BOX coefficient before the sum is made whole (R196): the overlap is in 1/4096 of a sample. -/
def boxCoef (step ph k : Nat) : Nat :=
  let o := min ((k + 1) * 4096) (ph * 128 + step) - max (k * 4096) (ph * 128)
  if step = 0 then 0 else (16384 * o * 2 + step) / (2 * step)

/-- Place of the first largest value. -/
def largestAt (l : List Nat) : Nat :=
  (l.zipIdx.foldl (fun (b : Nat × Nat) e => if b.1 < e.1 then e else b) (0, 0)).2

/-- The 16 coefficients of a phase (R196). -/
def phaseCoefs (filter step ph : Nat) : List Int :=
  if filter = 0 then
    let l := (upto 16).map (boxCoef step ph)
    let big := largestAt l
    l.zipIdx.map fun e => if e.2 = big then (e.1 : Int) + (16384 - (sumOf id l : Nat)) else (e.1 : Int)
  else
    let at' := (2 * ph * 128 + step) / 8192
    (upto 16).map fun k => if k = at' then 16384 else 0

/-- Both tables of the basic level: horizontal, then vertical. -/
def basicCoefs (filter stepX stepY : Nat) : List Int :=
  (upto 32).flatMap (phaseCoefs filter stepX) ++ (upto 32).flatMap (phaseCoefs filter stepY)

/-- The coefficient area of a tap (R196). -/
def coefAt (s : State) (t : Nat) : Nat := regWide s (Reg.OUT_COEF_LO t) (Reg.OUT_COEF_HI t)

/-- A tap stands at a frame start of its pipeline (R203): it has closed the frame before, and either the next frame's first
line waits for it or the pipeline has delivered none yet. [DEDUCED, log 138] -/
def atTapStart (s : State) (t : Nat) : Bool :=
  let x := tapOf s t
  !x.frameOpen && (!x.inq.isEmpty || (pipeOf s (t / 4)).delivered == 0)

/-- The pipeline's frame start for a tap (R196, R203, R306): LEVEL, EN and the window settings take effect, the
coefficients are derived at the basic level and copied, and discarding may end. -/
def tapStart (t : Nat) : Eff := chain [
  levelBoundary (Reg.OUT_TAP_CTRL t),
  endDiscard t,
  rd fun s =>
    let w := regGet s (Reg.OUT_TAP_CTRL t)
    let sc := regGet s (Reg.OUT_SCALE t)
    let filter := regFld s (Reg.OUT_FILTER t) 1 0
    let basic := !atExpert s (Reg.OUT_TAP_CTRL t)
    let area := coefAt s t
    let coefs := if basic then basicCoefs filter (fld sc 15 0) (fld sc 31 16)
      else (upto 1024).map fun i => sint 16 (memNat s (area + 2 * i) 2)
    let scaled := tapScaled s t
    let on := bit w 31 && bit w 28
    let bad := if scaled && !basic then poisoned s area 2048 else []
    chain [
      when (scaled && basic) (storeBytes area (coefs.flatMap fun c => leBytes 2 (wrapTo 16 c))),
      reportPoison 0x0A bad,
      modTap t fun x => { x with
        enNow := on, crop := if tapCropped s t then regGet s (Reg.OUT_CROP t) else 0#32
        scale := if scaled then sc else 0#32, filter := filter
        coef := if scaled then coefs else [], frameOpen := on, dropping := false, spillRaised := false
        discardRaised := false, discarded := false }]]

/-- TAP_FRAME_START. -/
def execTapFrameStart (t : Fin 1024) (s : State) : Host.Outcome State Fault Refusal :=
  .next (go (rd fun s => when (atTapStart s t) (tapStart t)) s)

/-- Taps that count as enabled, or are to be at their next boundary (R190). -/
def tapsEnabled (s : State) : Nat :=
  ((upto 1024).filter fun t => (tapOf s t).enNow || regBit s (Reg.OUT_TAP_CTRL t) 31).length

/-- A write of OUT_TAP_CTRL: one that would enable a 513th tap is ignored, and so is EN of an undeclared tap (R188, R190). -/
def tapCtrl (ini : Ini) (t : Nat) (v : Word) : Eff := rd fun s =>
  let w := regGet s (Reg.OUT_TAP_CTRL t)
  if bit v 31 && !bit w 31 && bit w 28 && !(tapOf s t).enNow && decide (512 ≤ tapsEnabled s) then
    raise 0x0A10 t notice t (tapsEnabled s)
  else writeReg ini (Reg.OUT_TAP_CTRL t) v fun _ new => when (!bit new 28) (putBit (Reg.OUT_TAP_CTRL t) 31 false)

/-- A window within the declared limits of a tap (R203). [DEDUCED, log 45] -/
def cropOk (s : State) (t : Nat) (v : Word) : Bool :=
  decide (fld v 31 16 ≤ regFld s (Reg.OUT_DECL_X t) 15 0) && decide (fld v 15 0 + fld v 31 16 ≤ actCount s (t / 4))

/-- A step within the declared limits of a tap (R203). [DEDUCED, log 45] -/
def scaleOk (s : State) (t : Nat) (v : Word) : Bool :=
  let one := fun (x lo : Nat) => decide (lo ≤ x ∧ 4096 ≤ x ∧ x ≤ 32768)
  one (fld v 15 0) (regFld s (Reg.OUT_DECL_X t) 31 16) && one (fld v 31 16) (regFld s (Reg.OUT_DECL_Y t) 15 0)

/-- A write of OUT_CROP or OUT_SCALE: ignored with WINDOW_REFUSED beyond the limits; an invalid zero is R13's case. -/
def windowWrite (ini : Ini) (t off : Nat) (v : Word) : Eff := rd fun s =>
  let crop := off == Reg.OUT_CROP t
  let zero := if crop then fld v 31 16 == 0 else fld v 31 16 == 0 || fld v 15 0 == 0
  if !zero && !(if crop then cropOk s t v else scaleOk s t v) then raise 0x0A11 t notice off v.toNat
  else writePlain ini off v

/-! ## CROP and SCALE -/

/-- The bands of a mask below a number of bands, rising (R192). -/
def maskBands (mask bands : Nat) : List Nat := (upto bands).filter fun c => mask.testBit c

/-- The samples CROP keeps; without a window the line passes whole (R192). -/
def cropData (crop : Word) (mask : Nat) (l : CapLine) : List Nat × Nat × Nat :=
  if crop = 0#32 then (l.data, l.data.length / max 1 l.bands, l.bands)
  else
    let bs := maskBands mask l.bands
    ((upFrom (fld crop 15 0) (fld crop 31 16)).flatMap fun x => bs.map fun c => nthD 0 (x * l.bands + c) l.data,
      fld crop 31 16, bs.length)

/-- CROP of the oldest input of a tap whose frame has started (R192, R199): a SEIF or CMP tap puts it on its route. -/
def cropLine (t : Nat) : Eff := rd fun s => match (tapOf s t).inq with
  | [] => skip
  | (i, time) :: rest =>
    let route := decide (2 ≤ tapDest s t)
    chain [
      modTap t fun x => { x with inq := rest },
      match i with
      | .close c =>
        if route then chain [
          modTap t fun x => { x with route := x.route ++ [.close c], frameOpen := false },
          outCount t 1 1]
        else modTap t fun x => { x with mid := x.mid ++ [.close c] }
      | .line l =>
        let mask := regFld s (Reg.OUT_PACK t) 11 8
        let is := tapInsts s t 0x08
        let d := cropData (tapOf s t).crop (if route ∧ mask = 0 then 15 else mask) l
        let tag := stageTag s 0x08 1 (t / 4) is l.tag
        chain [
          clearStageMark is,
          if route then chain [
            modTap t fun x => { x with route := x.route ++ [.line { l with tag := tag, data := d.1, bands := d.2.2 }] },
            outCount t 0 1]
          else modTap t fun x => { x with mid := x.mid ++ [.line ⟨tag, l.frame, d.2.1, d.2.2, d.1, time⟩] }]]

/-- CROP's turn: its tap's frame has started, its tiles run, and the route of a SEIF or CMP tap holds no line that its
destination has not taken (R41, R48, R199). [DESIGN CHOICE, log 43] -/
def cropTurn (s : State) (t : Nat) : Bool :=
  (tapOf s t).frameOpen && tapRuns s t 0x08 && !((tapOf s t).route.any itemLine)

/-- CROP_LINE. -/
def execCropLine (t : Fin 1024) (s : State) : Host.Outcome State Fault Refusal :=
  .next (go (rd fun s => when (cropTurn s t) (cropLine t)) s)

/-- Coefficient c[ph][k] of a table: `v` for the vertical one. -/
def coefOf (cs : List Int) (v : Bool) (ph k : Nat) : Int := nthD 0 (512 * b2n v + 16 * ph + k) cs

/-- One output of a filter pass at coordinate u (R193); `input` gives in[i]. -/
def filterAt (cs : List Int) (v : Bool) (step n u : Nat) (input : Nat → Nat) : Nat :=
  let pos := u * step
  let acc := (upto 16).foldl (fun a k =>
    sat32 (a + coefOf cs v (pos / 128 % 32) k * ((input (min (pos / 4096 + k) (n - 1)) : Nat) : Int))) (8192 : Int)
  u16 (sar acc 14)

/-- The horizontal pass of a line (R193). -/
def filterLine (cs : List Int) (step : Nat) (l : TapLine) : TapLine :=
  let w := ceilDiv (l.px * 4096) (max 1 step)
  { l with
    px := w
    data := (upto w).flatMap fun u => (upto l.bands).map fun c =>
      filterAt cs false step l.px u fun i => nthD 0 (i * l.bands + c) l.data }

/-- The input lines of output line v with a non-zero coefficient (R194, R195). -/
def footprint (cs : List Int) (step v : Nat) : List Nat :=
  let pos := v * step
  ((upto 16).filter fun k => coefOf cs true (pos / 128 % 32) k != 0).map fun k => pos / 4096 + k

/-- Output line v of the vertical pass over the frame's lines so far (R193, R195). -/
def verticalLine (cs : List Int) (step v : Nat) (hist : List TapLine) : TapLine :=
  let n := hist.length
  let blank : TapLine := ⟨{}, 0, 0, 1, [], 0⟩
  let base := nthD blank (min (v * step / 4096) (n - 1)) hist
  let used := (footprint cs step v).map fun i => nthD blank (min i (n - 1)) hist
  { base with
    tag := { base.tag with flags := used.foldl (fun f l => f ||| l.tag.flags) 0 }
    time := used.foldl (fun m l => max m l.time) base.time
    data := (upto base.data.length).map fun j => filterAt cs true step n v fun i => nthD 0 j (nthD blank i hist).data }

/-- Output lines from v on that may be emitted: all of whose inputs have arrived, or every remaining one at the frame
close (R194). -/
def readyLines (cs : List Int) (step : Nat) (close : Bool) (hist : List TapLine) : Nat → Nat → List TapLine
  | 0, _ => []
  | fuel + 1, v =>
    let last := (footprint cs step v).foldl max (v * step / 4096)
    if (if close then v * step / 4096 < hist.length else last < hist.length) then
      verticalLine cs step v hist :: readyLines cs step close hist fuel (v + 1)
    else []

/-- SCALE of the oldest cropped item of a tap (R193 to R196); a tap without SCALE passes it on. -/
def scaleLine (t : Nat) : Eff := rd fun s =>
  let x := tapOf s t
  match x.mid with
  | [] => skip
  | i :: rest =>
    let stepX := fld x.scale 15 0
    let stepY := fld x.scale 31 16
    chain [
      modTap t fun x => { x with mid := rest },
      if x.scale = 0#32 then modTap t fun x => { x with outq := x.outq ++ [i] }
      else match i with
        | .line l =>
          let m := stageTag s 0x09 1 (t / 4) (tapInsts s t 0x09) l.tag
          let hist := x.hist ++ [filterLine x.coef stepX { l with tag := m }]
          let out := readyLines x.coef stepY false hist (hist.length + 1) x.nextV
          chain [
            clearStageMark (tapInsts s t 0x09),
            modTap t fun x => { x with
              hist := hist, nextV := x.nextV + out.length, outq := x.outq ++ out.map .line }]
        | .close c =>
          let out := readyLines x.coef stepY true x.hist (x.hist.length + 1) x.nextV
          modTap t fun x => { x with hist := [], nextV := 0, outq := x.outq ++ out.map .line ++ [.close c] }]

/-- SCALE_LINE. -/
def execScaleLine (t : Fin 1024) (s : State) : Host.Outcome State Fault Refusal :=
  .next (go (rd fun s => when (tapRuns s t 0x09) (scaleLine t)) s)

/-! ## PACK -/

/-- The 16 bytes of a line tag (R25). -/
def tagBytes (t : LineTag) : List Byte :=
  leBytes 8 (t.seq % 256 + t.flags * 2 ^ 8 + t.pipe * 2 ^ 16 + t.web * 2 ^ 24) ++ leBytes 8 t.time

/-- Container code of R159 and value of a sample for an OPACK (R197). -/
def opackCode (o : Nat) : Nat := nthD 4 o [0, 1, 2, 4]
def opackValue (o v : Nat) : Nat :=
  match o with
  | 0 => min ((v + 128) / 256) 255
  | 1 => min ((v + 32) / 64) 1023
  | 2 => min ((v + 8) / 16) 4095
  | _ => v

/-- Values packed into the group layout of R159. -/
def packValues (code : Nat) (vs : List Nat) : List Byte :=
  (chunks (packGroup code) (vs.length + 1) vs).flatMap fun g =>
    leBytes (packBytes code) (sumOf (fun e => e.1 * 2 ^ (packBits code * e.2)) g.zipIdx)

/-- Bytes padded with zeros to a multiple of 8. -/
def pad8 (bs : List Byte) : List Byte := bs ++ leBytes (ceilDiv bs.length 8 * 8 - bs.length) 0

/-- Pixel-interleaved samples in the order of the stream (R160, R197). -/
def streamOrder (order : Bool) (bands : Nat) (l : List Nat) : List Nat :=
  if order then (upto bands).flatMap fun c => (chunks (max 1 bands) (l.length + 1) l).map fun px => nthD 0 c px else l

/-- The packed data of a line. -/
def packData (pk : Word) (l : TapLine) : List Byte :=
  let o := fld pk 3 0
  pad8 (packValues (opackCode o) ((streamOrder (bit pk 4) l.bands l.data).map (opackValue o)))

/-- The 32 bytes ahead of a packet's data (R198). -/
def packHead (t kind : Nat) (pk : Word) (tag : LineTag) (px bands frame lost : Nat) : List Byte :=
  tagBytes tag ++ leBytes 2 t ++ leBytes 1 kind ++ leBytes 1 (fld pk 4 0 + bands * 2 ^ 5) ++ leBytes 4 px
    ++ leBytes 4 frame ++ leBytes 4 lost

/-- The packet of a line, with its D_OUT end (R198, R202). -/
def linePacket (s : State) (t : Nat) (l : TapLine) : Packet :=
  let pk := regGet s (Reg.OUT_PACK t)
  let lat := (regGet s (Reg.OUT_LAT t)).toNat
  { kind := 1, source := t, time := l.tag.time, lostAt := (tapOf s t).lostAt
    due := if lat = 0 then none else some (l.time + lat * 1000 * oneNs)
    payload := packHead t 1 pk l.tag l.px l.bands l.frame (tapOf s t).lost ++ packData pk l }

/-- Output width of a tap (R193). [DEDUCED, log 45, 47] -/
def tapWidth (x : Tap) : Nat :=
  if x.scale = 0#32 then fld x.crop 31 16 else ceilDiv (fld x.crop 31 16 * 4096) (max 1 (fld x.scale 15 0))

/-- The packet of a frame close (R198). [DEDUCED, log 47] -/
def closePacket (s : State) (t : Nat) (c : FrameClose) : Packet :=
  let x := tapOf s t
  let pk := regGet s (Reg.OUT_PACK t)
  { kind := 1, source := t, lostAt := x.lostAt, missAt := c.missAt, dropAt := x.dropAt
    payload := packHead t 2 pk x.lastTag (tapWidth x) (maskBands (fld pk 11 8) (outBands s (t / 4))).length c.frame x.lost
      ++ leBytes 4 c.delivered ++ leBytes 4 c.missing ++ leBytes 4 c.check ++ leBytes 4 c.dropped
      ++ leBytes 4 (c.flags + 8 * b2n (x.dropped != 0) + 16 * b2n x.discarded)
      ++ leBytes 4 x.delivered ++ leBytes 4 x.check ++ leBytes 4 x.dropped }

/-- A line was placed by a tap. -/
def placed (t : Nat) (l : TapLine) : Eff := chain [
  outCount t 0 1,
  modTap t fun x => { x with
    lost := 0, lastTag := l.tag, delivered := x.delivered + 1, check := x.check + b2n (l.tag.flags.testBit fCheck) }]

/-- A MONITOR tap drops a line (R28, R200): the last line that it delivered of the frame is marked where it still holds it.
[DEDUCED, log 44] -/
def dropLine (t : Nat) (l : TapLine) : Eff := rd fun s =>
  let x := tapOf s t
  chain [
    outCount t 3 1,
    when (!x.dropping) (chain [
      raise 0x0A12 t degraded l.frame x.lastTag.seq,
      when (x.delivered != 0) (chain [
        modProducer t (dropInProducer x.lastTag),
        modTap t fun x => { x with lastTag := dropTag x.lastTag x.lastTag }])]),
    modTap t fun x => { x with
      dropping := true, dropped := x.dropped + 1
      dropAt := if x.dropped = 0 then (l.tag.time, l.tag.web) else x.dropAt }]

/-- An EVIDENCE tap spills a line, or discards it when the reserve takes no more (R27, R200, R306). -/
def spillLine (t : Nat) (l : TapLine) (p : Packet) : Eff := rd fun s =>
  let x := tapOf s t
  if !(producerOf s t).discarding && canSpill s t p then chain [
    spillPacket t p,
    outCount t 5 1,
    when (!x.spillRaised) (raise 0x0A13 t notice l.frame l.tag.seq),
    modTap t fun x => { x with spillRaised := true },
    placed t l]
  else chain [
    startDiscard t 1,
    outCount t 2 1,
    when (!x.discardRaised) (raise 0x0A14 t degraded l.frame l.tag.seq),
    modTap t fun x => { x with
      discardRaised := true, discarded := true, lost := x.lost + 1
      lostAt := if x.lost = 0 then (l.tag.time, l.tag.web) else x.lostAt }]

/-- PACK of the oldest item of a tap (R197 to R201); `room` says that its output buffer can take the line. -/
def packLine (t : Nat) (room : Bool) : Eff := rd fun s =>
  let x := tapOf s t
  match x.outq with
  | [] => skip
  | i :: rest => chain [
      modTap t fun x => { x with outq := rest },
      match i with
      | .line l =>
        let l := { l with tag := stageTag s 0x0A 1 (t / 4) (tapInsts s t 0x0A) l.tag }
        let p := linePacket s t l
        chain [
          clearStageMark (tapInsts s t 0x0A),
          if tapEvidence s t then
            if room && (producerOf s t).spill.isEmpty && !(producerOf s t).discarding then
              chain [bufferPacket t p, placed t l]
            else spillLine t l p
          else if room && !x.dropping then chain [bufferPacket t p, placed t l]
          else dropLine t l]
      | .close c => chain [
          modProducer t fun y => if y.spill.isEmpty then { y with buf := y.buf ++ [closePacket s t c] }
            else addSpill (closePacket s t c) y,
          outCount t 1 1,
          modTap t fun x => { x with
            frameOpen := false, delivered := 0, check := 0, dropped := 0, dropping := false, lost := 0 }]]

/-- PACK_LINE. -/
def execPackLine (t : Fin 1024) (room : Bool) (s : State) : Host.Outcome State Fault Refusal :=
  .next (go (rd fun s => when (tapRuns s t 0x0A) (packLine t room)) s)

/-- D_OUT of a packet that is delivered now (R202, R495). -/
def checkDout (p : Packet) : Eff := rd fun s => match p.due with
  | none => skip
  | some d => when (decide (d < timeNow s)) (chain [
      outCount p.source 4 1,
      raiseMerge 0x0A15 p.source degraded p.time (sar (timeNow s - d) 32).toNat,
      deadlineMiss 3])

/-! ## Views -/

/-- The words of OUT that are views of its state. -/
def outView (s : State) (off : Nat) : Option Word :=
  let rel := off - Reg.OUT_TAP_CTRL 0
  if off = Reg.OUT_GSTATUS then
    some (word (((upto 1024).filter fun t => regBit s (Reg.OUT_TAP_CTRL t) 28).length * 2 ^ 16
      + (s.taps.taps.filter fun e => e.2.enNow).length))
  else if rel < 0x40000 ∧ rel % 0x100 = 4 then
    let t := rel / 0x100
    let x := tapOf s t
    some (word (b2n (atExpert s (Reg.OUT_TAP_CTRL t)) * 2 ^ 24 + b2n (producerOf s t).discarding * 8
      + b2n (!(producerOf s t).spill.isEmpty) * 4 + b2n x.frameOpen * 2 + b2n x.enNow))
  else none

end Sys2Proof.Machine
end

