-- ==== Sys2Proof/Machine/Memory.lean ====
section
/-!
DEFINITION. Memory, buffers and queues (R290 to R314), with the row repairs that memory errors start (R444, R445) and the
check-value runs that read memory (R124).
-/
namespace Sys2Proof.Machine

/-! ## Power and errors -/

/-- The memory at an address is on in the power state in force (R419, R421). -/
def memPowered (s : State) (a : Nat) : Bool :=
  match s.ham.st with
  | .run => true
  | .full => true
  | .watch => decide (a < 0x1000000000)
  | _ => false

/-- Free spare rows of a pool array (16 on a part without factory repairs) and of a DRAM bank group (R441).
[PRESUMED, log 52] -/
def poolSpare (s : State) (array : Nat) : Nat := mget 16 array s.bch.poolSpares
/-- [PRESUMED, log 52] -/
def dramSpare (s : State) (group : Nat) : Nat := mget 1 group s.bch.dramSpares

/-- A change of what the repair record holds is committed to the copy that is not the newest (R442, R443). [DEDUCED, log 96, 116] -/
def mapCommit : Eff := rd fun s => putFld Reg.BCH_MAP_STATUS 1 0 (if regFld s Reg.BCH_MAP_STATUS 1 0 = 0 then 1 else 0)

/-- A pool row is repaired at once, or stays in service when its array has no spare row left (R444). -/
def poolRowRepair (row : Nat) : Eff := rd fun s =>
  let left := poolSpare s (row / 2 ^ 20)
  if left = 0 then raise 0x0418 0xFFFF degraded 0 row
  else chain [
    modBch fun b => { b with
      poolSpares := mput (row / 2 ^ 20) (left - 1) b.poolSpares, corrected := b.corrected.filter fun e => e.1 != row },
    mapCommit,
    raise 0x0416 0xFFFF notice row (left - 1)]

/-- The row of an address, where its memory has repair candidates: pool and DRAM (R444, R445). [PRESUMED, log 52] -/
def rowOf (a : Nat) : Option Nat :=
  if a < 0x10000000 then some (a / 1024 * 1024) else if 0x1000000000 ≤ a then some (Config.dramRow a) else none

/-- A row becomes a repair candidate (R444, R445). [DEDUCED, log 51, 114] -/
def rowCandidate (a : Nat) : Eff := match rowOf a with
  | none => skip
  | some r => if a < 0x10000000 then poolRowRepair r
    else modBch fun b => { b with dramRows := if b.dramRows.contains r then b.dramRows else b.dramRows ++ [r] }

/-- Raw ticks of 24 hours. -/
def dayTicks : Nat := 24 * 3600 * 500000000

/-- A corrected error counts for its row; the threshold of its memory makes the row a candidate (R444, R445).
[DEDUCED, log 51] -/
def countCorrected (a : Nat) : Eff := match rowOf a with
  | none => skip
  | some r => rd fun s =>
    let l := (r, s.raw) :: s.bch.corrected.filter fun e => decide (s.raw < e.2 + dayTicks)
    let t := if a < 0x10000000 then regFld s Reg.BCH_ROW_T 15 8 else regFld s Reg.BCH_ROW_T 7 0
    chain [
      modBch fun b => { b with corrected := l },
      when (t != 0 && decide (t ≤ (l.filter fun e => e.1 == r).length)) (rowCandidate a)]

/-- An access meets an error of an ECC word: corrected and reported, or poisoned from now on (R310, R311).
[DEDUCED, log 51] -/
def eccFound (e : EccFind) : Eff := rd fun s =>
  let w := e.addr.toNat / eccBytes e.addr.toNat * eccBytes e.addr.toNat
  if e.uncorr then
    when (!s.store.poison.contains w) (chain [
      modStore fun m => { m with poison := w :: m.poison },
      rowCandidate w])
  else chain [
    countSat Reg.MEM_ECC_CORR 1,
    raiseMerge 0x0E19 0xFFFF notice w (b2n (decide (0x1000000000 ≤ w))),
    countCorrected w]

/-- The errors that an access to `n` bytes from `a` meets. [DESIGN CHOICE, log 10] [DEDUCED, log 51] -/
def eccIn (a n : Nat) (ecc : List EccFind) : Eff := each (ecc.filter fun e =>
  decide (e.addr.toNat < a + n ∧ a < e.addr.toNat + eccBytes e.addr.toNat)) eccFound

/-! ## Accesses by software (R294, R337, R340) -/

/-- Runs of bytes whose enables are set, with the address of their first byte. -/
def enabledRuns : Nat → List (Option Byte) → List (Nat × List Byte)
  | _, [] => []
  | a, none :: r => enabledRuns (a + 1) r
  | a, some b :: r => match enabledRuns (a + 1) r with
    | (c, bs) :: l => if c = a + 1 then (a, b :: bs) :: l else (a, [b]) :: (c, bs) :: l
    | [] => [(a, [b])]

/-- The size of an access. -/
def opBytes : MemOp → Nat
  | .read dws => 4 * dws.toNat
  | .write bs => bs.length

/-- The block code of who accesses memory, and the device address. -/
def fromBlock : MemFrom → Nat
  | .host _ _ => 0x00
  | .core _ _ => 0x03
  | .mover _ _ => 0x10
def fromAddr (s : State) : MemFrom → Nat
  | .host k o => regWide s (Reg.HGW_WIN_BASE_LO k) (Reg.HGW_WIN_BASE_HI k) + o.toNat
  | .core _ a => a.toNat
  | .mover _ a => a.toNat

/-- BAR2 offset of a host access (R337). -/
def winOffset : MemFrom → Nat
  | .host k o => 0x10000000 * k.val + o.toNat
  | _ => 0

/-- The words a read answers. -/
def readAnswer (who : MemFrom) (op : MemOp) (v : Nat → Word) : Eff :=
  match op with
  | .write _ => skip
  | .read dws => each (upto dws.toNat) fun i => match who with
    | .host _ _ => emit (.window 2 (winOffset who + 4 * i) (v i))
    | .core n _ => emit (.memWord 0x03 n (v i))
    | .mover c _ => emit (.memWord 0x10 c (v i))

/-- An access to memory that is off, or to no memory (R337, R421). [DESIGN CHOICE, log 53] -/
def memAbsent (who : MemFrom) (op : MemOp) (off : Bool) : Eff := rd fun s => chain [
  readAnswer who op fun _ => allOnes,
  match who with
  | .host _ _ => if off then blockOff 2 (winOffset who)
    else raise 0x0014 0xFFFF notice (winOffset who) (fromAddr s who)
  | _ => when off (withFree 64 fun v => raiseMerge 0x011C 0xFFFF notice v.toNat (powerCode s.ham.st))]

/-- The access to memory that is there: errors met, then the read with all ones in the DWs of uncorrectable words, or the
write under the guards. -/
def memPerform (who : MemFrom) (op : MemOp) (ecc : List EccFind) : Eff := rd fun s0 =>
  let a := fromAddr s0 who
  chain [
    eccIn a (opBytes op) ecc,
    match op with
    | .write bs => each (enabledRuns a bs) fun r => softWrite r.1 r.2
    | .read _ => rd fun s =>
      let bad := poisoned s a (opBytes op)
      chain [
        reportPoison (fromBlock who) bad,
        match who with
        | .host _ _ => each bad fun w => raise 0x0015 0xFFFF degraded (winOffset who + (w - a)) (max w a)
        | _ => skip,
        readAnswer who op fun i =>
          if (poisoned s (a + 4 * i) 4).isEmpty then word (memNat s (a + 4 * i) 4) else allOnes]]

/-- An access by the host, a core or the Mover. [DESIGN CHOICE, log 79] -/
def memAccess (who : MemFrom) (op : MemOp) (ecc : List EccFind) : Eff := rd fun s =>
  let a := fromAddr s who
  let host : Bool := match who with
    | .host _ _ => true
    | _ => false
  if host ∧ !takesRequests s then (if s.gw.up then unsupportedMem else skip)
  else if s.mainReset then skip
  else if !inMap a (opBytes op) then memAbsent who op false
  else if !memPowered s a then memAbsent who op true
  else memPerform who op ecc

/-- APERTURE_ACCESS. [DESIGN CHOICE, log 79] -/
def execApertureAccess (who : MemFrom) (op : MemOp) (ecc : List EccFind) (s : State) :
    Host.Outcome State Fault Refusal := .next (go (match who with
    | .host k o => inOrder (.mem k o op ecc) (memAccess who op ecc)
    | _ => memAccess who op ecc) s)

/-! ## Scrubber (R312) -/

/-- Bytes of the pool and the DRAM together. [DEDUCED, log 54] -/
def scrubTotal : Nat := 0x10000000 + 0x1000000000

/-- Bytes the scrubber reads in a step of 100 ms. [DEDUCED, log 54] -/
def scrubShare (s : State) : Nat :=
  if atExpert s Reg.MEM_CTRL then regFld s Reg.MEM_SCRUB_RATE 15 0 * 100000
  else ceilDiv scrubTotal (max 1 (regFld s Reg.MEM_SCRUB 7 0) * 36000)

/-- Place of a device address in the scrubber's order. [DEDUCED, log 54] -/
def scrubPlace (a : Nat) : Nat := if a < 0x10000000 then a else a - 0x1000000000 + 0x10000000

/-- A place lies in a step's share. [DEDUCED, log 54] -/
def inShare (from' n p : Nat) : Bool := decide ((p + scrubTotal - from') % scrubTotal < n)

/-- The next share of pool and DRAM is read and corrected. -/
def scrubStep (ecc : List EccFind) : Eff := chain [
  levelBoundary Reg.MEM_CTRL,
  rd fun s0 =>
    let n := min (scrubShare s0) scrubTotal
    let p := s0.store.scrub
    chain [
      each (ecc.filter fun e => inMap e.addr.toNat 1 && memPowered s0 e.addr.toNat
        && (unitOf e.addr.toNat).isSome && inShare p n (scrubPlace e.addr.toNat)) eccFound,
      rd fun s => reportPoison 0x0E
        (s.store.poison.filter fun w => memPowered s w && (unitOf w).isSome && inShare p n (scrubPlace w)),
      modStore fun m => { m with scrub := (p + n) % scrubTotal }]]

/-- SCRUB_STEP. -/
def execScrubStep (ecc : List EccFind) (s : State) : Host.Outcome State Fault Refusal := .next (go (scrubStep ecc) s)

/-! ## Ownership ports (R293 to R297) -/

/-- Number of units of a kind that can be owned: blocks, and granules below the evidence reserve. -/
def unitCount (kind : Nat) : Nat := if kind = 0 then 65536 else 983040

/-- Owner ids of a kind. -/
def ownersOf (s : State) (kind : Nat) : List (Nat × Nat) := if kind = 0 then s.store.blocks else s.store.granules

/-- The lowest run of `n` FREE units from `pos` on, below `limit`. -/
def freeRun (limit n : Nat) : Nat → List (Nat × Nat) → Option Nat
  | pos, [] => if pos + n ≤ limit then some pos else none
  | pos, (k, _) :: r => if pos + n ≤ k ∧ pos + n ≤ limit then some pos else freeRun limit n (max pos (k + 1)) r

/-- The identity a port acts with (R295). -/
def portOwner (i : Nat) : Nat := if i = 0 ∨ i = 5 then 0x6000 else 0x7000 + (i - 1)

/-- The refusal a run of units meets: RESULT, the event, the failing index and the owner found (R296). -/
structure UnitBad where
  result : Nat
  code : Nat
  index : Nat
  found : Nat
  deriving DecidableEq, Repr

/-- Checks 3 to 5 of R296 on units from `i` on. -/
def checkUnits (s : State) (kind me : Nat) : Nat → Nat → Option UnitBad
  | _, 0 => none
  | i, n + 1 =>
    let o := ownerOf s kind i
    if o = 0 then some ⟨3, 0x0E11, i, o⟩
    else if o ≠ me then some ⟨2, 0x0E10, i, o⟩
    else if unitGuarded s kind i then some ⟨6, 0x0E12, i, o⟩
    else checkUnits s kind me (i + 1) n

/-- Runs of units with one owner, FREE ones left out: kind, first, count and owner. -/
def ownerRuns (s : State) (kind : Nat) : Nat → Nat → List (Nat × Nat × Nat × Nat)
  | _, 0 => []
  | i, n + 1 =>
    let o := ownerOf s kind i
    match ownerRuns s kind (i + 1) n with
    | (k, f, m, p) :: r =>
      if o = 0 then (k, f, m, p) :: r
      else if o = p ∧ f = i + 1 then (k, i, m + 1, o) :: r else (kind, i, 1, o) :: (k, f, m, p) :: r
    | [] => if o = 0 then [] else [(kind, i, 1, o)]

/-- A port operation completes with a RESULT: GO clears, DONE is set, and FOUND is written (R296, R313). The port stays
BUSY for a time that R297 only bounds, at most 2 us plus 1 ns per unit. -/
def apDone (i n result : Nat) (guard : Bool) (found : Option Nat) : Eff := withFree 32 fun d => rd fun s => chain [
  setReg (Reg.MEM_AP_STATUS i) (word (2 ^ 30 + b2n guard * 2 ^ 29 + result)),
  putBit (Reg.MEM_AP_CTRL i) 31 false,
  match found with
  | some o => putFld (Reg.MEM_AP_OWNER i) 31 16 o
  | none => skip,
  when (n != 0) (modStore fun m => { m with portEnd := mput i (s.raw + d.toNat % (1001 + n / 2)) m.portEnd })]

/-- FREE and GIVE hand a run of units on: all-or-nothing (R296). -/
def apMove (i kind op n : Nat) (owner : Nat) : Eff := rd fun s =>
  let first := regFld s (Reg.MEM_AP_INDEX i) 19 0
  let typ := owner / 2 ^ 12
  if unitCount kind < first + n then apDone i n 4 false none
  else if op = 2 ∧ (typ = 0 ∨ 8 ≤ typ) then apDone i n 5 false none
  else match checkUnits s kind (portOwner i) first n with
    | some b => chain [
        raise b.code i notice (kind * 2 ^ 63 + b.index) (op * 2 ^ 32 + b.found),
        apDone i n b.result false (some b.found)]
    | none => chain [setOwners kind first n owner, apDone i n 0 false none]

/-- ALLOC (R295, R296). -/
def apAlloc (i kind n : Nat) : Eff := rd fun s =>
  match freeRun (unitCount kind) n 0 (ownersOf s kind) with
  | some f => chain [
      setOwners kind f n (portOwner i),
      putFld (Reg.MEM_AP_INDEX i) 19 0 f,
      apDone i n 0 false none]
  | none => chain [raise 0x0E13 i notice kind n, apDone i n 1 false none]

/-- QUERY (R295, R296). -/
def apQuery (i kind : Nat) : Eff := rd fun s =>
  let u := regFld s (Reg.MEM_AP_INDEX i) 19 0
  if (if kind = 0 then 65536 else 1048576) ≤ u then apDone i 1 4 false none
  else apDone i 1 0 (unitGuarded s kind u) (some (ownerOf s kind u))

/-- The operation of a port starts and takes its effect (R295, R297). -/
def apRun (i : Nat) : Eff := rd fun s =>
  let c := regGet s (Reg.MEM_AP_CTRL i)
  let kind := fld c 27 27
  let n := fld c 20 0
  match fld c 30 28 with
  | 0 => if n = 0 then apDone i 0 0 false none else apAlloc i kind n
  | 1 => if n = 0 then apDone i 0 0 false none else apMove i kind 1 n 0
  | 2 => if n = 0 then apDone i 0 0 false none else apMove i kind 2 n (regFld s (Reg.MEM_AP_OWNER i) 15 0)
  | _ => apQuery i kind

/-- A port is BUSY. [DESIGN CHOICE, log 48] -/
def portBusy (s : State) (i : Nat) : Bool := decide (s.raw < mget 0 i s.store.portEnd)

/-- A write of MEM_AP_CTRL: GO starts the operation, or is ignored while BUSY (R297). -/
def apCtrl (ini : Ini) (i : Nat) (v : Word) : Eff := rd fun s0 =>
  let busy := portBusy s0 i
  writeReg ini (Reg.MEM_AP_CTRL i) v fun _ _ => when (bit v 31) (
    if busy then chain [putBit (Reg.MEM_AP_CTRL i) 31 false, raise 0x0E14 i notice i 0] else apRun i)

/-- The word that starts an operation of a port. -/
def apWord (op : Nat) (granule : Bool) (count : BitVec 21) : Word :=
  word (2 ^ 31 + op * 2 ^ 28 + b2n granule * 2 ^ 27 + count.toNat)

/-- The start of an operation at a port. [DESIGN CHOICE, log 48] -/
def apGo (ini : Ini) (i op : Nat) (granule : Bool) (count : BitVec 21) : Eff :=
  busWrite ini (Reg.MEM_AP_CTRL i) (apWord op granule count) (apCtrl ini i (apWord op granule count))

/-- ALLOC. -/
def execAlloc (ini : Ini) (port : Fin 6) (granule : Bool) (count : BitVec 21) (s : State) :
    Host.Outcome State Fault Refusal := .next (go (apGo ini port 0 granule count) s)

/-- FREE. -/
def execFree (ini : Ini) (port : Fin 6) (granule : Bool) (count : BitVec 21) (s : State) :
    Host.Outcome State Fault Refusal := .next (go (apGo ini port 1 granule count) s)

/-- GIVE. -/
def execGive (ini : Ini) (port : Fin 6) (granule : Bool) (count : BitVec 21) (s : State) :
    Host.Outcome State Fault Refusal := .next (go (apGo ini port 2 granule count) s)

/-- QUERY. -/
def execQuery (ini : Ini) (port : Fin 6) (granule : Bool) (count : BitVec 21) (s : State) :
    Host.Outcome State Fault Refusal := .next (go (apGo ini port 3 granule count) s)

/-! ## Result queues (R298 to R304) -/

/-- One queue. -/
def rqOf (s : State) (q : Nat) : Rq := mget {} q s.store.rqs

/-- Change one queue. -/
def modRq (q : Nat) (f : Rq → Rq) : Eff := modStore fun m => { m with rqs := mput q (f (mget {} q m.rqs)) m.rqs }

/-- LOC: the ring lies in DRAM. -/
def rqDram (s : State) (q : Nat) : Bool := regBit s (Reg.MEM_RQ_CTRL q) 29

/-- Base address and size in bytes of a ring, and the consumer's offset. -/
def rqBase (s : State) (q : Nat) : Nat := regWide s (Reg.MEM_RQ_BASE_LO q) (Reg.MEM_RQ_BASE_HI q)
def rqSize (s : State) (q : Nat) : Nat := regFld s (Reg.MEM_RQ_SIZE q) 20 0 * 4096
def rqHead (s : State) (q : Nat) : Nat := (regGet s (Reg.MEM_RQ_HEAD q)).toNat

/-- Bytes go into a ring, through the memory system or the gateway (R300). -/
def ringWrite (q off : Nat) (bs : List Byte) : Eff := rd fun s =>
  if rqDram s q then storeBytes (rqBase s q + off) bs else hostWrite (rqBase s q + off) bs

/-- Padded size of a packet whose LEN is `n` (R298). -/
def padded (n : Nat) : Nat := ceilDiv n 64 * 64

/-- The writable space of a ring (R299). [DEDUCED, log 49] -/
def rqSpace (s : State) (q : Nat) : Nat :=
  let size := rqSize s q
  (rqHead s q + 2 * size - (rqOf s q).tail - 64) % size

/-- A packet of padded size `p` fits: none, or whether a PAD packet goes first (R299). [DESIGN CHOICE, log 48] -/
def rqPlace (s : State) (q p : Nat) : Option Bool :=
  let rest := rqSize s q - (rqOf s q).tail
  if p ≤ rest ∧ p ≤ rqSpace s q then some false
  else if rest < p ∧ rest + p ≤ rqSpace s q then some true else none

/-- Producers find the queue open: it is enabled, with no cleared EN waiting for this packet boundary, and a host ring can
be written (R303, R350). -/
def rqOpen (s : State) (q : Nat) : Bool :=
  (rqOf s q).enNow && regBit s (Reg.MEM_RQ_CTRL q) 31 && (rqDram s q || canIssue s)

/-- One packet is written at TAIL in the order of R300, and TAIL advances. -/
def rqEmit (q len kind source : Nat) (payload : List Byte) : Eff := rd fun s =>
  let t := (rqOf s q).tail
  let p := padded len
  chain [
    ringWrite q (t + 4) ((leBytes 2 source ++ leBytes 1 kind ++ leBytes 1 0 ++ payload ++ leBytes p 0).take (p - 4)),
    ringWrite q ((t + p) % rqSize s q) (leBytes 4 0),
    ringWrite q t (leBytes 4 len),
    modRq q fun r => { r with tail := (t + p) % rqSize s q },
    countUp (Reg.MEM_RQ_PKTS q) 1]

/-- The consumer is notified: an MSI-X message for a host ring, the core's pending bit for a DRAM ring (R302, R412).
[DEDUCED, log 19] -/
def rqNotify (q : Nat) : Eff := rd fun s =>
  let v := regFld s (Reg.MEM_RQ_CTRL q) 21 16
  chain [
    modRq q fun r => { r with news := 0 },
    if rqDram s q then
      let reg := if q < 32 then Reg.CCO_RQ_PEND_LO (v % 4) else Reg.CCO_RQ_PEND_HI (v % 4)
      putBit reg (q % 32) true
    else msix v]

/-- The queue a producer's packets go to; none where they go elsewhere. -/
def queueOf (s : State) (k : Nat) : Option Nat :=
  if k < 0x1000 then
    if tapDest s k = 0 then some (regFld s (Reg.OUT_TAP_CTRL k) 21 16) else none
  else if k < 0x1100 then some (regFld s (Reg.CMP_BAR_QUEUE (k - 0x1000)) 5 0)
  else if k < 0x2000 then none
  else if k < 0x3000 then some (regFld s (Reg.SEI_PM_CTRL (k - 0x2000)) 5 0)
  else if k < 0x8000 then some (regFld s (Reg.SEI_BAR_QUEUE ((k - 0x3000) / 64)) 5 0)
  else if k = 0x8000 then some (regFld s Reg.JRN_QUEUE 5 0) else none

/-- The oldest packet of a producer goes to its queue, or the producer waits for space (R299 to R304). -/
def rqPacket (k : Nat) : Eff := rd fun s =>
  match queueOf s k, (producerOf s k).buf with
  | some q, p :: _ =>
    let len := 8 + p.payload.length
    match (if rqOpen s q then rqPlace s q (padded len) else none) with
    | none => modRq q fun r => { r with full := true }
    | some pad => chain [
        when pad (rqEmit q (rqSize s q - (rqOf s q).tail) 5 0 []),
        rqEmit q len p.kind p.source p.payload,
        takePacket k,
        modRq q fun r => { r with
          full := false, news := r.news + 1, since := if r.news = 0 then s.raw else r.since },
        checkDout p,
        rd fun s' =>
          let n := regFld s' (Reg.MEM_RQ_CTRL q) 15 0
          when (n != 0 && decide (n ≤ (rqOf s' q).news)) (rqNotify q)]
  | _, _ => skip

/-- RQ_PACKET_WRITE. -/
def execRqPacketWrite (producer : BitVec 16) (s : State) : Host.Outcome State Fault Refusal :=
  .next (go (rqPacket producer.toNat) s)

/-- NOTIFY_US after the first unannounced packet the queue notifies (R302). -/
def rqTimeout (q : Nat) : Eff := rd fun s =>
  let us := regFld s (Reg.MEM_RQ_NOTIFY q) 15 0
  when (us != 0 && (rqOf s q).news != 0 && decide ((rqOf s q).since + 500 * us ≤ s.raw)) (rqNotify q)

/-- RQ_NOTIFY_TIMEOUT. -/
def execRqNotifyTimeout (q : Fin 64) (s : State) : Host.Outcome State Fault Refusal := .next (go (rqTimeout q) s)

/-- A write of MEM_RQ_CTRL: EN set makes TAIL equal to HEAD and enables a queue that is disabled, which is at a packet
boundary; FLUSH and a cleared EN wait for the boundary (R301, R303). [DEDUCED, log 49] -/
def rqCtrl (ini : Ini) (q : Nat) (v : Word) : Eff := writeReg ini (Reg.MEM_RQ_CTRL q) v fun _ new => rd fun s => chain [
  when (bit new 31 && !(rqOf s q).enNow) (modRq q fun r => { r with tail := rqHead s q, enNow := true, news := 0 }),
  when (bit v 30) (modRq q fun r => { r with flush := true })]

/-- RQ_FLUSH. -/
def execRqFlush (ini : Ini) (q : Fin 64) (v : Word) (s : State) : Host.Outcome State Fault Refusal :=
  .next (go (busWrite ini (Reg.MEM_RQ_CTRL q) v (rqCtrl ini q v)) s)

/-- RQ_ENABLE. -/
def execRqEnable (ini : Ini) (q : Fin 64) (v : Word) (s : State) : Host.Outcome State Fault Refusal :=
  .next (go (busWrite ini (Reg.MEM_RQ_CTRL q) v (rqCtrl ini q v)) s)

/-- The packet boundary of a queue: a flush notifies whatever the coalescing and clears, and a cleared EN disables the
queue (R303). [DEDUCED, log 49] -/
def rqBoundary (q : Nat) : Eff := rd fun s => chain [
  when (rqOf s q).flush (chain [
    rqNotify q,
    putBit (Reg.MEM_RQ_CTRL q) 30 false,
    modRq q fun r => { r with flush := false }]),
  when (!regBit s (Reg.MEM_RQ_CTRL q) 31) (modRq q fun r => { r with enNow := false })]

/-- RQ_BOUNDARY_APPLY. -/
def execRqBoundaryApply (q : Fin 64) (s : State) : Host.Outcome State Fault Refusal := .next (go (rqBoundary q) s)

/-- The consumer writes HEAD: a value that is no multiple of 64, at or above SIZE, or past TAIL is ignored (R301).
[DEDUCED, log 49] -/
def rqHeadWrite (ini : Ini) (q : Nat) (v : Word) : Eff := rd fun s =>
  let size := rqSize s q
  let t := (rqOf s q).tail
  let gone := fun x => (x + size - rqHead s q) % size
  if v.toNat % 64 ≠ 0 ∨ size ≤ v.toNat ∨ gone t < gone v.toNat then chain [
    modRq q fun r => { r with err := true },
    raise 0x0E15 q notice v.toNat t]
  else chain [
    writePlain ini (Reg.MEM_RQ_HEAD q) v,
    modRq q fun r => { r with err := false }]

/-- RQ_HEAD_WRITE. -/
def execRqHeadWrite (ini : Ini) (q : Fin 64) (v : Word) (s : State) : Host.Outcome State Fault Refusal :=
  .next (go (busWrite ini (Reg.MEM_RQ_HEAD q) v (rqHeadWrite ini q v)) s)

/-! ## Check-value runs (R124) -/

/-- A run ends in error. [DEDUCED, log 50] -/
def cvuFail (u code addr : Nat) : Eff := chain [
  setReg (Reg.CVU_U_STATUS u) (word (2 ^ 30 + 2 ^ 29 + code)),
  raise 0x1311 u degraded code addr]

/-- The first address of a range that no memory answers. -/
def firstAbsent (s : State) (a : Nat) : Nat → Nat
  | 0 => a
  | n + 1 => if inMap a 1 && memPowered s a then firstAbsent s (a + 1) n else a

/-- A run completes: the check value of the bytes as they stand, or the error it met (R124, R311). [DEDUCED, log 50] -/
def cvuEnd (u : Nat) (r : CvuRun) : Eff := rd fun s =>
  let bad := poisoned s r.addr r.len
  chain [
    modPlk fun k => { k with cvuRuns := mdel u k.cvuRuns },
    putBit (Reg.CVU_U_CTRL u) 31 false,
    if 2 ≤ r.alg then cvuFail u 3 r.addr
    else if !(inMap r.addr r.len && memPowered s r.addr) then cvuFail u 1 (firstAbsent s r.addr r.len)
    else if !bad.isEmpty then chain [reportPoison 0x13 bad, cvuFail u 2 (max r.addr (bad.foldl min (r.addr + r.len)))]
    else
      let prev := if r.resume then (regGet s (Reg.CVU_U_RESULT u)).toNat else 0
      let v := crc32 (if r.alg = 0 then polyC else polyHdlc) (memBytes s r.addr r.len) prev
      chain [
        setReg (Reg.CVU_U_RESULT u) (word v),
        setReg (Reg.CVU_U_STATUS u) (word (2 ^ 30)),
        raise 0x1310 u notice v r.len]]

/-- The run of a unit, if it has one, completes. -/
def cvuDone (u : Nat) : Eff := rd fun s => match mget? u s.plk.cvuRuns with
  | some r => cvuEnd u r
  | none => skip

/-- CVU_DONE. -/
def execCvuDone (u : Fin 16) (s : State) : Host.Outcome State Fault Refusal := .next (go (cvuDone u) s)

/-! ## Views -/

/-- Packets of the producers that wait for a queue (R313). -/
def rqWaiting (s : State) (q : Nat) : Nat :=
  sumOf (fun e => if queueOf s e.1 = some q then e.2.buf.length + e.2.spill.length else 0) s.store.producers

/-- The words of a queue that are views of its state. -/
def rqView (s : State) (q rel : Nat) : Option Word :=
  let r := rqOf s q
  match rel with
  | 0x14 => some (word r.tail)
  | 0x1C => some (word (b2n r.full * 2 ^ 31 + b2n r.flush * 2 ^ 30 + b2n r.err * 2 ^ 29 + b2n r.enNow * 2 ^ 28
      + min (rqWaiting s q) 0xFFFF))
  | _ => none

/-- The words of MEM that are views of its state (R313). -/
def memView (s : State) (off : Nat) : Option Word :=
  let rel := off - Reg.MEM_CTRL
  if off = Reg.MEM_STATUS then
    some (word (b2n (atExpert s Reg.MEM_CTRL) * 2 ^ 24
      + b2n (s.store.producers.any fun e => e.2.discarding) * 2 + b2n (decide (reserveFree s < 8192))))
  else if off = Reg.MEM_BLK_FREE then some (word (65536 - s.store.blocks.length))
  else if off = Reg.MEM_GRN_FREE then some (word (983040 - s.store.granules.length))
  else if off = Reg.MEM_RES_FREE then some (word (reserveFree s))
  else if 0x1000 ≤ rel ∧ rel < 0x10C0 then
    let i := (rel - 0x1000) / 0x20
    let w := regGet s off
    if portBusy s i then
      if rel % 0x20 = 0 then some (setFld w 31 31 1)
      else if rel % 0x20 = 0xC then some (word (2 ^ 31 + w.toNat % 2 ^ 30)) else none
    else none
  else if 0x2000 ≤ rel ∧ rel < 0x3000 then rqView s ((rel - 0x2000) / 0x40) (rel % 0x40)
  else if 0x40000 ≤ rel then
    let b := (rel - 0x40000) / 4
    some (word (b2n (unitGuarded s 0 b) * 2 ^ 31 + ownerOf s 0 b))
  else none

end Sys2Proof.Machine
end

