-- ==== Sys2Proof/Machine/Seif.lean ====
section
/-!
DEFINITION. Seif stitcher and web registration (R206 to R231): camera lines and mark measurement, rows, models and seams,
free-standing marks and web watching.
-/
namespace Sys2Proof.Machine

/-! ## Bars and slots -/

/-- One bar, and one slot. -/
def barOf (s : State) (b : Nat) : SeiBar := mget {} b s.sei.bars
def slotOf (s : State) (b k : Nat) : Slot := mget {} k (barOf s b).slots

/-- Change one bar, or one slot. -/
def modBar (b : Nat) (f : SeiBar → SeiBar) : Eff := modSei fun x => { x with bars := mput b (f (mget {} b x.bars)) x.bars }
def modSlot (b k : Nat) (f : Slot → Slot) : Eff :=
  modBar b fun x => { x with slots := mput k (f (mget {} k x.slots)) x.slots }

/-- The counters from SEI_ROWS: 0 rows, 1 frames, which wrap; 2 TRUNC_ROWS, 3 MARK_OK, 4 MARK_MISS, 5 MARK_REJECT and
6 CLAMP, which stop (R230). [DEDUCED, log 56] -/
def seiCount (b k : Nat) : Eff := if k < 2 then countUp (Reg.SEI_BAR_COUNTS b k) 1 else countSat (Reg.SEI_BAR_COUNTS b k) 1

/-- Declared slots of a bar. -/
def slotCount (s : State) (b : Nat) : Nat := regFld s (Reg.SEI_BAR_CTRL b) 22 16
def barSlots (s : State) (b : Nat) : List Nat := (upto (slotCount s b)).filter fun k => regBit s (Reg.SEI_CAM_CTRL b k) 31

/-- A bar is at the expert level. -/
def barExpert (s : State) (b : Nat) : Bool := atExpert s (Reg.SEI_BAR_CTRL b)

/-- Grid resolution, width and distance of a bar (R207, R210). -/
def dpiOf (s : State) (b : Nat) : Nat := max 1 (regFld s (Reg.SEI_BAR_GRID b) 10 0)
def widthOf (s : State) (b : Nat) : Nat := regFld s (Reg.SEI_BAR_WIDTH b) 18 0
def distOf (s : State) (b : Nat) : Int := sint 32 (regGet s (Reg.SEI_BAR_DIST b)).toNat

/-- OFFSET_UM of a generator. -/
def offsetUm (s : State) (g : Nat) : Int := sint 32 (regGet s (Reg.TIM_TRG_OFFSET g)).toNat

/-- Value j of a model: 0 OX, 1 SX, 2 DY, 3 KY. -/
def modelVal (m : CamModel) (j : Nat) : Int :=
  match j with
  | 0 => m.ox
  | 1 => m.sx
  | 2 => m.dy
  | _ => m.ky

/-- A model with one value replaced. -/
def setModelVal (m : CamModel) (j : Nat) (v : Int) : CamModel :=
  match j with
  | 0 => { m with ox := v }
  | 1 => { m with sx := v }
  | 2 => { m with dy := v }
  | _ => { m with ky := v }

/-- The nominal model of a slot: OX, DY and KY are signed, SX is not (R209). -/
def nominal (s : State) (b k : Nat) : CamModel :=
  let w := fun j => (regGet s (Reg.SEI_CAM_NOM_OX b k j)).toNat
  ⟨sint 32 (w 0), ((w 1 : Nat) : Int), sint 32 (w 2), sint 32 (w 3)⟩

/-- A bar has marks: a MARK instance and a repeat (R206, R220). -/
def hasMarks (s : State) (b : Nat) : Bool := hasInst s 0x12 2 b && regGet s (Reg.SEI_BAR_MARK_REP b) != 0#32

/-- The bar acts as FIXED (R220, R225). -/
def fixedMode (s : State) (b : Nat) : Bool :=
  !barExpert s b && (!hasMarks s b || regFld s (Reg.SEI_BAR_REG b) 1 0 == 0)

/-- The loop takes targets. -/
def loopRuns (s : State) (b : Nat) : Bool :=
  hasMarks s b && (if barExpert s b then regBit s (Reg.SEI_BAR_LOOP b) 31 else regFld s (Reg.SEI_BAR_REG b) 1 0 != 0)

/-- The model in force of a slot. -/
def modelOf (s : State) (b k : Nat) : CamModel := ((slotOf s b k).model).getD (nominal s b k)

/-! ## The camera model (R208 to R211) -/

/-- What a slot's samples are computed from. -/
structure SlotGeo where
  k : Nat
  w : Nat
  m : CamModel
  /-- DIST - OFFSET in um, LPI of the camera's generator, and DPI of the grid. -/
  d : Int
  lpi : Nat
  dpi : Nat
  buf : List SlotLine
  /-- Covered grid columns: first, and one past the last. -/
  lo : Nat
  hi : Nat
  deriving DecidableEq, Repr

/-- The camera column of a grid column, in 1/256 (R209). -/
def x8At (m : CamModel) (x : Nat) : Int := (((x * 4096 : Nat) : Int) - m.ox) * m.sx / ((2 ^ 32 : Nat) : Int)

/-- The first grid column with x8 at least 0, and one past the last with x8 at most (W - 1) x 256 (R209). -/
def coverLo (m : CamModel) : Nat := ((m.ox + 4095) / 4096).toNat
def coverHi (m : CamModel) (w width : Nat) : Nat :=
  if m.sx ≤ 0 ∨ w = 0 then 0
  else min width (((m.ox + ((((w - 1) * 256 + 1) * 2 ^ 32 - 1 : Nat) : Int) / m.sx) / 4096) + 1).toNat

/-- The pipeline of a slot. -/
def slotPipe (s : State) (b k : Nat) : Nat := regFld s (Reg.SEI_CAM_CTRL b k) 23 16

/-- The geometry of a slot in the model in force. -/
def geoOf (s : State) (b k : Nat) : SlotGeo :=
  let p := slotPipe s b k
  let w := regFld s (Reg.SEI_CAM_CTRL b k) 15 0
  let m := modelOf s b k
  { k := k, w := w, m := m, d := distOf s b - offsetUm s p, lpi := lpiOf s p, dpi := dpiOf s b, buf := (slotOf s b k).buf
    lo := coverLo m, hi := coverHi m w (widthOf s b) }

/-- The along-web term e of a camera column, S24.8 um (R210). -/
def alongAt (m : CamModel) (x8 : Int) : Int := m.dy + sar (m.ky * x8) 24

/-- The line position n8 of a row at an along-web term (R210), exactly. -/
def n8At (g : SlotGeo) (r : Nat) (e : Int) : Int :=
  (g.lpi : Int) * (256 * (((r * 25400 : Nat) : Int) + g.d * g.dpi) + e * g.dpi) / ((25400 * g.dpi : Nat) : Int)

/-- The along-web terms at the ends of a slot's covered columns: the smallest and the largest. -/
def alongEnds (g : SlotGeo) : Int × Int :=
  let a := alongAt g.m (x8At g.m g.lo)
  let z := alongAt g.m (x8At g.m (g.hi - 1))
  (min a z, max a z)

/-- The first and the last line a slot needs for a row in its covered columns (R216). -/
def linesFor (g : SlotGeo) (r : Nat) : Int × Int :=
  let e := alongEnds g
  (n8At g r e.1 / 256, n8At g r e.2 / 256 + 1)

/-- The lowest row whose lines in a slot all lie at or above index `f` (R216). -/
def rowFrom (g : SlotGeo) (f : Int) : Nat :=
  let l : Int := g.lpi
  let num := (g.dpi : Int) * (f * 25400 * 256 - (g.d * 256 + (alongEnds g).1) * l)
  ((num + 25400 * 256 * l - 1) / (25400 * 256 * l)).toNat

/-- The line index of a camera line of generator `g` (R208). [DEDUCED, log 57] -/
def lineIndex (s : State) (g : Nat) (web : Nat) : Int :=
  let num := (((web : Nat) : Int) - offsetUm s g) * (lpiOf s g : Int)
  (2 * num + 25400) / 50800

/-- The line at an index. -/
def lineOf (buf : List SlotLine) (n : Int) : Option CapLine := (firstWhere (fun l => l.n == n) buf).map fun l => l.line

/-- Lines n and n + 1 with the rule for a missing one (R218). -/
def linePair (buf : List SlotLine) (n : Int) : Option (CapLine × CapLine) :=
  match lineOf buf n, lineOf buf (n + 1) with
  | some a, some c => some (a, c)
  | some a, none => some (a, a)
  | none, some c => some (c, c)
  | none, none => none

/-! ## Marks (R220 to R226) -/

/-- A printed position y(xc) - (Y_i + off) of line index n, in units of 1 / (256 LPI) um (R220). -/
def markPos (s : State) (b : Nat) (g : SlotGeo) (e : Int) (occ : Nat) (off n : Int) : Int :=
  let y0 := sint 32 (regGet s (Reg.SEI_BAR_MARK_Y0 b)).toNat
  let rep : Int := (regGet s (Reg.SEI_BAR_MARK_REP b)).toNat
  256 * (g.lpi : Int) * (-g.d - (y0 + occ * rep) - off) + 256 * 25400 * n - e * (g.lpi : Int)

/-- A mark window of a slot: enabled, EX and HALF. -/
def winWord (s : State) (b k w : Nat) : Word := regGet s (Reg.SEI_CAM_WIN b k w)
def winEn (s : State) (b k w : Nat) : Bool := bit (winWord s b k w) 31
def winEx (s : State) (b k w : Nat) : Nat := fld (winWord s b k w) 18 0

/-- Centre column of a window under the model in force (R220). -/
def winCentre (s : State) (b k w : Nat) : Int := x8At (modelOf s b k) (winEx s b k w) / 256

/-- SEARCH_UM. -/
def searchUm (s : State) (b : Nat) : Int := (regGet s (Reg.SEI_BAR_MARK_SEARCH b)).toNat

/-- Sums of the samples of a band below a threshold in columns [lo, hi): how many, and their columns (R221). -/
def markSamples (l : CapLine) (band thresh lo hi : Nat) : Nat × Nat :=
  ((upFrom lo (hi - lo)).filter fun x => decide (nthD 65535 (x * l.bands + band) l.data < thresh)).foldl
    (fun a x => (a.1 + 1, a.2 + x)) (0, 0)

/-- Flags that make a line unfit for a mark: CHECK_MARK, TRUNC, XFER. -/
def fXfer : Nat := 4
def unfit (t : LineTag) : Bool := t.flags.testBit fCheck || t.flags.testBit fTrunc || t.flags.testBit fXfer

/-- One line in one window of a measurement: outside the range it ends it, inside it is examined; a missing index inside
the range spoils it (R220, R221). [DEDUCED, log 59] -/
def markLine (s : State) (b k w occ : Nat) (prev : Option Int) (l : SlotLine) (x : MarkSum) : MarkSum :=
  if x.done ∨ !winEn s b k w then { x with done := true }
  else
    let g := geoOf s b k
    let xc := winCentre s b k w
    let e := alongAt g.m (xc * 256)
    let S := searchUm s b
    let lowest := match prev with
      | some p => p + 1
      | none => 0
    -- indexes lowest to l.n - 1 are missing: do they reach into the range?
    let x := if lowest < l.n ∧ 0 ≤ markPos s b g e occ (-S) (l.n - 1) ∧ markPos s b g e occ S lowest ≤ 0 then
        { x with bad := true } else x
    if 0 < markPos s b g e occ S l.n then { x with done := true }
    else if markPos s b g e occ (-S) l.n < 0 then x
    else
      let half := fld (winWord s b k w) 27 19
      let lo := (xc - half).toNat
      let hi := min (g.w : Int) (xc + half + 1)
      let cfg := regGet s (Reg.SEI_BAR_MARK_CFG b)
      let a := markSamples l.line (fld cfg 18 16) (fld cfg 15 0) lo hi.toNat
      { x with
        tag := if x.area = 0 then l.line.tag else x.tag
        area := x.area + a.1, cols := x.cols + a.2, lines := x.lines + a.1 * l.n, web := x.web + a.1 * l.line.tag.web
        bad := x.bad || unfit l.line.tag }

/-- AREA limits. -/
def areaBad (s : State) (off a : Nat) : Nat :=
  if a < regFld s off 15 0 then 1 else if regFld s off 31 16 < a then 2 else 0

/-- STATUS of a mark packet (R228). -/
def markStatus (s : State) (off : Nat) (x : MarkSum) : Nat := if x.bad then 3 else areaBad s off x.area

/-- The 40-byte payload of a mark packet (R228). -/
def markPayload (source w status occ : Nat) (x : MarkSum) : List Byte :=
  tagBytes x.tag ++ leBytes 2 source ++ leBytes 1 w ++ leBytes 1 status ++ leBytes 4 x.area
    ++ leBytes 4 (x.cols * 256 / max 1 x.area) ++ leBytes 8 (x.web * 256 / max 1 x.area) ++ leBytes 4 occ

/-- A mark packet goes to its producer's buffer, or is dropped and counted when the buffer is full (R304). -/
def markPacket' (k source : Nat) (room : Bool) (payload : List Byte) : Eff := rd fun s =>
  if room then bufferPacket k { kind := 4, source := source, payload := payload }
  else match queueOf s k with
    | some q => countSat (Reg.MEM_RQ_FULL_CNT q) 1
    | none => skip

/-- mx and d of a window, in 1/256 (R221). -/
def markMx (x : MarkSum) : Int := ((x.cols * 256 / max 1 x.area : Nat) : Int)
def markD (s : State) (b k occ : Nat) (x : MarkSum) : Int :=
  let g := geoOf s b k
  let a : Int := max 1 x.area
  let y0 := sint 32 (regGet s (Reg.SEI_BAR_MARK_Y0 b)).toNat
  let rep : Int := (regGet s (Reg.SEI_BAR_MARK_REP b)).toNat
  256 * ((-g.d - (y0 + occ * rep)) * (g.lpi : Int) * a + 25400 * x.lines) / ((g.lpi : Int) * a)

/-- The target of one valid window (R222): each value is exact, and truncated to its format downwards. [DEDUCED, log 59] -/
def targetOne (m : CamModel) (ex : Nat) (mx d : Int) : CamModel :=
  { m with
    ox := Int.fdiv (((ex * 4096 : Nat) : Int) * m.sx - mx * ((2 ^ 32 : Nat) : Int)) m.sx
    dy := sar (d * ((2 ^ 24 : Nat) : Int) - m.ky * mx) 24 }

/-- The target of two valid windows (R222): each value is exact, and truncated to its format downwards. [DEDUCED, log 59] -/
def targetTwo (e1 e2 mx1 mx2 d1 d2 : Int) : CamModel :=
  { sx := Int.fdiv ((mx2 - mx1) * ((2 ^ 20 : Nat) : Int)) (e2 - e1)
    ox := Int.fdiv ((e1 * (mx2 - mx1) - mx1 * (e2 - e1)) * 4096) (mx2 - mx1)
    ky := Int.fdiv ((d2 - d1) * ((2 ^ 24 : Nat) : Int)) (mx2 - mx1)
    dy := Int.fdiv (d1 * (mx2 - mx1) - (d2 - d1) * mx1) (mx2 - mx1) }

/-- Two models lie within JUMP_X and JUMP_Y_UM of each other (R223). [DEDUCED, log 59] -/
def nearModels (s : State) (b : Nat) (x y : CamModel) : Bool :=
  let j := regGet s (Reg.SEI_BAR_JUMP b)
  decide ((x.ox - y.ox).natAbs ≤ fld j 15 0 * 4096) && decide ((x.dy - y.dy).natAbs ≤ fld j 31 16 * 256)

/-- G in force (R225): from RESPONSE, 0 in ONCE, GAIN_SHIFT at the expert level. [DEDUCED, log 59] -/
def gainShift (s : State) (b : Nat) : Nat :=
  if barExpert s b then regFld s (Reg.SEI_BAR_LOOP b) 3 0
  else if regFld s (Reg.SEI_BAR_REG b) 1 0 = 1 then 0
  else
    let r := regFld s (Reg.SEI_BAR_REG b) 15 8
    min 8 (sumOf (fun k => b2n (decide (2 ^ (2 * k + 1) ≤ r * r))) (upto 8))

/-- SOURCE of a slot's events (R231). -/
def slotSrc (b k : Nat) : Nat := 64 * b + k

/-- A target is accepted with a gain shift. -/
def acceptTarget (b k occ g : Nat) (t : CamModel) : Eff := rd fun s => chain [
  when ((slotOf s b k).mark == 2) (raise 0x0B13 (slotSrc b k) notice occ 0),
  modSlot b k fun x => { x with
    targets := x.targets ++ [⟨occ, t, g⟩], settled := true, rejects := []
    held := x.held || (!barExpert s b && regFld s (Reg.SEI_BAR_REG b) 1 0 == 1)
    mark := if !barExpert s b && regFld s (Reg.SEI_BAR_REG b) 1 0 == 1 then 3 else 1 }]

/-- A target is judged (R223, R225): one that jumps is rejected, counted and reported, and the third of three near ones is then
accepted with a gain of 1. [DEDUCED, log 59] -/
def judgeTarget (b k occ : Nat) (t : CamModel) : Eff := rd fun s =>
  let x := slotOf s b k
  let m := modelOf s b k
  let once := !barExpert s b && regFld s (Reg.SEI_BAR_REG b) 1 0 == 1
  when (loopRuns s b && !(once && x.held)) (
    if !x.settled || nearModels s b t m then acceptTarget b k occ (gainShift s b) t
    else chain [
      seiCount b 5,
      raise 0x0B11 (slotSrc b k) notice (arg64 (t.ox - m.ox)) (arg64 (t.dy - m.dy)),
      match x.rejects with
      | p :: q :: _ =>
        if nearModels s b t p && nearModels s b t q && nearModels s b p q then acceptTarget b k occ 0 t
        else modSlot b k fun x => { x with rejects := [t, p] }
      | r => modSlot b k fun x => { x with rejects := t :: r }])

/-- The windows of an occurrence are judged, and the target of the valid ones (R221, R222). A quotient by zero has no
stated value: its values are free. [DEDUCED, log 59] -/
def markTarget (b k occ : Nat) (valid : List Nat) : Eff := rd fun s =>
  let x := slotOf s b k
  let m := modelOf s b k
  let win := fun w => nthD {} w (mget [] occ x.wins)
  match valid with
  | [w] => if m.sx = 0 then skip
    else judgeTarget b k occ (targetOne m (winEx s b k w) (markMx (win w)) (markD s b k occ (win w)))
  | [_, _] =>
    let e1 : Int := winEx s b k 0
    let e2 : Int := winEx s b k 1
    let mx1 := markMx (win 0)
    let mx2 := markMx (win 1)
    let t := targetTwo e1 e2 mx1 mx2 (markD s b k occ (win 0)) (markD s b k occ (win 1))
    if mx1 = mx2 then withFree 96 fun v => judgeTarget b k occ { t with
        ox := sint 32 v.toNat, dy := sint 32 (v.toNat / 2 ^ 32), ky := sint 32 (v.toNat / 2 ^ 64)
        sx := if e1 = e2 then 0 else t.sx }
    else if e1 = e2 then withFree 32 fun v => judgeTarget b k occ { t with sx := (v.toNat : Int) }
    else judgeTarget b k occ t
  | _ => skip

/-- The measurement of an occurrence ends in a slot (R221 to R226). -/
def markEnd (b k occ : Nat) (room : Bool) : Eff := rd fun s =>
  let x := slotOf s b k
  let en := [0, 1].filter fun w => winEn s b k w
  let win := fun w => nthD {} w (mget [] occ x.wins)
  let ok := fun w => !(win w).bad && areaBad s (Reg.SEI_BAR_MARK_AREA b) (win w).area == 0
  let valid := en.filter ok
  chain [
    each en fun w =>
      let y := win w
      chain [
        if ok w then seiCount b 3 else chain [
          seiCount b 4,
          raiseMerge 0x0B10 (slotSrc b k) notice occ (w + y.area * 2 ^ 32)],
        when (regBit s (Reg.SEI_BAR_QUEUE b) 31 && y.area != 0)
          (markPacket' (0x3000 + slotSrc b k) (0x1000 + slotSrc b k) room (markPayload (0x1000 + slotSrc b k) w
            (markStatus s (Reg.SEI_BAR_MARK_AREA b) y) occ y))],
    if valid.isEmpty then chain [
      modSlot b k fun x => { x with miss := x.miss + 1 },
      rd fun s' =>
        let lim := regFld s' (Reg.SEI_BAR_MARK_CFG b) 31 24
        when (decide (lim ≤ (slotOf s' b k).miss) && (slotOf s' b k).mark != 2) (chain [
          modSlot b k fun x => { x with mark := 2 },
          raise 0x0B12 (slotSrc b k) degraded occ lim])]
    else chain [modSlot b k fun x => { x with miss := 0 }, markTarget b k occ valid],
    modSlot b k fun x => { x with occ := some (occ + 1), wins := x.wins.filter fun e => e.1 != occ, lastOcc := occ }]

/-- A line's printed position in a window, from occurrence 0 and an offset in um, and REP_UM, in the units of `markPos`. -/
def occPos (s : State) (b k w : Nat) (off n : Int) : Int :=
  markPos s b (geoOf s b k) (alongAt (geoOf s b k).m (winCentre s b k w * 256)) 0 off n
def occRep (s : State) (b k : Nat) : Int :=
  256 * ((geoOf s b k).lpi : Int) * ((regGet s (Reg.SEI_BAR_MARK_REP b)).toNat : Int)

/-- Enabled windows of a slot. -/
def slotWins (s : State) (b k : Nat) : List Nat := [0, 1].filter fun w => winEn s b k w

/-- The first occurrence whose range a line can still reach in an enabled window, and one past the last whose range it has
reached in some (R220). [DEDUCED, log 59] -/
def firstOcc (s : State) (b k : Nat) (n : Int) : Nat :=
  ((slotWins s b k).map fun w =>
    ((occPos s b k w (searchUm s b) n + occRep s b k - 1) / occRep s b k).toNat).foldl min (2 ^ 64)
def pastOcc (s : State) (b k : Nat) (n : Int) : Nat :=
  ((slotWins s b k).map fun w => (occPos s b k w (-(searchUm s b)) n / occRep s b k + 1).toNat).foldl max 0

/-- A line is examined for one occurrence in both windows. -/
def markOcc (b k : Nat) (prev : Option Int) (l : SlotLine) (occ : Nat) : Eff := rd fun s =>
  let wins := [0, 1].map fun w => markLine s b k w occ prev l (nthD {} w (mget [] occ (slotOf s b k).wins))
  modSlot b k fun x => { x with wins := mput occ wins x.wins }

/-- The measurements that the line has ended, from the lowest occurrence on. -/
def markEnds (b k : Nat) (room : Bool) : Nat → Nat → Eff
  | 0, _ => skip
  | fuel + 1, occ => rd fun s =>
    let wins := mget [] occ (slotOf s b k).wins
    when (!wins.isEmpty && wins.all fun w => w.done) (chain [markEnd b k occ room, markEnds b k room fuel (occ + 1)])

/-- A line passes a slot's mark windows: it is examined for every occurrence whose search range it has reached and that has
not ended, and those that it ends are judged in order (R220, R221). -/
def markWindows (b k : Nat) (room : Bool) (prev : Option Int) (l : SlotLine) : Eff := rd fun s =>
  let lo := (slotOf s b k).occ.getD (firstOcc s b k l.n)
  let n := pastOcc s b k l.n - lo
  chain [
    modSlot b k fun x => { x with occ := some lo },
    each (upFrom lo n) (markOcc b k prev l),
    markEnds b k room n lo]

/-- A slot measures marks. -/
def slotMeasures (s : State) (b k : Nat) : Bool := hasMarks s b && (winEn s b k 0 || winEn s b k 1)

/-! ## Camera lines (R208, R211, R218) -/

/-- The SEIF tap that feeds a slot. [DEDUCED, log 57] -/
def slotTap (s : State) (b k : Nat) : Option Nat :=
  firstWhere (fun t => regBit s (Reg.OUT_TAP_CTRL t) 28 && tapDest s t == 2) (upFrom (4 * slotPipe s b k) 4)

/-- Lines a slot keeps (R211). -/
def bufLines (s : State) (b : Nat) : Nat := regFld s (Reg.SEI_BAR_SPAN b) 7 0 + 3

/-- The newest line index of a slot. -/
def newestOf (x : Slot) : Option Int := (x.buf.getLast?).map fun l => l.n

/-- A full slot whose oldest line the next row still needs holds its upstream (R41, R212). [DEDUCED, log 57] -/
def slotFull (s : State) (b k : Nat) : Bool :=
  let x := slotOf s b k
  match (barOf s b).row, x.buf with
  | some r, l :: _ => decide (bufLines s b ≤ x.buf.length) && decide ((linesFor (geoOf s b k) r).1 ≤ l.n)
  | _, _ => false

/-- SEIF_WARP of a slot: the slots of a bar take its instances in order (R206). -/
def warpInst (s : State) (b k : Nat) : List (Nat × Inst) :=
  placedInst s 0x10 2 b ((barSlots s b).takeWhile (· != k)).length (barSlots s b).length

/-- MARK of a bar. -/
def barMark (s : State) (b : Nat) : List (Nat × Inst) := ownInsts s 0x12 2 b

/-- No slot of a bar holds a line. -/
def barEmpty (s : State) (b : Nat) : Bool := (barSlots s b).all fun k => (slotOf s b k).buf.isEmpty

/-- A line enters a slot. An index at or below the newest one is a new job: the slot starts again. -/
def slotTakes (b k : Nat) (room : Bool) (line : CapLine) : Eff := rd fun s =>
  let x := slotOf s b k
  let n := lineIndex s (slotPipe s b k) line.tag.web
  let prev := newestOf x
  let again : Bool := match prev with
    | some m => decide (n ≤ m)
    | none => true
  let l : SlotLine := ⟨n, { line with tag := stageTag s 0x10 2 b (warpInst s b k) line.tag }⟩
  let all := if again then [l] else x.buf ++ [l]
  let buf := all.drop (all.length - bufLines s b)
  chain [
    clearStageMark (warpInst s b k),
    countUp (Reg.SEI_CAM_LINES b k) 1,
    when x.stalled (raise 0x0B15 (slotSrc b k) notice ((barOf s b).row.getD 0) line.tag.seq),
    when ((barOf s b).row.isNone && barEmpty s b) (modBar b fun y => { y with since := timeNow s }),
    modSlot b k fun x => { x with
      buf := buf, stalled := false, lastSeq := line.tag.seq, newest := timeNow s
      first := ((buf.head?).map fun y => y.n).getD n
      occ := if again then none else x.occ
      wins := if again then [] else x.wins },
    when (again && prev.isSome) (modBar b fun y => { y with row := none, since := timeNow s }),
    rd fun s' => when (slotMeasures s' b k) (chain [
      markWindows b k room (if again then none else prev)
        { l with line := { l.line with tag := stageTag s' 0x12 2 b (barMark s' b) l.line.tag } },
      clearStageMark (barMark s' b)])]

/-- SEIF_WARP takes the oldest line from the route of the slot's tap, while its tiles run (R48). [DEDUCED, log 57] -/
def warpLine (b k : Nat) (room : Bool) : Eff := rd fun s =>
  when (regBit s (Reg.SEI_CAM_CTRL b k) 31 && !slotFull s b k && stageRuns s 2 b (warpInst s b k)) (
    match slotTap s b k with
    | none => skip
    | some t => match (tapOf s t).route with
      | [] => skip
      | i :: rest => chain [
          modTap t fun x => { x with route := rest },
          match i with
          | .line l => slotTakes b k room l
          | .close _ => skip])

/-- SEIF_WARP_LINE. -/
def execSeifWarpLine (b : Fin 16) (k : Fin 64) (room : Bool) (s : State) : Host.Outcome State Fault Refusal :=
  .next (go (warpLine b k room) s)

/-- The next row waits for a slot: the slot does not hold the row's last line, or, before the first row, holds none
(R216, R218). -/
def slotWaited (s : State) (b k : Nat) : Bool :=
  match (barOf s b).row, newestOf (slotOf s b k) with
  | some r, some n => decide (n < (linesFor (geoOf s b k) r).2)
  | some _, none => true
  | none, o => o.isNone && !barEmpty s b

/-- A slot with no new line for STALL_US after a row first waited for it becomes STALLED (R218). [DEDUCED, log 139] -/
def cameraStall (b k : Nat) : Eff := rd fun s =>
  let from' := max (barOf s b).since (slotOf s b k).newest
  let due := from' + regFld s (Reg.SEI_BAR_STALL b) 15 0 * 1000 * oneNs
  when (regBit s (Reg.SEI_CAM_CTRL b k) 31 && !(slotOf s b k).stalled && slotWaited s b k && decide (due ≤ timeNow s)) (chain [
    modSlot b k fun x => { x with stalled := true },
    modBar b fun x => { x with stalls := satAdd32 x.stalls 1 },
    raise 0x0B14 (slotSrc b k) degraded ((barOf s b).row.getD 0) (slotOf s b k).lastSeq])

/-- CAMERA_STALL. -/
def execCameraStall (b : Fin 16) (k : Fin 64) (s : State) : Host.Outcome State Fault Refusal :=
  .next (go (cameraStall b k) s)

/-! ## Seams (R213, R215) -/

/-- Seams of the basic level: the middles of the overlaps under the models in force. [DEDUCED, log 60] -/
def derivedSeams (s : State) (b : Nat) : List (Int × Nat) :=
  (upto (slotCount s b - 1)).map fun k =>
    let g := geoOf s b k
    let h := geoOf s b (k + 1)
    let lo := max g.lo h.lo
    let hi := min g.hi h.hi
    if lo < hi then ((((lo + (hi - 1)) / 2 : Nat) : Int), min 64 ((hi - lo) / 4)) else ((h.lo : Int), 0)

/-- The first place at which a seam set is not strictly increasing, from SEAM 0 on its left to WIDTH on its right, or zones
overlap (R213, R215). -/
def badSeam (width : Nat) (seams : List (Int × Nat)) : Option Nat :=
  firstWhere (fun k =>
    let a := nthD (0, 0) k seams
    let z := nthD ((width : Int), 0) (k + 1) seams
    decide (z.1 ≤ a.1) || (k == 0 && decide (a.1 ≤ 0))
      || (decide (k + 1 < seams.length) && decide (z.1 - (z.2 : Int) < a.1 + (a.2 : Int))))
    (upto seams.length)

/-- A seam set is applied, or refused with SEAM_REFUSED (R215). -/
def applySeams (b : Nat) (seams : List (Int × Nat)) : Eff := rd fun s =>
  match badSeam (widthOf s b) seams with
  | none => modBar b fun x => { x with seams := seams }
  | some k =>
    let z := nthD (0, 0) k seams
    raise 0x0B17 (slotSrc b k) notice k (z.2 * 2 ^ 22 + (z.1 % ((2 ^ 19 : Nat) : Int)).toNat)

/-- Seams as the image wrote them. -/
def writtenSeams (s : State) (b : Nat) : List (Int × Nat) := (upto (slotCount s b - 1)).map fun k =>
  let w := regGet s (Reg.SEI_CAM_SEAM b k)
  (((fld w 18 0 : Nat) : Int), fld w 31 22)

/-- Seams follow an application at the basic level. -/
def rederive (b : Nat) : Eff := rd fun s => when (!barExpert s b) (applySeams b (derivedSeams s b))

/-! ## Applying models (R212, R224, R225, R227) -/

/-- The bounds of a value of a slot (R212); SX stays in 0.5 to 2.0 (R209). -/
def modelBounds (s : State) (b k j : Nat) : Int × Int :=
  let v := modelVal (nominal s b k) j
  let x := regGet s (Reg.SEI_CAM_LIM_X b k)
  let y := regGet s (Reg.SEI_CAM_LIM_Y b k)
  match j with
  | 0 => (v - fld x 31 16 * 4096, v + fld x 31 16 * 4096)
  | 1 => (max ((2 ^ 27 : Nat) : Int) ((v * (1000000 - fld x 15 0) + 999999) / 1000000),
      min ((2 ^ 29 : Nat) : Int) (v * (1000000 + fld x 15 0) / 1000000))
  | 2 => (v - fld y 31 16 * 256, v + fld y 31 16 * 256)
  | _ => (v - fld y 15 0 * 256, v + fld y 15 0 * 256)

/-- A value of a loop's result is clamped: counted, and POLICY_CLAMP (R224). -/
def loopValue (b k j : Nat) (t : Target) : Eff := rd fun s =>
  let m := modelOf s b k
  let v := modelVal m j
  let raw := v + sar (modelVal t.model j - v) t.g
  let lim := modelBounds s b k j
  let new := clampI lim.1 lim.2 raw
  when (!(slotOf s b k).won.contains j) (chain [
    modSlot b k fun x => { x with model := some (setModelVal (modelOf s b k) j new) },
    when (new != raw) (seiCount b 6),
    policyClamp 0x0B (slotSrc b k) raw new])

/-- Slots that take part in the loop. -/
def loopSlots (s : State) (b : Nat) : List Nat :=
  (barSlots s b).filter fun k => slotMeasures s b k && !(slotOf s b k).stalled

/-- The lowest occurrence with a target that every slot has ended (R224). -/
def readyOcc (s : State) (b : Nat) : Option Nat :=
  let ended := fun k => (slotOf s b k).occ.getD 0
  let occs := (loopSlots s b).flatMap fun k => (slotOf s b k).targets.map fun t => t.occ
  match occs with
  | [] => none
  | o :: r =>
    let i := r.foldl min o
    if (loopSlots s b).all fun k => decide (i < ended k) then some i else none

/-- The targets of an occurrence apply together, and seams are derived again (R224, R225). [DEDUCED, log 60] -/
def modelApply (b : Nat) : Eff := rd fun s =>
  match readyOcc s b with
  | none => skip
  | some i => chain [
      each (barSlots s b) fun k => each ((slotOf s b k).targets.filter fun t => t.occ == i) fun t =>
        each [0, 1, 2, 3] fun j => loopValue b k j t,
      each (barSlots s b) fun k => modSlot b k fun x => { x with targets := x.targets.filter fun t => t.occ != i },
      modBar b fun x => { x with updates := satAdd32 x.updates 1 },
      rederive b,
      rd fun s' =>
        let l := loopSlots s' b
        let before := (loopSlots s b).all fun k => (slotOf s b k).held && ((slotOf s b k).targets).isEmpty
        when (!barExpert s' b && regFld s' (Reg.SEI_BAR_REG b) 1 0 == 1 && !before
            && l.all fun k => (slotOf s' b k).held && ((slotOf s' b k).targets).isEmpty)
          (raise 0x0B1C (0x1000 + b) notice i l.length)]

/-- MODEL_APPLY. -/
def execModelApply (b : Fin 16) (s : State) : Host.Outcome State Fault Refusal := .next (go (modelApply b) s)

/-- One staged value of a slot applies, clamped to its bounds with RANGE_CLAMP (R227). [DEDUCED, log 60] -/
def applyStaged (b k : Nat) (e : Nat × Word) : Eff := rd fun s =>
  if e.1 = 4 then skip
  else
    let v : Int := if e.1 = 1 then ((e.2.toNat : Nat) : Int) else sint 32 e.2.toNat
    let lim := modelBounds s b k e.1
    let new := clampI lim.1 lim.2 v
    chain [
      modSlot b k fun x => { x with model := some (setModelVal (modelOf s b k) e.1 new), won := e.1 :: x.won },
      when (new != v) (raise 0x0B18 (slotSrc b k) notice (Reg.SEI_CAM_OX b k e.1) e.2.toNat)]

/-- The staged seams over those in force. [DEDUCED, log 60] -/
def stagedSeams (s : State) (b : Nat) : List (Int × Nat) :=
  let cur := if (barOf s b).seams.isEmpty then writtenSeams s b else (barOf s b).seams
  cur.zipIdx.map fun e => match mget? 4 (slotOf s b e.2).staged with
    | some w => (((fld w 18 0 : Nat) : Int), fld w 31 22)
    | none => e.1

/-- GO applies every staged value of the bar together, before the first row not yet started (R227). The last slot's SEAM names
no seam: its right seam is WIDTH. -/
def barApply (b : Nat) : Eff := rd fun s =>
  let any := (barSlots s b).any fun k => (mget? 4 (slotOf s b k).staged).isSome
  chain [
    each (barSlots s b) fun k => each (slotOf s b k).staged (applyStaged b k),
    when any (applySeams b (stagedSeams s b)),
    each (barSlots s b) fun k => modSlot b k fun x => { x with staged := [] }]

/-- BAR_APPLY_GO. -/
def execBarApplyGo (ini : Ini) (b : Fin 16) (v : Word) (s : State) : Host.Outcome State Fault Refusal :=
  .next (go (busWrite ini (Reg.SEI_BAR_APPLY b) v (writeReg ini (Reg.SEI_BAR_APPLY b) v fun _ _ =>
    when (bit v 0) (barApply b))) s)

/-- A write of SEI_CAM_OX, SX, DY, KY or SEAM is staged, and the register keeps the value in force (R227). The configuration
engine's writes are the image's values, which are in force from the load on (R230). [DEDUCED, log 60] -/
def camWrite (ini : Ini) (b k j off : Nat) (v : Word) : Eff := writeReg ini off v fun old new =>
  if ini == .cfg then when (decide (j < 4)) (rd fun s =>
    let x : Int := if j = 1 then ((new.toNat : Nat) : Int) else sint 32 new.toNat
    modSlot b k fun y => { y with model := some (setModelVal (modelOf s b k) j x) })
  else chain [
    setReg off old,
    modSlot b k fun x => { x with staged := mput j new x.staged }]

/-- The ends lo and hi of a slot's delay, in 2^-24 um (R212). -/
def spanEnds (s : State) (b k : Nat) (lim : Word) : Int × Int :=
  let m := nominal s b k
  let ky : Int := fld lim 15 0 * 256
  let slope := max (m.ky - ky).natAbs (m.ky + ky).natAbs * regFld s (Reg.SEI_CAM_CTRL b k) 15 0
  (m.dy * 65536 - fld lim 31 16 * 16777216 - slope, m.dy * 65536 + fld lim 31 16 * 16777216 + slope)

/-- The span check of a bar with one slot's LIM_Y replaced (R212). -/
def spanOk (s : State) (b k : Nat) (v : Word) : Bool :=
  let l := (barSlots s b).map fun i => spanEnds s b i (if i = k then v else regGet s (Reg.SEI_CAM_LIM_Y b i))
  match l with
  | [] => true
  | a :: r =>
    let lo := r.foldl (fun m e => min m e.1) a.1
    let hi := r.foldl (fun m e => max m e.2) a.2
    decide ((hi - lo) * (dpiOf s b : Int) ≤ ((regFld s (Reg.SEI_BAR_SPAN b) 7 0 * 25400 * 2 ^ 24 : Nat) : Int))

/-- A write of SEI_CAM_LIM_Y. -/
def limYWrite (ini : Ini) (b k : Nat) (v : Word) : Eff := rd fun s =>
  if ini != .cfg && !spanOk s b k v then raise 0x0B19 (slotSrc b k) notice (Reg.SEI_CAM_LIM_Y b k) v.toNat
  else writePlain ini (Reg.SEI_CAM_LIM_Y b k) v

/-- LIM_Y_WRITE. -/
def execLimYWrite (ini : Ini) (b : Fin 16) (k : Fin 64) (v : Word) (s : State) : Host.Outcome State Fault Refusal :=
  .next (go (busWrite ini (Reg.SEI_CAM_LIM_Y b k) v (limYWrite ini b k v)) s)

/-! ## Rows (R210 to R219) -/

/-- The slots a row is taken from: not stalled, with covered columns. -/
def runningSlots (s : State) (b : Nat) : List Nat :=
  (barSlots s b).filter fun k => !(slotOf s b k).stalled && decide ((geoOf s b k).lo < (geoOf s b k).hi)

/-- The next row: the one in force, or the lowest row for which every running slot holds its lines (R216). -/
def nextRow (s : State) (b : Nat) : Nat :=
  match (barOf s b).row with
  | some r => r
  | none => (runningSlots s b).foldl (fun m k => max m (rowFrom (geoOf s b k) (slotOf s b k).first)) 0

/-- Every running slot holds the lines of a row, or knows them missing. -/
def rowReady (s : State) (b r : Nat) : Bool :=
  let l := runningSlots s b
  !l.isEmpty && l.all fun k => match newestOf (slotOf s b k) with
    | some n => decide ((linesFor (geoOf s b k) r).2 ≤ n)
    | none => false

/-- A slot covers no column of a row when both lines of a pair it needs are missing (R218). -/
def slotServes (g : SlotGeo) (r : Nat) : Bool :=
  let e := linesFor g r
  ((upto ((e.2 - e.1).toNat)).all fun i => (linePair g.buf (e.1 + (i : Int))).isSome)

/-- The slots of a row, with their geometry. -/
def rowGeos (s : State) (b r : Nat) : List SlotGeo :=
  ((runningSlots s b).map (geoOf s b)).filter fun g => slotServes g r

/-- A slot of a row covers a grid column. -/
def covers (g : SlotGeo) (x : Nat) : Bool := decide (g.lo ≤ x ∧ x < g.hi)

/-- The samples of a slot at a grid column, one per band (R210). -/
def warpAt (g : SlotGeo) (nearest : Bool) (bands r x : Nat) : List Nat :=
  let x8 := x8At g.m x
  let n8 := n8At g r (alongAt g.m x8)
  let blank : CapLine := { tag := {}, frame := 0 }
  let at' := fun (l : CapLine) (c : Int) (i : Nat) => nthD 0 ((min c ((g.w : Int) - 1)).toNat * l.bands + i) l.data
  (upto bands).map fun i =>
    if nearest then
      let n := (n8 + 128) / 256
      let l := match lineOf g.buf n with
        | some l => l
        | none => match linePair g.buf (n8 / 256) with
          | some p => if n = n8 / 256 then p.1 else p.2
          | none => blank
      at' l ((x8 + 128) / 256) i
    else
      let fx := (x8 % 256).toNat
      let fy := (n8 % 256).toNat
      match linePair g.buf (n8 / 256) with
      | none => 0
      | some p => ((256 - fx) * (256 - fy) * at' p.1 (x8 / 256) i + fx * (256 - fy) * at' p.1 (x8 / 256 + 1) i
          + (256 - fx) * fy * at' p.2 (x8 / 256) i + fx * fy * at' p.2 (x8 / 256 + 1) i + 32768) / 65536

/-- The owner of a column (R213). -/
def ownerSlot (seams : List (Int × Nat)) (x : Nat) : Nat :=
  (seams.filter fun e => decide (e.1 ≤ (x : Int))).length

/-- The seam in whose zone a column lies. -/
def zoneOf (seams : List (Int × Nat)) (x : Nat) : Option Nat :=
  firstWhere (fun k =>
    let e := nthD (0, 0) k seams
    decide (e.1 - (e.2 : Int) ≤ (x : Int) ∧ (x : Int) < e.1 + (e.2 : Int))) (upto seams.length)

/-- How a column is filled: from one slot, blended from two with a weight, or not at all (R213, R214). -/
inductive Fill where
  | one (g : SlotGeo)
  | two (l r : SlotGeo) (w : Nat)
  | gap
  deriving DecidableEq, Repr

/-- The filling of a column. -/
def fillOf (gs : List SlotGeo) (seams : List (Int × Nat)) (blend : Bool) (x : Nat) : Fill :=
  let slot := fun k => firstWhere (fun g => g.k == k && covers g x) gs
  let plain := match slot (ownerSlot seams x) with
    | some g => Fill.one g
    | none => match firstWhere (fun g => covers g x) gs with
      | some g => Fill.one g
      | none => Fill.gap
  if !blend then plain
  else match zoneOf seams x with
    | none => plain
    | some k => match slot k, slot (k + 1) with
      | some l, some r =>
        let e := nthD (0, 1) k seams
        .two l r ((((x : Int) - (e.1 - (e.2 : Int))) * 256 + 128) / (2 * (e.2 : Int))).toNat
      | _, _ => plain

/-- The values of a filled column. -/
def fillVal (nearest : Bool) (bands r fill x : Nat) : Fill → List Nat
  | .one g => warpAt g nearest bands r x
  | .two l h w => (warpAt l nearest bands r x).zip (warpAt h nearest bands r x) |>.map fun e =>
      (e.1 * (256 - w) + e.2 * w + 128) / 256
  | .gap => (upto bands).map fun _ => fill

/-- The slots a filling takes samples from. -/
def fillGeos : Fill → List SlotGeo
  | .one g => [g]
  | .two l r _ => [l, r]
  | .gap => []

/-- The flags of the lines that a slot's samples at a column come from (R217). [DEDUCED, log 58] -/
def warpFlags (g : SlotGeo) (nearest : Bool) (r x : Nat) : Nat :=
  let n8 := n8At g r (alongAt g.m (x8At g.m x))
  match linePair g.buf (n8 / 256) with
  | none => 0
  | some p => if nearest then (if (n8 + 128) / 256 = n8 / 256 then p.1.tag.flags else p.2.tag.flags)
    else p.1.tag.flags ||| p.2.tag.flags

/-- The tag of line n of the lowest slot that contributes, at its lowest column, which gives TIME_NS (R217).
[DEDUCED, log 58] -/
def rowAnchor (fills : List (Fill × Nat)) (r : Nat) : Option LineTag :=
  let used := fills.flatMap fun e => (fillGeos e.1).map fun g => (g.k, g, e.2)
  match used with
  | [] => none
  | u :: us =>
    let low := us.foldl (fun m e => if e.1 < m.1 then e else m) u
    (linePair low.2.1.buf (n8At low.2.1 r (alongAt low.2.1.m (x8At low.2.1.m low.2.2)) / 256)).map fun p => p.1.tag

/-- The settings that take effect at a bar frame start (R219, R225, R230). [DEDUCED, log 60] -/
def barFrameStart (b : Nat) : Eff := chain [
  levelBoundary (Reg.SEI_BAR_CTRL b),
  rd fun s => modBar b fun x => { x with
    interp := regFld s (Reg.SEI_BAR_CTRL b) 9 8, blend := regBit s (Reg.SEI_BAR_CTRL b) 4, gapRaised := false
    open' := ⟨x.frame, 0, 0, 0, 0, 0, 0⟩
    rearm := false
    slots := if x.rearm then x.slots.map fun e => (e.1, { e.2 with held := false, settled := false }) else x.slots }]

/-- The nominal model applies while the bar acts as FIXED (R225). -/
def fixModels (b : Nat) : Eff := rd fun s =>
  when (fixedMode s b && (barSlots s b).any fun k => (slotOf s b k).model.isSome) (chain [
    each (barSlots s b) fun k => modSlot b k fun x => { x with model := none, targets := [], mark := 0 },
    rederive b])

/-- The first seams of a bar. [DEDUCED, log 60] -/
def firstSeams (b : Nat) : Eff := rd fun s => when ((barOf s b).seams.isEmpty)
  (if barExpert s b then applySeams b (writtenSeams s b) else applySeams b (derivedSeams s b))

/-- Behind the last row of a frame the frame-close marker follows (R219). -/
def barFrameEnd (b : Nat) : Eff := rd fun s =>
  when (decide (regFld s (Reg.SEI_BAR_FRAME b) 15 0 ≤ (barOf s b).open'.rows)) (chain [
    seiCount b 1,
    warmFrame 1 b,
    modBar b fun x => { x with
      out := x.out ++ [.close x.open'], frame := x.frame + 1, open' := ⟨x.frame + 1, 0, 0, 0, 0, 0, 0⟩ }])

/-- A row is put together and leaves for the comparator (R213 to R217). -/
def rowOut (b r : Nat) (time : Nat) : Eff := rd fun s =>
  let x := barOf s b
  let gs := rowGeos s b r
  let bands := match gs.flatMap fun g => g.buf with
    | l :: _ => max 1 l.line.bands
    | [] => 1
  let near := x.interp == 1
  let fills := (upto (widthOf s b)).map fun c => (fillOf gs x.seams x.blend c, c)
  let gaps := fills.filter fun e => e.1 == .gap
  let flags := fills.foldl (fun f e => (fillGeos e.1).foldl (fun f g => f ||| warpFlags g near r e.2) f) 0
  let is := ownInsts s 0x11 2 b ++ forks s 2 b
  let anchor := (rowAnchor fills r).getD { time := time, steps := s.tim.stepSum }
  let tag : LineTag := stageTag s 0x11 2 b is (setFlag fTrunc (!gaps.isEmpty)
    { time := anchor.time, steps := anchor.steps
      web := (((((r * 25400 / dpiOf s b : Nat) : Int) + distOf s b)) % ((2 ^ 40 : Nat) : Int)).toNat
      pipe := b, flags := flags, seq := r % 256 })
  let f := fun (k : Nat) => b2n (tag.flags.testBit k)
  chain [
    clearStageMark is,
    when (!gaps.isEmpty && !x.gapRaised) (raise 0x0B16 (0x1000 + b) degraded (match gaps with
      | g :: _ => g.2
      | [] => 0) gaps.length),
    when (!gaps.isEmpty) (seiCount b 2),
    seiCount b 0,
    modBar b fun x => { x with
      row := some (r + 1), since := timeNow s, gap := !gaps.isEmpty, gapRaised := x.gapRaised || !gaps.isEmpty
      open' := { x.open' with
        rows := x.open'.rows + 1, trunc := x.open'.trunc + f fTrunc, check := x.open'.check + f fCheck
        late := x.open'.late + f fLate, holdover := x.open'.holdover + f fHoldover, xfer := x.open'.xfer + f fXfer }
      out := x.out ++ [.row ⟨r, x.frame, tag, bands,
        fills.flatMap fun e => fillVal near bands r (regFld s (Reg.SEI_BAR_FILL b) 15 0) e.2 e.1⟩]
      slots := x.slots.map fun e => (e.1, { e.2 with won := [] }) },
    barFrameEnd b]

/-- The comparator's slices can take a row: none that it has not taken waits for it (R41). A bar without comparator sends its
rows nowhere. [DESIGN CHOICE, log 43] -/
def rowTaken (s : State) (b : Nat) : Bool := !regBit s (Reg.CMP_BAR_CTRL b) 31 || !((barOf s b).out.any fun i => match i with
  | .row _ => true
  | .close _ => false)

/-- Row r of a bar is emitted when every running slot holds its lines (R216) and its tiles run (R48); a row to which no slot
contributes has no stated TIME_NS. -/
def rowEmit (b : Nat) : Eff := rd fun s =>
  when (regBit s (Reg.SEI_BAR_CTRL b) 31 && rowReady s b (nextRow s b) && rowTaken s b
      && stageRuns s 2 b (ownInsts s 0x11 2 b)) (chain [
    when ((barOf s b).row.isNone || (barOf s b).open'.rows == 0) (barFrameStart b),
    fixModels b,
    firstSeams b,
    rd fun s' =>
      let r := nextRow s' b
      when (rowReady s' b r) (
        if (rowGeos s' b r).isEmpty then withFree 64 fun t => rowOut b r t.toNat else rowOut b r 0)])

/-- SEIF_ROW_EMIT. -/
def execSeifRowEmit (b : Fin 16) (s : State) : Host.Outcome State Fault Refusal := .next (go (rowEmit b) s)

/-! ## Free-standing marks and web watching (R228, R229) -/

/-- One free-standing mark instance, and one web-break instance. -/
def markInst (s : State) (j : Nat) : MarkInst := mget {} j s.sei.marks
def webInst (s : State) (i : Nat) : WebWatch := mget {} i s.sei.webs
def modMark (j : Nat) (f : MarkInst → MarkInst) : Eff :=
  modSei fun x => { x with marks := mput j (f (mget {} j x.marks)) x.marks }
def modWeb' (i : Nat) (f : WebWatch → WebWatch) : Eff :=
  modSei fun x => { x with webs := mput i (f (mget {} i x.webs)) x.webs }

/-- One window of a free-standing mark on a line: the mark open afterwards, and the mark that ended. -/
def pmWindow (s : State) (j w : Nat) (lost : Bool) (l : CapLine) (cur : Option MarkSum) :
    Option MarkSum × Option MarkSum :=
  let win := regGet s (Reg.SEI_PM_WIN j w)
  let cfg := regGet s (Reg.SEI_PM_CFG j)
  let a := markSamples l (fld cfg 18 16) (fld cfg 15 0) (fld win 15 0) (fld win 15 0 + fld win 31 16)
  let x := cur.getD { tag := l.tag }
  if a.1 = 0 then (none, cur.map fun c => { c with bad := c.bad || lost || unfit l.tag })
  else (some { x with
      area := x.area + a.1, cols := x.cols + a.2, web := x.web + a.1 * l.tag.web
      bad := x.bad || (lost && cur.isSome) || unfit l.tag }, none)

/-- MARK or WEB_BREAK number `j` of those declared on its pipeline: they take the pipeline's instances of their kind in order. -/
def watchInst (s : State) (kind : Nat) (ctrl : Nat → Nat) (j : Nat) : List (Nat × Inst) :=
  let p := regFld s (ctrl j) 23 16
  let js := (upto 16).filter fun i => regBit s (ctrl i) 31 && regFld s (ctrl i) 23 16 == p
  placedInst s kind 1 p (js.takeWhile (· != j)).length js.length

/-- A free-standing MARK instance examines a line. [DEDUCED, log 61] -/
def pmLine (j : Nat) (room : Bool) : Eff := rd fun s => match (markInst s j).inq with
  | [] => skip
  | l :: rest =>
    let x := markInst s j
    let p := regFld s (Reg.SEI_PM_CTRL j) 23 16
    let is := watchInst s 0x12 Reg.SEI_PM_CTRL j
    let l := { l with tag := stageTag s 0x12 1 p is l.tag }
    let lost : Bool := match x.last with
      | some q => decide ((q + 1) % 2 ^ 16 ≠ l.tag.seq % 2 ^ 16)
      | none => false
    let r := [0, 1].map fun w => pmWindow s j w lost l (nthD none w x.wins)
    chain [
      clearStageMark is,
      modMark j fun x => { x with inq := rest, last := some l.tag.seq, wins := r.map Prod.fst },
      each [0, 1] fun w => rd fun s' => match (nthD (none, none) w r).2 with
        | none => skip
        | some m => when (regBit s' (Reg.SEI_PM_CTRL j) 30) (chain [
            markPacket' (0x2000 + j) p room (markPayload p w (markStatus s' (Reg.SEI_PM_AREA j) m)
              (regGet s' (Reg.SEI_PM_COUNT j)).toNat m),
            countUp (Reg.SEI_PM_COUNT j) 1])]

/-- MARK_LINE. -/
def execMarkLine (j : Fin 16) (room : Bool) (s : State) : Host.Outcome State Fault Refusal :=
  .next (go (rd fun s => when (stageRuns s 1 (regFld s (Reg.SEI_PM_CTRL j) 23 16) (watchInst s 0x12 Reg.SEI_PM_CTRL j))
    (pmLine j room)) s)

/-- A WEB_BREAK instance counts the web samples of a line. [DEDUCED, log 61] -/
def webLine (i : Nat) : Eff := rd fun s => match (webInst s i).inq with
  | [] => skip
  | l :: rest =>
    let c := regGet s (Reg.SEI_WB_CTRL i)
    let win := regGet s (Reg.SEI_WB_WIN i)
    let thr := regGet s (Reg.SEI_WB_THR i)
    let hits := (upFrom (fld win 15 0) (fld win 31 16)).filter fun x =>
      decide (fld thr 15 0 ≤ nthD 0 (x * l.bands + fld c 2 0) l.data)
    let present : Bool := decide (fld c 15 8 * fld win 31 16 ≤ hits.length * 100)
    let edge := match hits with
      | h :: _ => (hits.foldl max h) * 2 ^ 16 + h
      | [] => 0xFFFFFFFF
    chain [
      clearStageMark (watchInst s 0x28 Reg.SEI_WB_CTRL i),
      setReg (Reg.SEI_WB_EDGE i) (word edge),
      modWeb' i fun x => { x with
        inq := rest
        run := if present then 0 else x.run + 1
        good := if present then x.good + 1 else 0 },
      rd fun s' =>
        let x := webInst s' i
        chain [
          when (!x.broken && decide (0 < x.run ∧ fld thr 31 16 ≤ x.run)) (chain [
            modWeb' i fun x => { x with broken := true },
            raise 0x0B1A (0x2000 + i) faultSev l.tag.time (fld c 23 16)]),
          when (x.broken && decide (0 < x.good ∧ fld thr 31 16 ≤ x.good)) (chain [
            modWeb' i fun x => { x with broken := false },
            raise 0x0B1B (0x2000 + i) notice l.tag.time (fld c 23 16)])]]

/-- WEB_BREAK_LINE. -/
def execWebBreakLine (i : Fin 16) (s : State) : Host.Outcome State Fault Refusal :=
  .next (go (rd fun s => when (stageRuns s 1 (regFld s (Reg.SEI_WB_CTRL i) 23 16) (watchInst s 0x28 Reg.SEI_WB_CTRL i))
    (webLine i)) s)

/-! ## Views and writes -/

/-- MARKS of SEI_BAR_STATUS: none, acquiring, tracking or held, some slot LOST. -/
def barMarks (s : State) (b : Nat) : Nat :=
  let l := (barSlots s b).filter fun k => slotMeasures s b k
  let m := fun k => (slotOf s b k).mark
  if fixedMode s b || l.isEmpty then 0
  else if l.any fun k => m k == 2 then 3
  else if l.all fun k => m k == 1 || m k == 3 then 2 else 1

/-- The words of a slot that are views of its state. [DEDUCED, log 56] -/
def slotView (s : State) (b k rel : Nat) : Option Word :=
  let x := slotOf s b k
  if 4 ≤ rel ∧ rel < 0x14 then some (word (wrapTo 32 (modelVal (modelOf s b k) ((rel - 4) / 4))))
  else if rel = 0x14 then
    match ((barOf s b).seams.drop k) with
    | e :: _ => some (word (e.2 * 2 ^ 22 + (e.1 % ((2 ^ 19 : Nat) : Int)).toNat))
    | [] => none
  else if rel = 0x38 then
    some (word ((if x.stalled then 2 else if x.buf.isEmpty then 0 else 1) * 2 ^ 28 + x.mark * 2 ^ 26 + x.lastOcc % 2 ^ 16))
  else none

/-- The words of SEI that are views of its state (R230). -/
def seiView (s : State) (off : Nat) : Option Word :=
  let rel := off - Reg.SEI_BAR_CTRL 0
  if rel < 0x20000 then
    let b := rel / 0x2000
    let r := rel % 0x2000
    let x := barOf s b
    if 0x1000 ≤ r then slotView s b ((r - 0x1000) / 0x40) (r % 0x40)
    else if r = 4 then some (word (b2n (barExpert s b) * 2 ^ 24 + barMarks s b * 2 ^ 8
      + b2n (x.slots.any fun e => e.2.stalled) * 4 + b2n x.gap * 2 + b2n (x.slots.any fun e => !e.2.staged.isEmpty)))
    else if r = 0x14 then some (setFld (regGet s off) 15 8 (bufLines s b))
    else if r = 0x28 ∧ !barExpert s b then some (word (b2n (loopRuns s b) * 2 ^ 31 + gainShift s b))
    else if r = 0x48 then some (word (x.row.getD 0))
    else if r = 0x4C then some (word (x.row.getD 0 / 2 ^ 32))
    else none
  else if off = Reg.SEI_GSTATUS then
    some (word (((upto 16).filter fun b => regBit s (Reg.SEI_BAR_CTRL b) 31).length * 2 ^ 16
      + sumOf (fun i => b2n (webInst s i).broken * 2 ^ i) (upto 16)))
  else if 0x40100 ≤ rel ∧ rel < 0x40300 ∧ rel % 0x20 = 0xC then
    let x := webInst s ((rel - 0x40100) / 0x20)
    some (word (b2n x.broken * 2 ^ 31 + min x.run 0xFFFF))
  else none

/-- The effect of a write on a SEI register; none where the register is an ordinary one. -/
def seiWrite (ini : Ini) (off : Nat) (v : Word) : Option Eff :=
  let rel := off - Reg.SEI_BAR_CTRL 0
  if 0x20000 ≤ rel then none
  else
    let b := rel / 0x2000
    let r := rel % 0x2000
    let k := (r - 0x1000) / 0x40
    if 0x1000 ≤ r then
      if 4 ≤ r % 0x40 ∧ r % 0x40 < 0x18 then some (camWrite ini b k ((r % 0x40 - 4) / 4) off v)
      else if r % 0x40 = 0x2C then some (limYWrite ini b k v) else none
    else if r = 0x2C then some (writeReg ini off v fun _ _ => when (bit v 0) (barApply b))
    else if r = 0x24 then some (writeReg ini off v fun old new => when (ini != .cfg && fld new 1 0 == 1 && fld v 1 0 == 1)
      (modBar b fun x => { x with rearm := x.rearm || fld old 1 0 == 1 || x.slots.any fun e => e.2.held }))
    else none

end Sys2Proof.Machine
end

