-- ==== Sys2Proof/Machine/Reference.lean ====
section
/-!
DEFINITION. Reference sources of the comparator (R232 to R241): tile lists, the reference ring and its fetches, and the
requests that blocks post to their bound Mover channels (R361).
-/
namespace Sys2Proof.Machine

/-! ## Bound Mover channels -/

/-- One Mover channel. -/
def chanOf (s : State) (c : Nat) : Chan := mget {} c s.mov.chans

/-- Change one Mover channel. -/
def modChan (c : Nat) (f : Chan → Chan) : Eff :=
  modMov fun m => { m with chans := mput c (f (mget {} c m.chans)) m.chans }

/-- Descriptor bits of a block's copy (R364): host sides, 8-byte elements on both sides, BARRIER, CHECK. -/
def copyAttr (srcHost dstHost barrier check : Bool) : Nat :=
  b2n srcHost + 2 * b2n dstHost + 3 * 16 + 3 * 64 + 256 * b2n barrier + 512 * b2n check

/-! ## Sources -/

/-- One source. -/
def srcOf (s : State) (i : Nat) : RefSrc := mget {} i s.cmp.srcs

/-- Change one source. -/
def modSrc (i : Nat) (f : RefSrc → RefSrc) : Eff :=
  modCmp fun c => { c with srcs := mput i (f (mget {} i c.srcs)) c.srcs }

/-- One comparing bar. -/
def cmpOf (s : State) (b : Nat) : CmpBar := mget {} b s.cmp.bars

/-- Change one comparing bar. -/
def modCmpBar (b : Nat) (f : CmpBar → CmpBar) : Eff :=
  modCmp fun c => { c with bars := mput b (f (mget {} b c.bars)) c.bars }

/-- Counters of a source from CMP_RS_TILES: 0 tiles, which wraps; 1 SEQ_ERR, 2 CHECK_ERR, 3 FETCH_ERR, which stop. -/
def srcCount (i k : Nat) : Eff := if k = 0 then countUp (Reg.CMP_RS_COUNTS i 0) 1 else countSat (Reg.CMP_RS_COUNTS i k) 1

/-- TILE_ROWS and RING_TILES, at least 1. -/
def tileRows (s : State) (i : Nat) : Nat := max 1 (regFld s (Reg.CMP_RS_GEOM i) 31 16)
def ringTiles (s : State) (i : Nat) : Nat := max 1 (regFld s (Reg.CMP_RS_GEOM i) 15 0)

/-- WIDTH and ROW0 of a source. -/
def srcWidth (s : State) (i : Nat) : Nat := regFld s (Reg.CMP_RS_WIDTH i) 18 0
def row0Of (s : State) (i : Nat) : Int := sint 32 (regGet s (Reg.CMP_RS_ROW0 i)).toNat

/-- RFMT and its bytes per pixel (R234). -/
def rfmtOf (s : State) (i : Nat) : Nat := regFld s (Reg.CMP_RS_CTRL i) 29 28
def pixBytes (f : Nat) : Nat := nthD 2 f [1, 4, 8, 2]

/-- ROW_BYTES, and the cells of the tolerance map: how many across, and bytes of the map (R235). -/
def rowBytes (s : State) (i : Nat) : Nat := padded (srcWidth s i * pixBytes (rfmtOf s i))
def logCx (s : State) (i : Nat) : Nat := regFld s (Reg.CMP_RS_MAP i) 31 28
def logCy (s : State) (i : Nat) : Nat := regFld s (Reg.CMP_RS_MAP i) 27 24
def cellsX (s : State) (i : Nat) : Nat := ceilDiv (srcWidth s i) (2 ^ logCx s i)
def mapBytes (s : State) (i : Nat) : Nat := 8 * cellsX s i * (tileRows s i / 2 ^ logCy s i)

/-- Bytes of a tile's rows, and the stride of a slot: the whole tile rounded up to 64 KiB. -/
def tileData (s : State) (i : Nat) : Nat := tileRows s i * rowBytes s i
def slotStride (s : State) (i : Nat) : Nat := ceilDiv (tileData s i + mapBytes s i) 0x10000 * 0x10000

/-- Device address of tile j's slot in the ring. -/
def slotAt (s : State) (i j : Nat) : Nat :=
  regWide s (Reg.CMP_RS_RING_LO i) (Reg.CMP_RS_RING_HI i) + j % ringTiles s i * slotStride s i

/-- A, CX, B, BX of a bar. -/
def rngA (s : State) (b : Nat) : Nat := regFld s (Reg.CMP_BAR_RANGE b) 31 24
def rngCX (s : State) (b : Nat) : Nat := regFld s (Reg.CMP_BAR_RANGE b) 23 16
def rngB (s : State) (b : Nat) : Nat := regFld s (Reg.CMP_BAR_RANGE b) 15 8
def rngBX (s : State) (b : Nat) : Nat := regFld s (Reg.CMP_BAR_RANGE b) 7 0

/-- The source of a bar, and the bars of a source. -/
def barSource (s : State) (b : Nat) : Nat := regFld s (Reg.CMP_BAR_CTRL b) 27 24
def srcBars (s : State) (i : Nat) : List Nat :=
  (upto 16).filter fun b => regBit s (Reg.CMP_BAR_CTRL b) 31 && barSource s b == i

/-- The reference row of a row (R233). -/
def rhoOf (s : State) (b r : Nat) : Int := (r : Int) + row0Of s (barSource s b)

/-- The listed tile that holds number j. -/
def tileOf (s : State) (i j : Nat) : Option RefTile :=
  firstWhere (fun t => decide (t.j ≤ j ∧ j < t.j + t.n)) (srcOf s i).tiles

/-! ## The list (R236, R237) -/

/-- Host software advances CMP_RS_TAIL; a value at or above ENTRIES is ignored. -/
def rsTail (ini : Ini) (i : Nat) (v : Word) : Eff := rd fun s =>
  when (decide (fld v 15 0 < regFld s (Reg.CMP_RS_LIST_SIZE i) 15 0)) (writePlain ini (Reg.CMP_RS_TAIL i) v)

/-- RS_TAIL_WRITE. -/
def execRsTailWrite (ini : Ini) (src : Fin 8) (v : Word) (s : State) : Host.Outcome State Fault Refusal :=
  .next (go (busWrite ini (Reg.CMP_RS_TAIL src) v (rsTail ini src v)) s)

/-- The tile an entry lists: SKIP prevails over BLANK, and BLANK over DEFMAP (R236, R240). [DEDUCED, log 65] -/
def entryTile (e : List Byte) : RefTile :=
  let a := leAt e 0 8
  let skip := a.testBit 1
  let blank := a.testBit 0 && !skip
  { j := leAt e 8 4
    addr := a / 64 * 64
    check := if a.testBit 2 then some (leAt e 12 4) else none
    blank := blank
    defmap := a.testBit 4 && !skip && !blank
    st := if skip then 5 else if blank then 2 else 0 }

/-- Tiles too old for the ring are no longer listed. -/
def pruneTiles (s : State) (i : Nat) (l : List RefTile) : List RefTile :=
  match (l.getLast?).map fun t => t.j with
  | none => l
  | some j =>
    let rows := (srcBars s i).map fun b => (rhoOf s b (cmpOf s b).next - (rngA s b + rngB s b : Nat)) / (tileRows s i : Int)
    let low := rows.foldl min (j : Int)
    l.filter fun t => decide (low ≤ (t.j + t.n : Int))

/-- An entry is taken, with the tiles it skips (R237). -/
def takeEntry (i : Nat) (t : RefTile) (last : Bool) : Eff := rd fun s =>
  let x := srcOf s i
  let next := x.next.getD t.j
  if x.last.isSome then skip
  else chain [
    when (t.j != next) (chain [
      srcCount i 1,
      raise 0x0C12 (0x100 + i) notice next t.j]),
    when (decide (next ≤ t.j)) (chain [
      modSrc i fun x => { x with
        tiles := pruneTiles s i x.tiles ++ (if next < t.j then [{ j := next, n := t.j - next, st := 5 }] else []) ++ [t]
        next := some (t.j + 1), last := if last then some t.j else none },
      setReg (Reg.CMP_RS_NEXT_TILE i) (word (t.j + 1)),
      when t.blank (srcCount i 0)]),
    when (decide (t.j < next) && x.next.isNone) (modSrc i fun x => { x with next := some next })]

/-- The comparator reads the entry at HEAD and advances HEAD. [DEDUCED, log 65] -/
def refEntry (i : Nat) : Eff := rd fun s =>
  let head := regFld s (Reg.CMP_RS_HEAD i) 15 0
  let a := regWide s (Reg.CMP_RS_LIST_LO i) (Reg.CMP_RS_LIST_HI i) + 16 * head
  let e := hostBytes s a 16
  when (regBit s (Reg.CMP_RS_CTRL i) 31 && regBit s (Reg.CMP_RS_CTRL i) 30
      && head != regFld s (Reg.CMP_RS_TAIL i) 15 0 && canIssue s) (chain [
    emit (.hostRead 0 a 16),
    setReg (Reg.CMP_RS_HEAD i) (word ((head + 1) % max 1 (regFld s (Reg.CMP_RS_LIST_SIZE i) 15 0))),
    takeEntry i (entryTile e) ((leAt e 0 1).testBit 3)])

/-- REF_ENTRY_READ. -/
def execRefEntryRead (src : Fin 8) (s : State) : Host.Outcome State Fault Refusal := .next (go (refEntry src) s)

/-! ## Fetches (R238, R240) -/

/-- The next row of each bar of a source, as a reference row plus and minus A + B. -/
def barReach (s : State) (i : Nat) : List (Nat × Int) :=
  (srcBars s i).map fun b => (b, rhoOf s b (cmpOf s b).next)

/-- A tile lies within the prefetch range of the lead bar. -/
def inPrefetch (s : State) (i j : Nat) : Bool := match barReach s i with
  | [] => false
  | x :: r =>
    let lead := r.foldl (fun m e => if m.2 < e.2 then e else m) x
    decide ((j : Int) ≤ (lead.2 + (rngA s lead.1 + rngB s lead.1 : Nat)) / (tileRows s i : Int)
      + regFld s (Reg.CMP_RS_CTRL i) 15 8)

/-- The slot of a tile is free. -/
def slotFree (s : State) (i j : Nat) : Bool := (barReach s i).all fun e =>
  decide (((j : Int) - ringTiles s i + 1) * tileRows s i - 1 + (rngA s e.1 + rngB s e.1 : Nat) < e.2)

/-- Change a listed tile. -/
def modTile (i j : Nat) (f : RefTile → RefTile) : Eff :=
  modSrc i fun x => { x with tiles := x.tiles.map fun t => if t.j = j then f t else t }

/-- The fetch of the next tile is posted to the source's Mover channel: its rows, and its map unless DEFMAP is set. -/
def fetchStart (i : Nat) : Eff := rd fun s =>
  let l := (srcOf s i).tiles
  match firstWhere (fun t => t.st == 0) l with
  | none => skip
  | some t => when (regBit s (Reg.CMP_RS_CTRL i) 30 && !(l.any fun u => u.st == 1) && inPrefetch s i t.j
      && slotFree s i t.j) (chain [
    modSrc i fun x => { x with tiles := x.tiles.filter fun u =>
      !(u.n == 1 && u.st == 2 && !u.blank && u.j != t.j && u.j % ringTiles s i == t.j % ringTiles s i) },
    modTile i t.j fun u => { u with st := 1 },
    modChan (regFld s (Reg.CMP_RS_CTRL i) 23 18) fun c => { c with posts := c.posts ++ [
      { src := t.addr, dst := slotAt s i t.j, len := tileData s i + (if t.defmap then 0 else mapBytes s i)
        attr := copyAttr true false true true }] }])

/-- REF_FETCH_START. -/
def execRefFetchStart (src : Fin 8) (s : State) : Host.Outcome State Fault Refusal := .next (go (fetchStart src) s)

/-- The channel's report on the tile being fetched: RESIDENT when the run succeeded and the check value matches (R240). A
report on a fetch of an earlier list concerns no tile of this one. [DEDUCED, log 65] -/
def fetchDone (i : Nat) : Eff := rd fun s =>
  let c := regFld s (Reg.CMP_RS_CTRL i) 23 18
  let taken := fun rest => modChan c fun (x : Chan) => { x with fins := rest, halted := false }
  match (chanOf s c).fins, firstWhere (fun t => t.st == 1) (srcOf s i).tiles with
  | f :: rest, found => if (srcOf s i).stale ≠ 0 then chain [
      taken rest,
      modSrc i fun x => { x with stale := x.stale - 1 }]
    else match found with
    | none => skip
    | some t => chain [
      taken rest,
      if f.status ≠ 0 then chain [
        modTile i t.j fun u => { u with st := 4 },
        srcCount i 3,
        raise 0x0C14 (0x100 + i) degraded t.j t.addr]
      else if t.check.isSome ∧ t.check ≠ some f.result then chain [
        modTile i t.j fun u => { u with st := 3 },
        srcCount i 2,
        raise 0x0C13 (0x100 + i) degraded t.j f.result]
      else chain [
        modTile i t.j fun u => { u with st := 2 },
        srcCount i 0]]
  | [], _ => skip

/-- REF_FETCH_DONE. -/
def execRefFetchDone (src : Fin 8) (s : State) : Host.Outcome State Fault Refusal := .next (go (fetchDone src) s)

/-- A row whose reference has left with its list, before the difference was taken, becomes unchecked: its tiles are no longer
resident. [DEDUCED, log 65] -/
def loseReference : CmpItem → CmpItem
  | .row y => .row { y with reason := if y.reason = 0 ∧ y.stage ≤ 3 then 8 else y.reason }
  | .close => .close

/-- A source starts a new list of tiles (R237): a fetch on its way is one of the old list, and its bars keep no reference
row of that list. [DEDUCED, log 65] -/
def newList (i : Nat) : Eff := rd fun s => chain [
  modSrc i fun x => { stale := x.stale + b2n (x.tiles.any fun t => t.st == 1) },
  each (srcBars s i) fun b => modCmpBar b fun x => { x with
    refs := [], blurred := [], rows := x.rows.map loseReference, newJob := true }]

/-- A write of CMP_RS_CTRL: setting EN starts a new list (R237). [DEDUCED, log 65] -/
def rsCtrl (ini : Ini) (i : Nat) (v : Word) : Eff := writeReg ini (Reg.CMP_RS_CTRL i) v fun old new =>
  when (bit new 30 && !bit old 30) (newList i)

end Sys2Proof.Machine
end

