-- ==== Sys2Proof/Machine/NozzleOps.lean ====
section
/-!
DEFINITION. What the nozzle engine keeps (R264 to R268): sides, rows, modules, stripe segments, and the ledger in device
memory.
-/
namespace Sys2Proof.Machine

/-! ## Sides and modules -/

/-- One side, and changing one. -/
def sideOf (s : State) (d : Nat) : NzSide := nthD {} d s.nzl.sides
def modSide (d : Nat) (f : NzSide → NzSide) : Eff :=
  modNzl fun n => { n with sides := setNth (f (nthD {} d n.sides)) d n.sides }

/-- One module, and changing one. -/
def nzModOf (s : State) (m : Nat) : NzMod := mget {} m s.nzl.mods
def modNzMod (m : Nat) (f : NzMod → NzMod) : Eff :=
  modNzl fun n => { n with mods := mput m (f (mget {} m n.mods)) n.mods }

/-- A side is declared; its loop runs; its measuring bar. -/
def sideValid (s : State) (d : Nat) : Bool := regBit s (Reg.NZL_SD_CTRL d) 31
def sideOn (s : State) (d : Nat) : Bool := sideValid s d && regBit s (Reg.NZL_SD_CTRL d) 30
def sideBar (s : State) (d : Nat) : Nat := regFld s (Reg.NZL_SD_CTRL d) 27 24

/-- The sides that a bar measures. -/
def sidesOf (s : State) (b : Nat) : List Nat := [0, 1].filter fun d => sideValid s d && sideBar s d == b

/-- The colorant rows a side declares, with COLORANT and BAND of each. -/
def sideRows (s : State) (d : Nat) : List Nat := (upto 8).filter fun h => regBit s (Reg.NZL_SD_ROW d h) 31
def rowColorant (s : State) (d h : Nat) : Nat := regFld s (Reg.NZL_SD_ROW d h) 26 24
def rowBand (s : State) (d h : Nat) : Nat := regFld s (Reg.NZL_SD_ROW d h) 18 16

/-- PAPER of a band. -/
def paperOf (s : State) (d j : Nat) : Nat :=
  regFld s (Reg.NZL_SD_PAPER d (j / 2)) (16 * (j % 2) + 15) (16 * (j % 2))

/-- A module is declared; its side, row, partner, nozzles and first ledger index. -/
def modValid (s : State) (m : Nat) : Bool := regBit s (Reg.NZL_MOD_CTRL m) 31
def modSideOf (s : State) (m : Nat) : Nat := regFld s (Reg.NZL_MOD_CTRL m) 30 30
def modRowOf (s : State) (m : Nat) : Nat := regFld s (Reg.NZL_MOD_CTRL m) 26 24
def modPartnerOf (s : State) (m : Nat) : Nat := regFld s (Reg.NZL_MOD_CTRL m) 11 0
def modCount (s : State) (m : Nat) : Nat := regFld s (Reg.NZL_MOD_COUNT m) 13 0
def modBase (s : State) (m : Nat) : Nat := regFld s (Reg.NZL_MOD_BASE m) 19 0
def modPitch (s : State) (m : Nat) : Nat := regFld s (Reg.NZL_MOD_PITCH m) 15 0

/-- The modules of a side, and of one of its rows, rising. -/
def sideMods (s : State) (d : Nat) : List Nat := (upto 1024).filter fun m => modValid s m && modSideOf s m == d
def rowMods (s : State) (d h : Nat) : List Nat := (sideMods s d).filter fun m => modRowOf s m == h

/-- The nominal column of a nozzle in 1/256 column (R265). -/
def nozzleX (s : State) (m i : Nat) : Int :=
  let step : Int := (i * modPitch s m / 16 : Nat)
  let x0 := sint 32 (regGet s (Reg.NZL_MOD_X0 m)).toNat
  if regBit s (Reg.NZL_MOD_CTRL m) 29 then x0 - step else x0 + step

/-- A nozzle: its module, its place in it, its ledger index and its column. -/
structure Nozzle where
  m : Nat
  i : Nat
  idx : Nat
  x : Int
  deriving DecidableEq, Repr

/-- The nozzles of a module. -/
def modNozzles (s : State) (m : Nat) : List Nozzle :=
  (upto (modCount s m)).map fun i => { m := m, i := i, idx := modBase s m + i, x := nozzleX s m i }

/-- Put a nozzle in its place by column, ties by ledger index. -/
def placeNozzle (n : Nozzle) : List Nozzle → List Nozzle
  | [] => [n]
  | o :: r => if n.x < o.x ∨ n.x = o.x ∧ n.idx ≤ o.idx then n :: o :: r else o :: placeNozzle n r

/-- The nozzles of a colorant row in their order (R265). -/
def rowNozzles (s : State) (d h : Nat) : List Nozzle :=
  ((rowMods s d h).flatMap (modNozzles s)).foldr placeNozzle []

/-- The module whose range holds a ledger index. -/
def moduleAt (s : State) (n : Nat) : Option Nat :=
  firstWhere (fun m => modValid s m && decide (modBase s m ≤ n ∧ n < modBase s m + modCount s m)) (upto 1024)

/-! ## Ledger entries (R266) -/

/-- A ledger entry. -/
structure Ledger where
  st : Nat := 0
  pin : Bool := false
  subst : Bool := false
  src : Bool := false
  age : Nat := 0
  dens : Int := 0
  posX : Int := 0
  posY : Int := 0
  conf : Nat := 0
  corr : Nat := 0
  deriving DecidableEq, Repr

/-- The entry of 64 bits. -/
def ledgerOf (v : Nat) : Ledger := {
  st := bits v 63 61, pin := v.testBit 60, subst := v.testBit 59, src := v.testBit 58, age := bits v 55 48
  dens := sint 12 (bits v 47 36), posX := sint 8 (bits v 35 28), posY := sint 8 (bits v 27 20)
  conf := bits v 19 16, corr := bits v 15 0 }

/-- The 64 bits of an entry. -/
def ledgerBits (e : Ledger) : Nat :=
  e.st * 2 ^ 61 + b2n e.pin * 2 ^ 60 + b2n e.subst * 2 ^ 59 + b2n e.src * 2 ^ 58 + e.age * 2 ^ 48
    + wrapTo 12 e.dens * 2 ^ 36 + wrapTo 8 e.posX * 2 ^ 28 + wrapTo 8 e.posY * 2 ^ 20 + e.conf * 2 ^ 16 + e.corr

/-- Device address of an entry. -/
def ledgerAt (s : State) (n : Nat) : Nat := regWide s Reg.NZL_LEDGER_LO Reg.NZL_LEDGER_HI + 8 * n

/-- The entry in memory. -/
def ledgerGet (s : State) (n : Nat) : Ledger := ledgerOf (memNat s (ledgerAt s n) 8)

/-- An entry takes a value. -/
def ledgerPut (n : Nat) (e : Ledger) : Eff := rd fun s => storeBytes (ledgerAt s n) (leBytes 8 (ledgerBits e))

/-- The words an access to an entry reads: STATE 7 outside every module (R267). -/
def ledgerWord (s : State) (n : Nat) : Nat := if (moduleAt s n).isSome then memNat s (ledgerAt s n) 8 else 7 * 2 ^ 61

/-- Device address of an entry's accumulators (R272). -/
def accAt (s : State) (n : Nat) : Nat := regWide s Reg.NZL_ACC_LO Reg.NZL_ACC_HI + 16 * n

/-- A correction word has OFF set; its GAIN (R269). -/
def isOff (w : Nat) : Bool := w.testBit 15
def gainOf (w : Nat) : Nat := bits w 9 0

/-- The neutral word. -/
def neutralWord : Nat := 0x200

/-- The word of a nozzle in a list of words: neutral where none is listed. -/
def wordIn (ws : List Nat) (i : Nat) : Nat := nthD neutralWord i ws

/-! ## Stripes (R270) -/

/-- PHASES, SEG and GAP of a side. -/
def stripePhases (s : State) (d : Nat) : Nat := max 1 (regFld s (Reg.NZL_SD_STRIPE_GEOM d) 31 24)
def stripeSeg (s : State) (d : Nat) : Nat := max 1 (regFld s (Reg.NZL_SD_STRIPE_GEOM d) 23 16)
def stripeGap (s : State) (d : Nat) : Nat := regFld s (Reg.NZL_SD_STRIPE_GEOM d) 15 8
def stripeY0 (s : State) (d : Nat) : Nat := (regGet s (Reg.NZL_SD_STRIPE_Y0 d)).toNat
def stripeRep (s : State) (d : Nat) : Nat := (regGet s (Reg.NZL_SD_STRIPE_REP d)).toNat

/-- Segments of a stripe: one for each declared row and phase. -/
def stripeCount (s : State) (d : Nat) : Nat := (sideRows s d).length * stripePhases s d

/-- A segment of a side: its stripe, colorant row and phase, and its first row. -/
structure Segment where
  n : Nat
  h : Nat
  p : Nat
  first : Nat
  deriving DecidableEq, Repr

/-- The segment with a running number, counted over the declared rows. -/
def segmentAt (s : State) (d q : Nat) : Segment :=
  let c := max 1 (stripeCount s d)
  let ph := stripePhases s d
  let h := nthD 0 (q % c / ph) (sideRows s d)
  let p := q % ph
  { n := q / c, h := h, p := p
    first := stripeY0 s d + q / c * stripeRep s d + (h * ph + p) * (stripeSeg s d + stripeGap s d) }

/-- The stripes that may hold a row. -/
def stripesNear (s : State) (d r : Nat) : List Nat :=
  if stripeRep s d = 0 ∨ stripeCount s d = 0 then []
  else
    let n := (r - stripeY0 s d) / stripeRep s d
    [n - 1, n, n + 1]

/-- A row lies in a stripe: from its first segment to the end of its last. -/
def isStripeRow (s : State) (d r : Nat) : Bool := (stripesNear s d r).any fun n =>
  let a := stripeY0 s d + n * stripeRep s d
  let hs := (sideRows s d).foldl max 0
  decide (a ≤ r ∧ r < a + (hs + 1) * stripePhases s d * (stripeSeg s d + stripeGap s d))

/-- The number of the first segment that starts at or after a row. -/
def firstSegment (s : State) (d r : Nat) : Nat :=
  let c := stripeCount s d
  let qs := (stripesNear s d r).flatMap fun n => (upto c).map fun i => n * c + i
  (firstWhere (fun q => decide (r ≤ (segmentAt s d q).first)) qs).getD 0

/-- A stitched row reaches the nozzle engine of the sides that its bar measures; rows of stripes are kept. -/
def stripeTake (b r : Nat) (tag : LineTag) (bands : Nat) (data : List Nat) : Eff := rd fun s =>
  each (sidesOf s b) fun d =>
    let x := sideOf s d
    let again : Bool := match x.top with
      | some t => decide (r ≤ t)
      | none => true
    chain [
      when again (modSide d fun x => { x with
        seg := firstSegment s d r, rows := [], meas := [], bad := 0, sums := [] }),
      modSide d fun x => { x with
        top := some r
        rows := if isStripeRow s d r then x.rows ++ [{ r := r, tag := tag, bands := bands, data := data }] else x.rows }]

end Sys2Proof.Machine
end

