-- ==== Sys2Proof/Machine/Compare.lean ====
section
/-!
DEFINITION. The comparator's way of a row (R241 to R257): entry and reasons, the appearance model, blur, registration, and
the difference against the tolerance.
-/
namespace Sys2Proof.Machine

/-! ## Counters, records and their producers -/

/-- The counters from CMP_ROWS: 0 rows, which wraps; 1 UNCHECKED, 2 DREF_MISS, 3 DEFECTS, 4 SMALL, 5 CL_OVF, 6 CROPS,
7 CROP_LOST, 8 REG_CLAMP, 9 REG_UPD, 10 OUTSIDE, which stop (R262). -/
def cmpCount (b k n : Nat) : Eff := if k = 0 then countUp (Reg.CMP_BAR_COUNTS b 0) n else countSat (Reg.CMP_BAR_COUNTS b k) n

/-- A bar is at the expert level. -/
def cmpExpert (s : State) (b : Nat) : Bool := atExpert s (Reg.CMP_BAR_CTRL b)

/-- BANDS and SLICES of a bar. -/
def barBands (s : State) (b : Nat) : Nat := regFld s (Reg.CMP_BAR_CTRL b) 18 16
def barSlices (s : State) (b : Nat) : List Nat :=
  (upto (regFld s (Reg.CMP_BAR_CTRL b) 15 8)).filter fun k => regBit s (Reg.CMP_SL_CTRL b k) 31

/-- The columns of a slice. -/
def sliceLo (s : State) (b k : Nat) : Nat := regFld s (Reg.CMP_SL_CTRL b k) 18 0
def sliceHi (s : State) (b k : Nat) : Nat := sliceLo s b k + regFld s (Reg.CMP_SL_WIDTH b k) 18 0

/-- The slice of a column. -/
def sliceAt (s : State) (b x : Nat) : Nat :=
  (firstWhere (fun k => decide (sliceLo s b k ≤ x ∧ x < sliceHi s b k)) (barSlices s b)).getD 0

/-- One slice, and changing one. -/
def sliceOf (s : State) (b k : Nat) : Slice := mget {} k (cmpOf s b).slices
def modSlice (b k : Nat) (f : Slice → Slice) : Eff :=
  modCmpBar b fun x => { x with slices := mput k (f (mget {} k x.slices)) x.slices }

/-- The shift in force of a slice. -/
def shiftOf (s : State) (b k : Nat) : Int × Int := ((sliceOf s b k).sx, (sliceOf s b k).sy)

/-- MODE of a bar is FIXED, at the basic level. -/
def regFixed (s : State) (b : Nat) : Bool := !cmpExpert s b && regFld s (Reg.CMP_BAR_REG b) 1 0 == 0

/-- The shifts of a bar's slices go to 0: in MODE FIXED (R251). -/
def zeroShifts (b : Nat) : Eff := modCmpBar b fun x => { x with
  slices := x.slices.map fun e => (e.1, { e.2 with sx := 0, sy := 0 }) }

/-- MODE FIXED at the basic level holds the shifts at 0 (R251). -/
def fixShift (b : Nat) : Eff := rd fun s => when (regFixed s b) (zeroShifts b)

/-- A job starts at a bar: its slices acquire anew, from the shift in force, which is 0 at the basic level (R251).
[DEDUCED, log 62] -/
def cmpJobStart (b : Nat) : Eff := rd fun s => chain [
  modCmpBar b fun x => { x with
    newJob := false
    slices := x.slices.map fun e => (e.1, { sx := e.2.sx, sy := e.2.sy }) },
  when (!cmpExpert s b) (zeroShifts b)]

/-! ## The LUT (R242, R245) -/

/-- Bytes of the LUT area in use. -/
def lutBytes (s : State) (b : Nat) : Nat := 2 * 83521 * regFld s (Reg.CMP_BAR_LUT_CFG b) 27 24

/-- The LUT is copied into REF_RENDER; an uncorrectable word makes the bar's rows unchecked (R311). -/
def loadLut (b : Nat) : Eff := rd fun s =>
  let a := regWide s (Reg.CMP_BAR_LUT_LO b) (Reg.CMP_BAR_LUT_HI b)
  let bad := poisoned s a (lutBytes s b)
  chain [
    reportPoison 0x0C bad,
    when (!bad.isEmpty) (raise 0x0C19 b degraded 0xFFFFFFFF (bad.foldl min 0xFFFFFFFFFF)),
    modCmpBar b fun x => { x with lut := memBytes s a (lutBytes s b), lutBad := !bad.isEmpty }]

/-- A write of CMP_BAR_LUT_CFG: RELOAD requests a reload at the next bar frame start. -/
def lutCtrl (ini : Ini) (b : Nat) (v : Word) : Eff := writeReg ini (Reg.CMP_BAR_LUT_CFG b) v fun _ _ =>
  when (bit v 31) (modCmpBar b fun x => { x with reload := true })

/-- LUT_RELOAD. -/
def execLutReload (ini : Ini) (b : Fin 16) (v : Word) (s : State) : Host.Outcome State Fault Refusal :=
  .next (go (busWrite ini (Reg.CMP_BAR_LUT_CFG b) v (lutCtrl ini b v)) s)

/-- A reload is running. -/
def reloading (s : State) (b : Nat) : Bool := s.store.lutBusy.contains b

/-- A running reload is done: RELOAD clears. -/
def lutDone (b : Nat) : Eff := rd fun s => when (reloading s b) (chain [
  loadLut b,
  modStore fun m => { m with lutBusy := m.lutBusy.filter (· != b) },
  putBit (Reg.CMP_BAR_LUT_CFG b) 31 false])

/-- LUT_RELOAD_RUN. -/
def execLutReloadRun (b : Fin 16) (s : State) : Host.Outcome State Fault Refusal := .next (go (lutDone b) s)

/-! ## Entry of a row (R233, R241, R256) -/

/-- A reference row lies in the job: not below 0, nor beyond the END tile. -/
def inJob (s : State) (i : Nat) (rho : Int) : Bool :=
  decide (0 ≤ rho) && match (srcOf s i).last with
    | some j => decide (rho < (j + 1) * (tileRows s i : Int))
    | none => true

/-- The tiles that rows ρ - A - B to ρ + A + B of the job need. -/
def neededTiles (s : State) (b : Nat) (rho : Int) : List Nat :=
  let i := barSource s b
  let ab : Int := (rngA s b + rngB s b : Nat)
  let lo := (max 0 (rho - ab)) / (tileRows s i : Int)
  let hi := (rho + ab) / (tileRows s i : Int)
  let hi := match (srcOf s i).last with
    | some j => min hi j
    | none => hi
  if hi < lo then [] else upFrom lo.toNat ((hi - lo).toNat + 1)

/-- The reason a needed tile gives: 0 none, SKIP, REF_CHECK, FETCH, D_REF (R256). -/
def tileReason (s : State) (i j : Nat) : Nat := match tileOf s i j with
  | none => 8
  | some t =>
    match t.st with
    | 2 => 0
    | 5 => 5
    | 3 => 6
    | 4 => 7
    | _ => 8

/-- The lowest reason other than 0. [DEDUCED, log 62] -/
def lowReason (l : List Nat) : Nat := (l.filter (· != 0)).foldl (fun m r => if m = 0 then r else min m r) 0

/-- The reason a row is unchecked at its entry; 0 when it is compared (R256). [DEDUCED, log 62] -/
def rowReason (s : State) (b : Nat) (rho : Int) (t : LineTag) : Nat :=
  let i := barSource s b
  let x := cmpOf s b
  let xferEnded : Bool := match x.xfer with
    | some n => decide (3 ≤ n)
    | none => false
  lowReason ([if regBit s (Reg.CMP_BAR_CTRL b) 30 then 0 else 1,
    if inJob s i rho then 0 else 2,
    if t.flags.testBit fXfer && !xferEnded then 3 else 0,
    if t.flags.testBit fTrunc then 4 else 0,
    if x.lutBad then 9 else 0,
    if regBit s (Reg.CMP_BAR_CTRL b) 1 && (barSlices s b).any fun k => (sliceOf s b k).st == 3 then 11 else 0]
    ++ (neededTiles s b rho).map (tileReason s i))

/-- The crop ring of a bar with a DEFECT_CROP instance: a row packed as U8 (R197, R261). -/
def cropBase (s : State) (b : Nat) : Nat := regWide s (Reg.CMP_BAR_CROP_RING_LO b) (Reg.CMP_BAR_CROP_RING_HI b)
def cropDepth (s : State) (b : Nat) : Nat := regFld s (Reg.CMP_BAR_CROP_DEPTH b) 15 0
def cropRow (data : List Nat) : List Byte := pad8 (packValues 0 (data.map (opackValue 0)))

/-- A row enters the crop ring. -/
def cropStore (b r : Nat) (data : List Nat) : Eff := rd fun s =>
  let bs := cropRow data
  when (hasInst s 0x1D 2 b && cropDepth s b != 0) (chain [
    storeBytes (cropBase s b + r % cropDepth s b * bs.length) bs,
    modCmpBar b fun x =>
      let first := if r = x.cropFirst + x.cropRows then x.cropFirst else r
      let rows := r + 1 - first
      let drop := rows - cropDepth s b
      { x with cropFirst := first + drop, cropRows := rows - drop }])

/-- A bar frame starts: the level, pending settings, a reload, and the counts of the frame (R245, R251, R262). -/
def cmpFrameStart (b : Nat) : Eff := chain [
  fixShift b,
  levelBoundary (Reg.CMP_BAR_CTRL b),
  fixShift b,
  endDiscard (0x1000 + b),
  endDiscard (0x1100 + b),
  rd fun s => chain [
    when (cmpOf s b).reload (modStore fun m => { m with lutBusy := if m.lutBusy.contains b then m.lutBusy else b :: m.lutBusy }),
    modCmpBar b fun x => { x with
      reload := false, fresh := false, rearm := false
      frameNs := if x.frameFrom = 0 then 0 else (sar (timeNow s - x.frameFrom) 32).toNat
      frameFrom := timeNow s
      xfer := x.xfer.map fun n => n + 1
      abs := (upto 8).map fun k => regGet s (Reg.CMP_BAR_ABS b k)
      slices := if x.rearm then x.slices.map fun e => (e.1, { e.2 with held := false, st := if e.2.st = 4 then 1 else e.2.st })
        else x.slices }]]

/-- A row enters the comparator (R241). -/
def rowEnter (b r : Nat) (tag : LineTag) (bands : Nat) (data : List Nat) : Eff := chain [
  rd fun s => when (cmpOf s b).fresh (cmpFrameStart b),
  rd fun s => when ((cmpOf s b).newJob || decide (r < (cmpOf s b).next)) (cmpJobStart b),
  modCmpBar b fun x => { x with xfer := if tag.flags.testBit fXfer then some (x.xfer.getD 0) else none },
  cropStore b r data,
  stripeTake b r tag bands data,
  rd fun s =>
    let rho := rhoOf s b r
    let why := rowReason s b rho tag
    let j := (firstWhere (fun j => tileReason s (barSource s b) j == 8) (neededTiles s b rho)).getD 0
    chain [
      cmpCount b 0 1,
      when (why == 8) (chain [
        cmpCount b 2 1,
        raiseMerge 0x0C10 b degraded r j,
        deadlineMiss 1]),
      modCmpBar b fun x => { x with
        next := r + 1, unchecked := why != 0
        rows := x.rows ++ [.row { r := r, rho := rho, tag := tag, bands := bands, data := data, reason := why }] }]]

/-- A bar frame ends. -/
def frameEnters (b : Nat) : Eff := chain [
  modCmpBar b fun x => { x with rows := x.rows ++ [.close], fresh := true },
  warmFrame 2 b]

/-- The tap of a bar without Seif: a CMP tap whose pipeline the structure routes to the bar (R233). [DEDUCED, log 65] -/
def cmpTap (s : State) (b : Nat) : Option Nat :=
  let owner := fun n => (mget? n s.erg.insts).map fun i => (i.owner, i.id)
  let fed := (s.erg.routes.filter fun e => owner e.2.dst == some (2, b)).filterMap fun e => owner e.2.src
  firstWhere (fun t => regBit s (Reg.OUT_TAP_CTRL t) 28 && tapDest s t == 3
    && (fed.contains (1, t / 4) || fed.contains (4, t / 4))) (upto 1024)

/-- A row stands at a stage. -/
def stageHeld (s : State) (b st : Nat) : Bool := (cmpOf s b).rows.any fun i => match i with
  | .row y => y.stage == st
  | .close => false

/-- The oldest row, or frame close, of a bar enters the comparator: from Seif, or from its CMP tap (R233); it waits while a row
stands at REF_RENDER (R41). [DESIGN CHOICE, log 43] [DEDUCED, log 62] -/
def cmpEnter (b : Nat) : Eff := rd fun s => when (regBit s (Reg.CMP_BAR_CTRL b) 31 && mainPowered s && !stageHeld s b 0) (
  if regBit s (Reg.SEI_BAR_CTRL b) 31 then match (barOf s b).out with
    | [] => skip
    | i :: rest => chain [
        modBar b fun x => { x with out := rest },
        match i with
        | .row x => rowEnter b x.r (xferTag s 2 b x.tag) x.bands x.data
        | .close _ => frameEnters b]
  else match cmpTap s b with
    | none => skip
    | some t => match (tapOf s t).route with
      | [] => skip
      | i :: rest => chain [
          modTap t fun x => { x with route := rest },
          match i with
          | .line l => rowEnter b (lineIndex s (t / 4) l.tag.web).toNat (xferTag s 2 b { l.tag with pipe := b }) l.bands l.data
          | .close _ => frameEnters b])

/-- CMP_ROW_ENTER. -/
def execCmpRowEnter (b : Fin 16) (s : State) : Host.Outcome State Fault Refusal := .next (go (cmpEnter b) s)

/-! ## Stages -/

/-- The oldest row that stands at a stage, with only later stages ahead of it. -/
def rowAt (st : Nat) : List CmpItem → Option CmpRow
  | [] => none
  | .close :: r => rowAt st r
  | .row x :: r => if x.stage = st then some x else if x.stage < st then none else rowAt st r

/-- Change the row with a number at a stage. -/
def putRow (st : Nat) (f : CmpRow → CmpRow) : List CmpItem → List CmpItem
  | [] => []
  | .close :: r => .close :: putRow st f r
  | .row x :: r => if x.stage = st then .row (f x) :: r else .row x :: putRow st f r

/-- Change the oldest row of a stage. -/
def modRow (b st : Nat) (f : CmpRow → CmpRow) : Eff := modCmpBar b fun x => { x with rows := putRow st f x.rows }

/-- The instances of a stage of a bar. -/
def cmpInsts (s : State) (b kind : Nat) : List (Nat × Inst) := ownInsts s kind 2 b

/-- The oldest row at a stage, when the stage is powered and can hand it on: the next stage is free (R41, R419). -/
def rowTurn (s : State) (b st kind : Nat) : Option CmpRow :=
  if stageRuns s 2 b (cmpInsts s b kind) && !stageHeld s b (st + 1) then rowAt st (cmpOf s b).rows else none

/-- The oldest row of a stage, changed, goes to the next one; it leaves the stage's marks in its tag (R40). -/
def rowOn (b st kind : Nat) (f : CmpRow → CmpRow) : Eff := rd fun s => chain [
  modRow b st fun y => { f y with stage := st + 1, tag := stageTag s kind 2 b (cmpInsts s b kind) y.tag },
  clearStageMark (cmpInsts s b kind)]

/-! ## Appearance (R234, R235, R243, R244) -/

/-- DROP_AMT of a level (R234). -/
def dropAmt (s : State) (i c level : Nat) : Nat :=
  if level = 0 then 0 else regFld s (Reg.CMP_RS_DROP i c) (8 * level - 1) (8 * level - 8)

/-- The eight colorant amounts of a pixel's bytes (R234). -/
def amounts (s : State) (i : Nat) (px : List Byte) : List Nat :=
  match rfmtOf s i with
  | 0 => (upto 8).map fun c => if c < 4 then dropAmt s i c (leVal px / 4 ^ c % 4) else 0
  | 1 => (upto 8).map fun c => if c < 4 then leAt px c 1 else 0
  | 2 => (upto 8).map fun c => leAt px c 1
  | _ => (upto 8).map fun c => dropAmt s i c (leVal px / 4 ^ c % 4)

/-- Insert a colorant by descending fraction; equal ones stay in ascending order. -/
def insertColorant (f : Nat → Nat) (c : Nat) : List Nat → List Nat
  | [] => [c]
  | d :: r => if f c ≤ f d then d :: insertColorant f c r else c :: d :: r

/-- Colorants 0 to 3 by descending fraction, equal ones by ascending number. -/
def colorantOrder (f : Nat → Nat) : List Nat := [0, 1, 2, 3].foldl (fun l c => insertColorant f c l) []

/-- Node number of four indices (R242). -/
def nodeOf (i : List Nat) : Nat := ((nthD 0 3 i * 17 + nthD 0 2 i) * 17 + nthD 0 1 i) * 17 + nthD 0 0 i

/-- The LUT's value for amounts and a LUT band (R243). -/
def lutValue (lut : List Byte) (bands q : Nat) (a : List Nat) : Nat :=
  let f := fun c => nthD 0 c a % 16
  let at' := fun i => leAt lut (2 * (nodeOf i * bands + q)) 2
  let i0 := [0, 1, 2, 3].map fun c => nthD 0 c a / 16
  let p := colorantOrder f
  let start := (16 - f (nthD 0 0 p)) * at' i0
  let step := fun (st : List Nat × Nat) k =>
    let c := nthD 0 k p
    let i := setNth (nthD 0 c st.1 + 1) c st.1
    (i, st.2 + (f c - (if k < 3 then f (nthD 0 (k + 1) p) else 0)) * at' i)
  (((upto 4).foldl step (i0, start)).2 + 8) / 16

/-- The absorbers of colorants 4 to 7 on a bar band (R244). -/
def absorb (abs : List Word) (j : Nat) (a : List Nat) (v : Nat) : Nat :=
  [0, 1, 2, 3].foldl (fun v c =>
    let w := nthD 0#32 (2 * c + j / 2) abs
    let k := if j % 2 = 1 then fld w 31 16 else fld w 15 0
    let x := nthD 0 (4 + c) a
    (v * (65536 - k * (x + x / 128) / 256) + 32768) / 65536) v

/-- SEL_j: the LUT band of a bar band. -/
def selBand (s : State) (b j : Nat) : Nat := regFld s (Reg.CMP_BAR_LUT_CFG b) (4 * j + 2) (4 * j)

/-- The rendered values of a pixel, one per bar band. -/
def renderPixel (s : State) (b : Nat) (a : List Nat) : List Nat :=
  let x := cmpOf s b
  (upto (barBands s b)).map fun j =>
    absorb x.abs j a (lutValue x.lut (max 1 (regFld s (Reg.CMP_BAR_LUT_CFG b) 27 24)) (selBand s b j) a)

/-- Device address of a reference row in its tile's slot. -/
def refRowAt (s : State) (i : Nat) (rho : Nat) : Nat :=
  slotAt s i (rho / tileRows s i) + rowBytes s i * (rho % tileRows s i)

/-- A reference row has bytes in the ring: it lies in the job, in a tile that is not BLANK. -/
def hasBytes (s : State) (i : Nat) (rho : Int) : Bool :=
  inJob s i rho && match tileOf s i (rho.toNat / tileRows s i) with
    | some t => !t.blank
    | none => false

/-- A rendered reference row, pixel-interleaved. [DESIGN CHOICE, log 63] -/
def renderRow (s : State) (b : Nat) (rho : Int) : List Nat :=
  let i := barSource s b
  let n := pixBytes (rfmtOf s i)
  if hasBytes s i rho then
    let bs := memBytes s (refRowAt s i rho.toNat) (srcWidth s i * n)
    (chunks n (bs.length + 1) bs).flatMap fun px => renderPixel s b (amounts s i px)
  else
    let v := renderPixel s b [0, 0, 0, 0, 0, 0, 0, 0]
    (upto (srcWidth s i)).flatMap fun _ => v

/-- Address of the tolerance map row of a reference row, in a tile with a map. -/
def mapRowAt (s : State) (i rho : Nat) : Nat :=
  slotAt s i (rho / tileRows s i) + tileData s i + 8 * cellsX s i * (rho % tileRows s i / 2 ^ logCy s i)

/-- The uncorrectable words of a reference row and of its map cells. -/
def refPoison (s : State) (b : Nat) (rho : Int) : List Nat :=
  let i := barSource s b
  if hasBytes s i rho then
    poisoned s (refRowAt s i rho.toNat) (rowBytes s i) ++ (match tileOf s i (rho.toNat / tileRows s i) with
      | some t => if t.defmap then [] else poisoned s (mapRowAt s i rho.toNat) (8 * cellsX s i)
      | none => [])
  else []

/-- The reference rows around a row, by how far. -/
def around (rho : Int) (n : Nat) : List Int := (upto (2 * n + 1)).map fun (k : Nat) => rho - (n : Int) + (k : Int)

/-- The lowest reference row of the rows that are compared and stand no further than a stage. -/
def lowRho (last : Nat) (rho : Int) (l : List CmpItem) : Int := l.foldl (fun m i => match i with
  | .row y => if y.reason = 0 ∧ y.stage ≤ last then min m y.rho else m
  | .close => m) rho

/-- The reference rows that a row and the rows up to a stage still need. -/
def keepFrom (s : State) (b last : Nat) (rho : Int) {α : Type} (l : List (Int × α)) : List (Int × α) :=
  l.filter fun e => decide (lowRho last rho (cmpOf s b).rows - (rngA s b + rngB s b : Nat) ≤ e.1)

/-- A row leaves REF_RENDER and enters the slices, whose shifts in force it takes (R250). -/
def enterSlices (s : State) (b : Nat) (y : CmpRow) : CmpRow := { y with shifts := (upto 16).map fun k => shiftOf s b k }

/-- The oldest row becomes unchecked in REF_RENDER, and goes on. -/
def spoilRow (b why : Nat) (y : CmpRow) : Eff := rd fun s => chain [
  rowOn b 0 0x18 fun y => enterSlices s b { y with reason := why },
  modCmpBar b fun x => { x with unchecked := x.unchecked || y.r + 1 == x.next }]

/-- REF_RENDER renders the next reference row that the oldest row needs, or hands the row on (R243 to R245, R311).
[DESIGN CHOICE, log 63] -/
def refRender (b : Nat) : Eff := rd fun s => match rowTurn s b 0 0x18 with
  | none => skip
  | some y =>
    let refs := keepFrom s b 1 y.rho (cmpOf s b).refs
    let need := around y.rho (rngA s b + rngB s b)
    let find := fun (p : Int) => firstWhere (fun e => e.1 == p) refs
    if y.reason ≠ 0 then rowOn b 0 0x18 (enterSlices s b)
    else match firstWhere (fun p => (find p).isNone) need with
      | none => if need.any fun p => ((find p).map fun e => e.2.isNone) == some true then spoilRow b 9 y
          else rowOn b 0 0x18 (enterSlices s b)
      | some p =>
        if reloading s b then spoilRow b 10 y
        else
          let bad := refPoison s b p
          let is := cmpInsts s b 0x18
          chain [
            modRow b 0 fun y => { y with tag := stageTag s 0x18 2 b is y.tag },
            clearStageMark is,
            reportPoison 0x0C bad,
            when (!bad.isEmpty) (raise 0x0C19 b degraded (p.toNat / tileRows s (barSource s b)) (bad.foldl min 0xFFFFFFFFFF)),
            modCmpBar b fun x => { x with refs := refs ++ [(p, if bad.isEmpty then some (renderRow s b p) else none)] }]

/-- REF_RENDER_ROW. -/
def execRefRenderRow (b : Fin 16) (s : State) : Host.Outcome State Fault Refusal := .next (go (refRender b) s)

/-! ## Blur (R246, R247) -/

/-- Unit of the fixed-point numbers of the kernel's exponential. [PRESUMED, log 64] -/
def expOne : Nat := 2 ^ 128

/-- The series of e^-x for x in [0, 1) in that unit. [PRESUMED, log 64] -/
def expSeries (x : Nat) : Nat → Int → Int → Nat → Int
  | 0, acc, _, _ => acc
  | n + 1, acc, term, k =>
    let t := -(term * (x : Int)) / ((expOne * (k + 1) : Nat) : Int)
    expSeries x n (acc + t) t (k + 1)

/-- e^-t for t = num / den in that unit: the argument is divided by 128 and the result squared seven times.
[PRESUMED, log 64] -/
def expNeg (num den : Nat) : Nat :=
  if den = 0 ∨ 64 * den ≤ num then 0
  else
    let x := num * expOne / (den * 128)
    let e := (expSeries x 40 (expOne : Int) (expOne : Int) 0).toNat
    (upto 7).foldl (fun v _ => v * v / expOne) e

/-- A kernel of the basic level: coefficients 0 to H from SIGMA in 1/16 um and the grid's DPI (R247).
[PRESUMED, log 64] -/
def basicKernel (sigma dpi h : Nat) : List Int :=
  if sigma = 0 then (16384 : Int) :: (upto h).map fun _ => (0 : Int)
  else
    let g := (upto (h + 1)).map fun k => expNeg (k * k * 25400 * 25400 * 128) (dpi * sigma * (dpi * sigma))
    let total := 2 * sumOf id g - nthD 0 0 g
    let ks := g.map fun x => (((16384 * x * 2 + total) / (2 * total) : Nat) : Int)
    let sum := 2 * isumOf id ks - nthD 0 0 ks
    match ks with
    | k0 :: r => (k0 + (16384 - sum)) :: r
    | [] => []

/-- The grid resolution of a bar without Seif is its camera's LPI. -/
def cmpDpi (s : State) (b : Nat) : Nat :=
  if regBit s (Reg.SEI_BAR_CTRL b) 31 then dpiOf s b
  else match cmpTap s b with
    | some t => lpiOf s (t / 4)
    | none => dpiOf s b

/-- The kernel in force of an axis: across (`true`) or along the web. [PRESUMED, log 64] -/
def kernelOf (s : State) (b : Nat) (across : Bool) : List Int :=
  let h := if across then rngBX s b else rngB s b
  if cmpExpert s b then (upto (h + 1)).map fun k =>
    sint 16 (half s (if across then Reg.CMP_BAR_KX b else Reg.CMP_BAR_KY b) k)
  else basicKernel (if across then regFld s (Reg.CMP_BAR_SIGMA b) 15 0 else regFld s (Reg.CMP_BAR_SIGMA b) 31 16)
    (cmpDpi s b) h

/-- One output of a blur pass over inputs indexed from -H to H (R246). -/
def blurAt (ks : List Int) (input : Int → Nat) : Nat :=
  let h := ks.length - 1
  let acc := (upto (2 * h + 1)).foldl (fun a (i : Nat) =>
    let k : Int := (i : Int) - (h : Int)
    sat32 (a + nthD 0 k.natAbs ks * ((input k : Nat) : Int))) (8192 : Int)
  u16 (sar acc 14)

/-- The pass across the web of a rendered row. -/
def blurAcross (ks : List Int) (bands : Nat) (row : List Nat) : List Nat :=
  let w := row.length / max 1 bands
  (upto w).flatMap fun (x : Nat) => (upto bands).map fun (c : Nat) =>
    blurAt ks fun k => nthD 0 ((clampI 0 ((w : Int) - 1) ((x : Int) + k)).toNat * bands + c) row

/-- The blurred reference row: across, then along the web. [DESIGN CHOICE, log 63] -/
def blurRow (s : State) (b : Nat) (rho : Int) : List Nat :=
  let bands := barBands s b
  let kx := kernelOf s b true
  let rows := (around rho (rngB s b)).map fun p =>
    blurAcross kx bands (((firstWhere (fun e => e.1 == p) (cmpOf s b).refs).bind fun e => e.2).getD [])
  let ky := kernelOf s b false
  (upto (srcWidth s (barSource s b) * bands)).map fun n =>
    blurAt ky fun k => nthD 0 n (nthD [] (k + (rngB s b : Int)).toNat rows)

/-- REF_BLUR blurs the next reference row that the oldest row at its stage needs, or hands the row on.
[DESIGN CHOICE, log 63] -/
def refBlur (b : Nat) : Eff := rd fun s => match rowTurn s b 1 0x19 with
  | none => skip
  | some y =>
    let old := keepFrom s b 3 y.rho (cmpOf s b).blurred
    match if y.reason = 0 then firstWhere (fun p => !(old.any fun e => e.1 == p)) (around y.rho (rngA s b)) else none with
    | none => rowOn b 1 0x19 id
    | some p =>
      let is := cmpInsts s b 0x19
      chain [
        modRow b 1 fun y => { y with tag := stageTag s 0x19 2 b is y.tag },
        clearStageMark is,
        modCmpBar b fun x => { x with blurred := old ++ [(p, blurRow s b p)] }]

/-- REF_BLUR_ROW. -/
def execRefBlurRow (b : Fin 16) (s : State) : Host.Outcome State Fault Refusal := .next (go (refBlur b) s)

/-! ## The shifted reference (R248, R253) -/

/-- The blurred reference at a whole position: row `p`, column `x` limited to the width, band `c`. -/
def blurredAt (rows : List (Int × List Nat)) (w bands : Nat) (p x : Int) (c : Nat) : Nat :=
  match firstWhere (fun e => e.1 == p) rows with
  | some e => nthD 0 ((clampI 0 ((w : Int) - 1) x).toNat * bands + c) e.2
  | none => 0

/-- The shifted blurred reference Rs at column X and reference row ρ (R248). -/
def shiftedAt (rows : List (Int × List Nat)) (w bands : Nat) (sh : Int × Int) (x rho : Int) (c : Nat) : Nat :=
  let u := 256 * x - sh.1
  let v := 256 * rho - sh.2
  let fx := (u % 256).toNat
  let fy := (v % 256).toNat
  let at' := fun (du dv : Int) => blurredAt rows w bands (v / 256 + dv) (u / 256 + du) c
  ((256 - fx) * (256 - fy) * at' 0 0 + fx * (256 - fy) * at' 1 0
    + (256 - fx) * fy * at' 0 1 + fx * fy * at' 1 1 + 32768) / 65536

/-- The reference gradient G_j (R253). -/
def gradAt (rows : List (Int × List Nat)) (w bands : Nat) (sh : Int × Int) (x rho : Int) (c : Nat) : Nat :=
  let at' := fun (dx dr : Int) => ((shiftedAt rows w bands sh (x + dx) (rho + dr) c : Nat) : Int)
  max (at' 1 0 - at' (-1) 0).natAbs (at' 0 1 - at' 0 (-1)).natAbs / 2

/-- The tolerance cell of a pixel (R235, R253). -/
def cellOf (s : State) (i : Nat) (x : Nat) (rho : Int) : Nat :=
  let default' := regWide s (Reg.CMP_RS_DEFCELL_LO i) (Reg.CMP_RS_DEFCELL_HI i)
  match tileOf s i (rho.toNat / tileRows s i) with
  | some t => if t.blank || t.defmap then default' else memNat s (mapRowAt s i rho.toNat + 8 * (x / 2 ^ logCx s i)) 8
  | none => default'

/-! ## Registration (R249 to R252) -/

/-- The candidates of a block: q from -A to A, p from -CX to CX, p fastest. -/
def candidates (cx a : Nat) : List (Int × Int) :=
  (upto (2 * a + 1)).flatMap fun (q : Nat) => (upto (2 * cx + 1)).map fun (p : Nat) => ((p : Int) - cx, (q : Int) - a)

/-- The textured columns of a slice in a row (R249). -/
def textured (s : State) (b k : Nat) (y : CmpRow) (sh : Int × Int) : List Nat :=
  let e := regGet s (Reg.CMP_BAR_EST b)
  let w := srcWidth s (barSource s b)
  if y.tag.flags.testBit fCheck || y.tag.flags.testBit fTrunc then []
  else (upFrom (sliceLo s b k) (sliceHi s b k - sliceLo s b k)).filter fun x =>
    decide (x % max 1 (fld e 7 4) = 0)
      && decide (regFld s (Reg.CMP_BAR_CONF b) 31 16
        ≤ gradAt (cmpOf s b).blurred w (barBands s b) sh x y.rho (fld e 10 8))
      && !(cellOf s (barSource s b) x y.rho).testBit 48

/-- The costs of a row's textured samples added to those of the block. -/
def addCosts (s : State) (b : Nat) (y : CmpRow) (xs : List Nat) (old : List Nat) : List Nat :=
  let w := srcWidth s (barSource s b)
  let band := regFld s (Reg.CMP_BAR_EST b) 10 8
  let rows := (cmpOf s b).blurred
  (candidates (rngCX s b) (rngA s b)).zipIdx.map fun e =>
    nthD 0 e.2 old + sumOf (fun x =>
      (((nthD 0 (x * y.bands + band) y.data : Nat) : Int)
        - ((blurredAt rows w (barBands s b) (y.rho - e.1.2) ((x : Int) - e.1.1) band : Nat) : Int)).natAbs) xs

/-- The place of the first smallest cost: the lowest q, then the lowest p (R249). -/
def smallestAt (l : List Nat) : Nat :=
  match l with
  | [] => 0
  | x :: _ => (l.zipIdx.foldl (fun (m : Nat × Nat) e => if e.1 < m.1 then e else m) (x, 0)).2

/-- The fraction φ from three costs along an axis (R249); 0 at the edge of the range. -/
def costFraction (lo mid hi : Option Nat) : Int :=
  match lo, mid, hi with
  | some a, some c, some z =>
    let den := (a : Int) - 2 * c + z
    if den ≤ 0 then 0 else clampI (-128) 128 (Int.tdiv (((a : Int) - z) * 128) den)
  | _, _, _ => 0

/-- The estimate of a block: EX, EY, the smallest cost, and whether it is valid (R249). -/
def estimate (s : State) (b : Nat) (x : Slice) : Int × Int × Nat × Bool :=
  let cx := rngCX s b
  let a := rngA s b
  let n := 2 * cx + 1
  let best := smallestAt x.costs
  let p := best % n
  let q := best / n
  let at' := fun (dp dq : Int) =>
    let i := (p : Int) + dp
    let j := (q : Int) + dq
    if 0 ≤ i ∧ i < n ∧ 0 ≤ j ∧ j < 2 * a + 1 then some (nthD 0 (j.toNat * n + i.toNat) x.costs) else none
  let c := nthD 0 best x.costs
  (256 * ((p : Int) - cx) + costFraction (at' (-1) 0) (some c) (at' 1 0),
    256 * ((q : Int) - a) + costFraction (at' 0 (-1)) (some c) (at' 0 1), c,
    decide ((regGet s (Reg.CMP_BAR_MINTEX b)).toNat ≤ x.tex)
      && decide (c * 100 * x.costs.length ≤ regFld s (Reg.CMP_BAR_CONF b) 15 8 * sumOf id x.costs))

/-- The registration loop of a bar runs for a slice (R251). -/
def regRuns (s : State) (b : Nat) (x : Slice) : Bool :=
  if cmpExpert s b then regBit s (Reg.CMP_BAR_LOOP b) 31
  else match regFld s (Reg.CMP_BAR_REG b) 1 0 with
    | 0 => false
    | 1 => !x.held
    | _ => true

/-- G of the registration loop (R251). -/
def regGain (s : State) (b : Nat) : Nat :=
  if cmpExpert s b then regFld s (Reg.CMP_BAR_LOOP b) 3 0
  else if regFld s (Reg.CMP_BAR_REG b) 1 0 = 1 then 0
  else
    let r := regFld s (Reg.CMP_BAR_REG b) 15 8
    min 8 (sumOf (fun k => b2n (decide (2 ^ (2 * k + 1) ≤ r * r))) (upto 8))

/-- SOURCE of a slice's events. -/
def sliceSrc (b k : Nat) : Nat := 16 * b + k

/-- One clamp of a shift is counted (R250). -/
def shiftClamp (b k : Nat) (before after : Int) : Eff := chain [
  when (before != after) (cmpCount b 8 1),
  policyClamp 0x0C (sliceSrc b k) before after]

/-- A valid estimate updates the shift of its slice (R250). -/
def shiftUpdate (b k : Nat) (ex ey : Int) : Eff := rd fun s =>
  let x := sliceOf s b k
  let g := regGain s b
  let lim := regGet s (Reg.CMP_BAR_LIM b)
  let rx := x.sx + sar (ex - x.sx) g
  let ry := x.sy + sar (ey - x.sy) g
  let nx := clampI (-(fld lim 15 0 : Int)) (fld lim 15 0) rx
  let ny := clampI (-(fld lim 31 16 : Int)) (fld lim 31 16) ry
  chain [
    modSlice b k fun x => { x with sx := nx, sy := ny },
    shiftClamp b k rx nx,
    shiftClamp b k ry ny,
    cmpCount b 9 1]

/-- The end of a block in a slice (R249 to R252). -/
def blockEnd (b k r : Nat) : Eff := rd fun s =>
  let x := sliceOf s b k
  let e := estimate s b x
  let est := wrapTo 16 e.2.1 * 2 ^ 16 + wrapTo 16 e.1
  let once := !cmpExpert s b && regFld s (Reg.CMP_BAR_REG b) 1 0 == 1
  chain [
    setReg (Reg.CMP_SL_EST b k) (word est),
    setReg (Reg.CMP_SL_COST b k) (word e.2.2.1),
    setReg (Reg.CMP_SL_TEX b k) (word x.tex),
    if e.2.2.2 then chain [
      when (x.st == 3) (raise 0x0C16 (sliceSrc b k) notice r est),
      when (regRuns s b x) (shiftUpdate b k e.1 e.2.1),
      modSlice b k fun x => { x with misses := 0, held := x.held || once, st := if once || regFixed s b then 4 else 2 }]
    else chain [
      modSlice b k fun x => { x with misses := min (x.misses + 1) 0xFFFF },
      when (decide (regFld s (Reg.CMP_BAR_EST b) 3 0 ≤ x.misses + 1) && x.st != 3) (chain [
        modSlice b k fun x => { x with st := 3 },
        raise 0x0C15 (sliceSrc b k) degraded r est])],
    modSlice b k fun x => { x with costs := [], tex := 0, rows := 0 }]

/-- One row of the block of a slice; a row that is not compared has no textured sample (R249). -/
def searchSlice (b k : Nat) (y : CmpRow) : Eff := rd fun s =>
  let x := sliceOf s b k
  let xs := if y.reason = 0 then textured s b k y (nthD (0, 0) k y.shifts) else []
  let old := if x.costs.isEmpty then (candidates (rngCX s b) (rngA s b)).map fun _ => 0 else x.costs
  chain [
    modSlice b k fun x => { x with
      costs := if xs.isEmpty then old else addCosts s b y xs old, tex := x.tex + xs.length, rows := x.rows + 1
      st := if x.st = 0 then 1 else x.st },
    when (decide (max 1 (regFld s (Reg.CMP_BAR_EST b) 31 16) ≤ x.rows + 1)) (blockEnd b k y.r)]

/-- REG_SEARCH takes the oldest row at its stage; rows of a bar that is disabled belong to no block. [DEDUCED, log 62] -/
def regSearch (b : Nat) : Eff := rd fun s => match rowTurn s b 2 0x1A with
  | none => skip
  | some y => chain [
      rowOn b 2 0x1A id,
      when (y.reason != 1) (each (barSlices s b) fun k => searchSlice b k y)]

/-- REG_SEARCH_ROW. -/
def execRegSearchRow (b : Fin 16) (s : State) : Host.Outcome State Fault Refusal := .next (go (regSearch b) s)

/-! ## Difference (R253 to R255) -/

/-- Tolerance of a band from a cell and a gradient (R253). -/
def tolOf (s : State) (b cell g j : Nat) : Nat :=
  let bg := regFld s (Reg.CMP_BAR_TOLG b) (8 * j + 7) (8 * j)
  min (bits cell 15 0 * bg / 16 + bits cell 23 16 * g / 16) 65535

/-- The differences of a pixel, one per band (R254). -/
def diffAt (s : State) (b : Nat) (y : CmpRow) (x : Nat) : List Int :=
  let w := srcWidth s (barSource s b)
  let sh := nthD (0, 0) (sliceAt s b x) y.shifts
  (upto (barBands s b)).map fun j =>
    s16 (((nthD 0 (x * y.bands + j) y.data : Nat) : Int)
      - ((shiftedAt (cmpOf s b).blurred w (barBands s b) sh x y.rho j : Nat) : Int))

/-- A pixel's deviation, if it has one: the largest excess, of the lowest band among equal ones (R254). -/
def deviantAt (s : State) (b : Nat) (y : CmpRow) (x : Nat) (d : List Int) : Option DevPix :=
  let i := barSource s b
  let w := srcWidth s i
  let k := sliceAt s b x
  let sh := nthD (0, 0) k y.shifts
  let cell := cellOf s i x y.rho
  if cell.testBit 48 then none
  else
    let above := (d.zipIdx.map fun e =>
      (e.1.natAbs - tolOf s b cell (gradAt (cmpOf s b).blurred w (barBands s b) sh x y.rho e.2) e.2, e.2)).filter
        fun e => e.1 != 0
    match above with
    | [] => none
    | o :: r =>
      let m := r.foldl (fun m e => if m.1 < e.1 then e else m) o
      some { x := x, excess := m.1, band := m.2, d := d, zone := bits cell 31 24, minArea := bits cell 47 32
             dark := decide (nthD 0 m.2 d < 0), slice := k, held := (sliceOf s b k).st == 3 }

/-- The residuals go to the nozzle engine: the bar asks for it and the structure routes them (R255, R262). -/
def residRouted (s : State) (b : Nat) : Bool :=
  let is := fun n kind => (mget? n s.erg.insts).map (fun i => i.kind == kind) == some true
  regBit s (Reg.CMP_BAR_CTRL b) 29 && s.erg.routes.any fun e => is e.2.dst 0x21
    && ((mget? e.2.src s.erg.insts).map fun i => i.owner == 2 && i.id == b) == some true

/-- The residuals of a row: none in an unchecked row, and in cells with IGNORE or NO_NOZZLE. -/
def residOf (s : State) (b : Nat) (y : CmpRow) (ds : List (List Int)) : List (Option Int) :=
  ds.zipIdx.flatMap fun e =>
    let cell := cellOf s (barSource s b) e.2 y.rho
    e.1.map fun d => if cell.testBit 48 || cell.testBit 49 then none else some d

/-- The shifted blurred reference of a row, per column and band (R272). -/
def shiftedRow (s : State) (b : Nat) (y : CmpRow) : List Nat :=
  let w := srcWidth s (barSource s b)
  (upto w).flatMap fun (x : Nat) => (upto (barBands s b)).map fun (j : Nat) =>
    shiftedAt (cmpOf s b).blurred w (barBands s b) (nthD (0, 0) (sliceAt s b x) y.shifts) x y.rho j

/-- The amounts of every column of a reference row (R272). -/
def amountsRow (s : State) (b : Nat) (rho : Int) : List (List Nat) :=
  let i := barSource s b
  if hasBytes s i rho then
    let bs := memBytes s (refRowAt s i rho.toNat) (srcWidth s i * pixBytes (rfmtOf s i))
    (chunks (pixBytes (rfmtOf s i)) (bs.length + 1) bs).map (amounts s i)
  else (upto (srcWidth s i)).map fun _ => [0, 0, 0, 0, 0, 0, 0, 0]

/-- DIFF_TOL tests the oldest row at its stage; an unchecked row passes with no deviant pixel and no valid residual. -/
def diffTol (b : Nat) : Eff := rd fun s => match rowTurn s b 3 0x1B with
  | none => skip
  | some y =>
    let tag := stageTag s 0x1B 2 b (cmpInsts s b 0x1B) y.tag
    let ds := if y.reason = 0 then (upto (srcWidth s (barSource s b))).map (diffAt s b y) else []
    chain [
      modCmpBar b fun x => { x with passed := some tag },
      when (residRouted s b) (modCmpBar b fun x => { x with resid := x.resid ++ [{
          r := y.r, tag := tag, bands := barBands s b
          d := if y.reason = 0 then residOf s b y ds else []
          rs := if y.reason = 0 then shiftedRow s b y else []
          amts := if y.reason = 0 then amountsRow s b y.rho else [] }] }),
      rowOn b 3 0x1B fun y => { y with dev := ds.zipIdx.filterMap fun e => deviantAt s b y e.2 e.1 }]

/-- DIFF_TOL_ROW. -/
def execDiffTolRow (b : Fin 16) (s : State) : Host.Outcome State Fault Refusal := .next (go (diffTol b) s)

end Sys2Proof.Machine
end

