-- ==== Sys2Proof/Machine/Partner.lean ====
section
/-!
DEFINITION. The partner link (chapter "Partner link protocol"): transmission, credits and liveness, discovery, partner
events, tunnelled register access, stray blocks, and the check-value units (R76 to R125).
-/
namespace Sys2Proof.Machine

/-! ## Transmission -/

/-- A queued TRIGGER whose exposure start has passed: it is not sent (R150). -/
def tooLate (s : State) (f : TxFrame) : Bool :=
  match f.body with
  | .trigger _ _ bs => decide (sint 64 (leAt bs 0 8) ≤ sar (timeNow s) 32)
  | _ => false

/-- A frame may start: exempt, or within the credit its partner has left (R90, R93). -/
def mayStart (s : State) (f : TxFrame) : Bool :=
  exempt f.typ || (decide (frameCost (bodyLen f.body) ≤ available s f.dst f.cls) && !tooLate s f)

/-- The frames of a class of a group that may start, one of each partner. Frames to one partner stay in the order in which
they were queued, but an exempt one waits for no credit (R93, R96). `seen` are partners with such a frame already, `stuck`
those with one that lacks credit. [DESIGN CHOICE, log 135] -/
def heads (s : State) (g c : Nat) : List Nat → List Nat → List TxFrame → List TxFrame
  | _, _, [] => []
  | seen, stuck, f :: fs =>
    if f.group ≠ g ∨ f.cls ≠ c ∨ seen.contains f.dst ∨ tooLate s f then heads s g c seen stuck fs
    else if exempt f.typ || (mayStart s f && !stuck.contains f.dst) then f :: heads s g c (f.dst :: seen) stuck fs
    else heads s g c seen (f.dst :: stuck) fs

/-- The frame of the partner served next in round-robin order: the next higher id after the partner last served in the class
of the group (R88). [DESIGN CHOICE, log 135] -/
def nextServed (last : Nat) (fs : List TxFrame) : Option TxFrame :=
  let best := fun (l : List TxFrame) => l.foldl (fun o f => match o with
    | some b => if f.dst < b.dst then some f else some b
    | none => some f) none
  (best (fs.filter fun f => decide (last < f.dst))).orElse fun _ => best fs

/-- The frame a group starts next: the highest class that has one that may start (R88). -/
def nextFrame (s : State) (g : Nat) : List Nat → Option TxFrame
  | [] => none
  | c :: cs =>
    (nextServed (mget 0 (4 * g + c) s.plk.served) (heads s g c [] [] s.plk.txq)).orElse fun _ => nextFrame s g cs

/-- The classes of which a group may start a frame: while a C2 or C3 frame is open, C0 and C1 (R80, R88). -/
def openClasses (s : State) (g : Nat) : List Nat := if (mget? g s.plk.sending).isSome then [0, 1] else [0, 1, 2, 3]

/-- The next block of the frame that is open on a group goes out; END closes it (R88). -/
def sendBlock (g : Nat) : Eff := rd fun s => match mget? g s.plk.sending with
  | none => skip
  | some [] => modPlk fun k => { k with sending := mdel g k.sending }
  | some (b :: bs) => chain [
      emit (.block g b),
      modPlk fun k => { k with sending := if bs.isEmpty then mdel g k.sending else mput g bs k.sending }]

/-- A block boundary of a group: the next frame starts, or the one that is open goes on (R88, R90). -/
def transmit (n : Nat) : Eff := rd fun s =>
  let g := groupOf s n
  when (groupReady s g) (match nextFrame s g (openClasses s g) with
    | none => sendBlock g
    | some f => chain [
        modPlk fun k => { k with
          txq := dropFirst (· == f) k.txq
          served := mput (4 * g + f.cls) f.dst k.served },
        startFrame f])

/-- FRAME_TRANSMIT. -/
def execFrameTransmit (n : Fin 128) (s : State) : Host.Outcome State Fault Refusal := .next (go (transmit n) s)

/-- Credits were freed that the partner has not been told (R91). -/
def owesCredit (q : Partner) : Bool := q.accounts.any fun a => a.freed != a.told

/-- An entry keeps credit accounts: from ACCEPT on (R90). -/
def keepsAccounts (s : State) (p : Nat) : Bool := (partnerOf s p).st == .accepting || isActive s p

/-- CREDIT is queued for a partner with freed credits, one at a time (R91, R93). -/
def creditSend (p : Nat) : Eff := rd fun s =>
  when (keepsAccounts s p && owesCredit (partnerOf s p)) (sendOnce p 0 0x02 (.bytes []))

/-- CREDIT_SEND. -/
def execCreditSend (p : BitVec 12) (s : State) : Host.Outcome State Fault Refusal := .next (go (creditSend p.toNat) s)

/-- The device's ALIVE once per interval to an ACTIVE partner, one at a time (R93, R96, R97). -/
def aliveSend (p : Nat) : Eff := rd fun s => when (isActive s p) (sendOnce p 0 0x01 .alive)

/-- ALIVE_SEND. -/
def execAliveSend (p : BitVec 12) (s : State) : Host.Outcome State Fault Refusal := .next (go (aliveSend p.toNat) s)

/-! ## Liveness and credits -/

/-- SENT[c] is compared with the charged count of a class; a difference resyncs the account (R94, kind 12). -/
def resync (f : RxFrame) (c : Nat) : Eff := rd fun s =>
  let p := f.src.toNat
  let sent := leAt f.payload (2 * c) 2
  when (hasAccount s f && (account (partnerOf s p) c).charged != sent) (chain [
    modAccount p c fun a => { a with charged := sent, freed := (sent + 2 ^ 16 - a.held % 2 ^ 16) % 2 ^ 16 },
    ptErrCount p 7 0 1,
    raise 0x0613 p notice 12 (rxGroup s f)])

/-- An entry becomes ACTIVE at the first ALIVE (R97, R98); its error counters start again. -/
def becomeActive (p : Nat) : Eff := rd fun s => chain [
  modPartner p fun q => { q with st := .active },
  setReg (Reg.PT_ERR p) 0#32,
  raise 0x0610 p notice (partnerOf s p).uid ((partnerOf s p).role % 16 * 2 ^ 8 + ptLane s p)]

/-- What an accepted ALIVE does (R94, R97). -/
def takeAlive (f : RxFrame) : Eff := chain [
  each [0, 1, 2, 3] (resync f),
  rd fun s => when ((partnerOf s f.src.toNat).st == .accepting) (becomeActive f.src.toNat)]

/-- Three alive intervals without ALIVE (R96, R98). -/
def aliveTimeout (p : Nat) : Eff := rd fun s =>
  when ((partnerOf s p).st == .accepting || (partnerOf s p).st == .active) (loseEntry p 8)

/-- ALIVE_TIMEOUT. [DESIGN CHOICE, log 5] -/
def execAliveTimeout (p : BitVec 12) (s : State) : Host.Outcome State Fault Refusal :=
  .next (go (aliveTimeout p.toNat) s)

/-- CREDIT_RECEIVE. -/
def execCreditReceive (f : RxFrame) (s : State) : Host.Outcome State Fault Refusal :=
  .next (go (receivePlain f 0x02 skip) s)

/-! ## Discovery -/

/-- A probe tick of a group (R97): the LEVEL boundary of PLK, and a PROBE while an entry is in PROBING. -/
def probeTick (n : Nat) : Eff := chain [
  levelBoundary Reg.PLK_CTRL,
  rd fun s =>
    let g := groupOf s n
    when (groupReady s g && regBit s Reg.PLK_CTRL 8 && (entriesOn s g).any fun p => (partnerOf s p).st == .probing)
      (sendProbe g)]

/-- PROBE. -/
def execProbe (n : Fin 128) (s : State) : Host.Outcome State Fault Refusal := .next (go (probeTick n) s)

/-- ASSIGN on a group (R97, R99). [DEDUCED, log 31] -/
def sendAssign (g uid id reason : Nat) : Eff :=
  sendOn g 0xFFF 0 0x05 (.bytes (leBytes 8 uid ++ leBytes 2 id ++ leBytes 2 reason))

/-- DESC_REQ of a page, one at a time (R93, R99). -/
def sendDescReq (p page : Nat) : Eff := sendOnce p 0 0x06 (.bytes (leBytes 15 page))

/-- The UID an entry expects; 0 matches any. -/
def ptUid (s : State) (p : Nat) : Nat := regWide s (Reg.PT_UID_LO p) (Reg.PT_UID_HI p)

/-- An association already holds the UID (R101). -/
def uidHeld (s : State) (uid : Nat) : Bool := s.plk.partners.any fun e =>
  e.2.uid == uid && (match e.2.st with
    | .describing | .accepting | .active => true
    | _ => false)

/-- The entry a HELLO matches: the lowest with its UID, else the lowest with UID 0 (R101). -/
def helloEntry (s : State) (g uid : Nat) : Option Nat :=
  let ps := (entriesOn s g).filter fun p => (partnerOf s p).st == .probing
  (firstWhere (fun p => ptUid s p == uid) ps).orElse fun _ => firstWhere (fun p => ptUid s p == 0) ps

/-- A HELLO is refused: no entry, or a UID already held (R98, R101). [DEDUCED, log 31] -/
def refuseHello (g uid reason : Nat) : Eff := chain [
  sendAssign g uid 0xFFF reason,
  raiseMerge 0x0612 0xFFFF degraded reason uid]

/-- A HELLO is matched and answered (R97, R101). -/
def takeHello (f : RxFrame) : Eff := rd fun s =>
  let g := rxGroup s f
  let uid := leAt f.payload 0 8
  if uidHeld s uid then refuseHello g uid 2
  else match helloEntry s g uid with
    | none => refuseHello g uid 1
    | some p => chain [
        modPartner p fun q => { q with
          st := .describing, uid := uid, role := leAt f.payload 8 1, page := 0, tries := 1
          accounts := [{}, {}, {}, {}] },
        sendAssign g uid p 0,
        sendDescReq p 0]

/-- HELLO_RECEIVE. -/
def execHelloReceive (f : RxFrame) (s : State) : Host.Outcome State Fault Refusal :=
  .next (go (receivePlain f 0x04 (takeHello f)) s)

/-- An entry is refused: BYE, PARTNER_REFUSED and REFUSED (R98, R101). [DEDUCED, log 31] -/
def refuseEntry (p reason : Nat) : Eff := rd fun s => chain [
  sendBye p reason,
  raiseMerge 0x0612 p degraded reason (partnerOf s p).uid,
  modPartner p fun q => { q with st := .refused, reason := reason },
  dropAssociation p]

/-- RX_CREDITS of a descriptor for class `c` (R100). -/
def descGrant (d : List Byte) (c : Nat) : Nat := leAt d (24 + 2 * c) 2

/-- The grants meet R89: C0 and C2 hold a largest frame; C1 is none or one, and one for the roles that receive C1. -/
def grantsOk (d : List Byte) : Bool :=
  decide (9 ≤ descGrant d 0) && decide (9 ≤ descGrant d 2)
    && (decide (33 ≤ descGrant d 1) || (descGrant d 1 == 0 && leAt d 1 1 != 1 && leAt d 1 1 != 2))

/-- A pipeline accepts its camera's descriptor (R156). [DEDUCED, log 37] -/
def cameraFits (s : State) (d : List Byte) (i : Nat) : Bool :=
  let fmt := regGet s (Reg.CAP_FMT i)
  decide (regFld s (Reg.CAP_WIDTH i) 15 0 ≤ leAt d 44 4) && leAt d 48 1 == fld fmt 18 16
    && decide (fld fmt 12 8 ≤ leAt d 49 1) && (leAt d 50 2).testBit (fld fmt 3 0)

/-- The block that owns the role accepts the capabilities: every declared pipeline that names the camera (R101, R156).
[DEDUCED, log 37] -/
def capable (s : State) (p : Nat) (d : List Byte) : Bool :=
  leAt d 1 1 != 1 ||
    ((upto 256).filter fun i => pipeDeclared s i && regFld s (Reg.CAP_CTRL i) 23 12 == p).all (cameraFits s d)

/-- The reason a descriptor is refused, 0 when it is accepted (R101, R102). [DEDUCED, log 37] -/
def descReason (s : State) (p : Nat) (d : List Byte) : Nat :=
  let role := regFld s (Reg.PT_CTRL p) 27 24
  if leAt d 0 1 ≠ 1 then 4
  else if role ≠ 0 ∧ leAt d 1 1 ≠ role then 3
  else if !grantsOk d then 5
  else if !capable s p d then 7
  else 0

/-- ACCEPT: the device's grants and the alive interval; the accounts start at 0 (R90, R97, R99). -/
def acceptEntry (p : Nat) : Eff := rd fun s =>
  let d := (partnerOf s p).desc
  let g := (regGet s (Reg.PT_GRANT01 p)).toNat + (regGet s (Reg.PT_GRANT23 p)).toNat * 2 ^ 32
  chain [
    sendTo p 0 0x08 (.bytes (leBytes 8 g ++ leBytes 8 (regFld s (Reg.PT_ALIVE p) 7 0))),
    modPartner p fun q => { q with
      st := .accepting, grants := [descGrant d 0, descGrant d 1, descGrant d 2, descGrant d 3]
      accounts := [{}, {}, {}, {}] }]

/-- A DESC page awaited is stored; after page 1 the descriptor is checked (R97, R101). -/
def takeDesc (f : RxFrame) : Eff := rd fun s =>
  let p := f.src.toNat
  let q := partnerOf s p
  let page := leAt f.payload 0 1
  when (q.st == .describing && q.page == page) (
    let d := (if page = 0 then [] else q.desc) ++ (f.payload.drop 15).take 64
    chain [
      modPartner p fun q => { q with desc := d, page := page + 1, tries := 1 },
      if page = 0 then sendDescReq p 1
      else rd fun s' =>
        let r := descReason s' p d
        if r = 0 then acceptEntry p else refuseEntry p r])

/-- DESC_RECEIVE. -/
def execDescReceive (f : RxFrame) (s : State) : Host.Outcome State Fault Refusal :=
  .next (go (receivePlain f 0x07 (takeDesc f)) s)

/-- No DESC within 500 us: retried up to three attempts, then refused (R103). -/
def descTimeout (p : Nat) : Eff := rd fun s =>
  let q := partnerOf s p
  when (q.st == .describing) (
    if q.tries < 3 then chain [modPartner p fun q => { q with tries := q.tries + 1 }, sendDescReq p q.page]
    else refuseEntry p 6)

/-- DESC_TIMEOUT. -/
def execDescTimeout (p : BitVec 12) (s : State) : Host.Outcome State Fault Refusal :=
  .next (go (descTimeout p.toNat) s)

/-- BYE from a partner: its entry is LOST with reason 10 (R98, R102). -/
def takeBye (f : RxFrame) : Eff := loseEntry f.src.toNat 10

/-- BYE_RECEIVE. -/
def execByeReceive (f : RxFrame) (s : State) : Host.Outcome State Fault Refusal :=
  .next (go (receivePlain f 0x09 (takeBye f)) s)

/-- The wait of an entry in `st` ends: PROBING or WAITING (R98). -/
def waitEnd (p : Nat) (st : EntrySt) : Eff := rd fun s => when ((partnerOf s p).st == st) (toProbing p)

/-- LOST_INTERVAL_END. -/
def execLostIntervalEnd (p : BitVec 12) (s : State) : Host.Outcome State Fault Refusal :=
  .next (go (waitEnd p.toNat .lost) s)

/-- REFUSED_INTERVAL_END. -/
def execRefusedIntervalEnd (p : BitVec 12) (s : State) : Host.Outcome State Fault Refusal :=
  .next (go (waitEnd p.toNat .refused) s)

/-- KICK by state (R98). -/
def kickEntry (p : Nat) : Eff := rd fun s =>
  let end12 := chain [
    sendBye p 12,
    raise 0x0611 p degraded 12 (partnerOf s p).st.code,
    modPartner p fun q => { q with reason := 12 },
    dropAssociation p,
    toProbing p]
  match (partnerOf s p).st with
  | .active => end12
  | .describing => end12
  | .accepting => end12
  | .refused => toProbing p
  | .unused => skip
  | .waiting => skip
  | .probing => skip
  | .lost => skip

/-- A write of PT_CTRL by software: a KICK takes effect and clears (R98). -/
def ptCtrl (ini : Ini) (p : Nat) (v : Word) : Eff := writeReg ini (Reg.PT_CTRL p) v fun _ new =>
  when (bit new 28) (chain [kickEntry p, putBit (Reg.PT_CTRL p) 28 false])

/-- Entries 0x000 and 0xFFF drop writes (R123). [DEDUCED, log 18] -/
def ptAbsent (p : Nat) : Bool := p == 0 || p == 0xFFF

/-- KICK. -/
def execKick (ini : Ini) (p : BitVec 12) (v : Word) (s : State) : Host.Outcome State Fault Refusal :=
  .next (go (busWrite ini (Reg.PT_CTRL p.toNat) v (when (!ptAbsent p.toNat) (ptCtrl ini p.toNat v))) s)

/-- Every entry of a state waits (PROBE_EN cleared, R98). -/
def holdEntries : Eff := modPlk fun k => { k with partners := k.partners.map fun e =>
  (e.1, match e.2.st with
    | .probing => { e.2 with st := .waiting }
    | .lost => { e.2 with st := .waiting }
    | .refused => { e.2 with st := .waiting }
    | _ => e.2) }

/-- Waiting entries of READY groups are probed at once (PROBE_EN set, R97, R98). -/
def resumeEntries : Eff := rd fun s =>
  each ((upto 128).filter fun g => groupOf s g == g && groupReady s g) fun g => chain [
    each (entriesOn s g) fun p => when ((partnerOf s p).st == .waiting) (toProbing p),
    rd fun s' => when (probes s' g) (sendProbe g)]

/-- A write of PLK_CTRL (R98). -/
def plkCtrl (ini : Ini) (v : Word) : Eff := writeLevel ini Reg.PLK_CTRL v fun old new => chain [
  when (bit old 8 && !bit new 8) holdEntries,
  when (!bit old 8 && bit new 8) resumeEntries]

/-- PROBE_EN_WRITE. -/
def execProbeEnWrite (ini : Ini) (v : Word) (s : State) : Host.Outcome State Fault Refusal :=
  .next (go (busWrite ini Reg.PLK_CTRL v (plkCtrl ini v)) s)

/-! ## Partner events -/

/-- PARTNER_EVENT with the severity the partner sent, 1 to 4, otherwise NOTICE (R125). -/
def takeEvent (f : RxFrame) : Eff :=
  let sev := leAt f.payload 2 1
  raise 0x0619 f.src.toNat (if 1 ≤ sev ∧ sev ≤ 4 then sev else notice) (leAt f.payload 0 2) (leAt f.payload 4 8)

/-- EVENT_RECEIVE. -/
def execEventReceive (f : RxFrame) (s : State) : Host.Outcome State Fault Refusal :=
  .next (go (receivePlain f 0x14 (takeEvent f)) s)

/-! ## Tunnelled register access -/

/-- A slot completes with a result and a number of words (R120). -/
def slotDone (t words result : Nat) : Eff := chain [
  putBit (Reg.PLK_TUN_CTRL t) 31 false,
  setReg (Reg.PLK_TUN_STATUS t) (word (2 ^ 30 + words * 2 ^ 8 + result))]

/-- A request enters a partner's queue, where TAG is set, or waits for room (R121). -/
def tunEnqueue (p : Nat) (r : TunReq) : Eff := rd fun s => modPartner p fun q =>
  if q.queue.length < 32 ∧ q.overflow.isEmpty then
    { q with queue := q.queue ++ [{ r with tag := q.tag, since := s.raw }], tag := (q.tag + 1) % 2 ^ 8 }
  else { q with overflow := q.overflow ++ [r] }

/-- A request reaches PLK: it ends at once when the partner is not ACTIVE (R118). -/
def tunRequest (p : Nat) (r : TunReq) : Eff := rd fun s => if isActive s p then tunEnqueue p r else tunNotActive p r

/-- A host access to the partner window: unimplemented where R338 says, else a request of one word (R119). -/
def windowAccess (p a : Nat) (write : Option Word) : Eff := rd fun s =>
  let off := 0x30000000 + 0x10000 * p + a
  let ones := when write.isNone (emit (.window 2 off allOnes))
  if !takesRequests s then (if s.gw.up then unsupportedMem else skip)
  else if ptAbsent p || !ptValid s p || decide (leAt (partnerOf s p).desc 56 4 ≤ a) then
    chain [ones, unmapped 2 off (write.getD 0#32).toNat]
  else tunRequest p {
    origin := if write.isNone then .winRead off else .winWrite off, write := write.isSome
    addr := a - a % 4, count := 1, data := write.toList, tag := 0, sent := false }

/-- PARTNER_WINDOW_READ. -/
def execPartnerWindowRead (p : BitVec 12) (a : BitVec 16) (s : State) : Host.Outcome State Fault Refusal :=
  .next (go (inOrder (.window p.toNat a.toNat none) (windowAccess p.toNat a.toNat none)) s)

/-- PARTNER_WINDOW_WRITE. -/
def execPartnerWindowWrite (p : BitVec 12) (a : BitVec 16) (v : Word) (s : State) : Host.Outcome State Fault Refusal :=
  .next (go (inOrder (.window p.toNat a.toNat (some v)) (windowAccess p.toNat a.toNat (some v))) s)

/-- GO on a free slot (R120). -/
def slotStart (t : Nat) : Eff := rd fun s =>
  let w := regGet s (Reg.PLK_TUN_CTRL t)
  let n := fld w 22 16
  chain [
    setReg (Reg.PLK_TUN_STATUS t) (word (2 ^ 31)),
    if n = 0 then slotDone t 0 0
    else if 64 < n then chain [
      slotDone t 0 4,
      when (!bit w 30) (each (upto 64) fun k => setReg (Reg.PLK_TUN_DATA t k) allOnes)]
    else tunRequest (fld w 11 0) {
      origin := .slot t, write := bit w 30, addr := (regGet s (Reg.PLK_TUN_ADDR t)).toNat, count := n
      data := if bit w 30 then (upto n).map fun k => regGet s (Reg.PLK_TUN_DATA t k) else [], tag := 0, sent := false }]

/-- A write of PLK_TUN_CTRL: GO starts a free slot; on a busy one it is ignored with TUN_BUSY (R120). -/
def tunCtrl (ini : Ini) (t : Nat) (v : Word) : Eff := writeReg ini (Reg.PLK_TUN_CTRL t) v fun old new =>
  when (bit v 31) (
    if bit old 31 then raise 0x0618 (fld new 11 0) notice t 0
    else slotStart t)

/-- TUNNEL_GO. -/
def execTunnelGo (ini : Ini) (t : Fin 8) (v : Word) (s : State) : Host.Outcome State Fault Refusal :=
  .next (go (busWrite ini (Reg.PLK_TUN_CTRL t) v (tunCtrl ini t v)) s)

/-- A waiting request enters the queue when room frees (R121). -/
def tunAccept (p : Nat) : Eff := rd fun s => modPartner p fun q =>
  match q.overflow with
  | r :: rs => if q.queue.length < 32 then
      { q with
        queue := q.queue ++ [{ r with tag := q.tag, since := s.raw }], overflow := rs, tag := (q.tag + 1) % 2 ^ 8 }
    else q
  | [] => q

/-- The payload of a tunnel request (R116). -/
def tunBytes (r : TunReq) : List Byte :=
  leBytes 1 r.tag ++ leBytes 1 r.count ++ leBytes 1 0 ++ leBytes 4 r.addr ++ leBytes 8 0
    ++ r.data.flatMap fun w => leBytes 4 w.toNat

/-- The oldest accepted request not yet sent goes out while fewer than 16 are unanswered (R117, R121). -/
def tunSend (p : Nat) : Eff := rd fun s =>
  let q := (partnerOf s p).queue
  when (isActive s p && decide ((q.filter fun r => r.sent).length < 16)) (
    match firstWhere (fun r => !r.sent) q with
    | none => skip
    | some r => chain [
        modPartner p fun k => { k with queue := k.queue.map fun x => if x.tag = r.tag then { x with sent := true } else x },
        sendTo p 2 (if r.write then 0x32 else 0x30) (.tunnel r.tag (tunBytes r))])

/-- TUNNEL_SEND. -/
def execTunnelSend (p : BitVec 12) (s : State) : Host.Outcome State Fault Refusal := .next (go (tunSend p.toNat) s)

/-- The request a response answers. -/
def tunOf (s : State) (f : RxFrame) (write : Bool) : Option TunReq :=
  firstWhere (fun r => r.sent && r.write == write && r.tag == leAt f.payload 0 1) (partnerOf s f.src.toNat).queue

/-- A request leaves its partner's queue. -/
def tunLeave (p tag : Nat) : Eff := modPartner p fun q => { q with queue := dropFirst (fun r => r.tag == tag) q.queue }

/-- Word `k` of a read response; a word the response does not hold is free. [DESIGN CHOICE, log 34] -/
def tunWord (f : RxFrame) (k : Nat) (use : Word → Eff) : Eff :=
  if k < leAt f.payload 1 1 then use (word (leAt f.payload (15 + 4 * k) 4)) else withFree 32 use

/-- A request completes with data or success (R118). -/
def tunSuccess (f : RxFrame) (r : TunReq) : Eff :=
  match r.origin with
  | .slot t => chain [
      when (!r.write) (each (upto r.count) fun k => tunWord f k (setReg (Reg.PLK_TUN_DATA t k))),
      slotDone t r.count 0]
  | .winRead off => tunWord f 0 fun w => emit (.window 2 off w)
  | .winWrite _ => skip

/-- A response ends its request: data, or TUN_FAIL with its status (R118). [DESIGN CHOICE, log 34] -/
def takeResponse (f : RxFrame) (write : Bool) : Eff := rd fun s =>
  match tunOf s f write with
  | none => skip
  | some r =>
    let st := leAt f.payload 2 1
    chain [
      tunLeave f.src.toNat r.tag,
      if st = 0 then tunSuccess f r
      else chain [tunEndFail r st, raise 0x0617 f.src.toNat notice r.addr st]]

/-- REG_RD_RESP_RECEIVE. -/
def execRegRdRespReceive (f : RxFrame) (s : State) : Host.Outcome State Fault Refusal :=
  .next (go (receive f 0x31 true (fun s => (tunOf s f false).isSome) false fun _ => takeResponse f false) s)

/-- REG_WR_RESP_RECEIVE. -/
def execRegWrRespReceive (f : RxFrame) (s : State) : Host.Outcome State Fault Refusal :=
  .next (go (receive f 0x33 true (fun s => (tunOf s f true).isSome) false fun _ => takeResponse f true) s)

/-- TUN_TIMEOUT in force, in raw ticks (R123). -/
def tunTicks (s : State) : Nat := 500 * (if atExpert s Reg.PLK_CTRL then regFld s Reg.PLK_TIMING 31 16 else 100)

/-- The oldest accepted request times out, TUN_TIMEOUT after its acceptance (R118, R121). -/
def tunTimeout (p : Nat) : Eff := rd fun s =>
  match (partnerOf s p).queue with
  | [] => skip
  | r :: _ => when (decide (r.since + tunTicks s ≤ s.raw)) (chain [
      tunLeave p r.tag,
      tunEndFail r 5,
      raise 0x0616 p degraded r.addr r.tag])

/-- TUN_TIMEOUT. -/
def execTunTimeout (p : BitVec 12) (s : State) : Host.Outcome State Fault Refusal := .next (go (tunTimeout p.toNat) s)

/-! ## Blocks outside the framing, frames of no use -/

/-- The innermost open frame, if any, is discarded under a kind; the START of a C2 or C3 frame ended the group's corrupt frame
(R81, R122). -/
def failInside (inside : Option (Byte × RxFrame)) (kind : Nat) (none : Eff) : Eff :=
  match inside with
  | some (typ, f) => chain [
      when (decide (2 ≤ f.cls.val)) (rd fun s => closeCorrupt (rxGroup s f)),
      chargeFrame f typ.toNat true, frameErr f kind]
  | .none => none

/-- A corrupt frame is open in a group (R81). -/
def corruptOpen (s : State) (g : Nat) : Bool := s.plk.corrupt.contains g

/-- A stray block, with the innermost frame open at its arrival (R76, R81, R122). Inside a corrupt frame, blocks are
discarded until an END that closes no later frame. -/
def strayBlock (n : Nat) (kind : Stray) (inside : Option (Byte × RxFrame)) : Eff := rd fun s =>
  let g := groupOf s n
  let laneErr := fun k => chain [countSat Reg.PLK_LANE_ERR 1, raise 0x0613 0xFFFF notice k g]
  match kind with
  | .data => when (!corruptOpen s g) (laneErr 2)
  | .endBlock => if corruptOpen s g then closeCorrupt g else laneErr 2
  | .reserved => failInside inside 10 (laneErr 10)
  | .marked => failInside inside 1 skip
  | .markedStart => chain [
      failInside inside 1 skip,
      laneErr 1,
      modPlk fun k => { k with corrupt := if k.corrupt.contains g then k.corrupt else g :: k.corrupt }]

/-- STRAY_BLOCK. [DESIGN CHOICE, log 125] -/
def execStrayBlock (n : Fin 128) (kind : Stray) (inside : Option (Byte × RxFrame)) (s : State) :
    Host.Outcome State Fault Refusal :=
  .next (go (strayBlock n kind inside) s)

/-- UNEXPECTED_FRAME: a frame of an unknown type, a foreign class or the wrong direction (R85). -/
def execUnexpectedFrame (typ : Byte) (f : RxFrame) (s : State) : Host.Outcome State Fault Refusal :=
  .next (go (receivePlain f typ.toNat skip) s)

/-! ## Check-value units -/

/-- GO starts a run of a free unit with the settings it finds; on a busy one it is ignored with CVU_BUSY. A LEN of 0 is done at
once (R12, R124). [DEDUCED, log 50] -/
def cvuCtrl (ini : Ini) (u : Nat) (v : Word) : Eff := writeReg ini (Reg.CVU_U_CTRL u) v fun old new =>
  when (bit v 31) (
    if bit old 31 then raise 0x1312 u notice 0 0
    else rd fun s =>
      if regGet s (Reg.CVU_U_LEN u) = 0#32 then chain [
        setReg (Reg.CVU_U_STATUS u) (word (2 ^ 30)),
        putBit (Reg.CVU_U_CTRL u) 31 false,
        raise 0x1310 u notice (regGet s (Reg.CVU_U_RESULT u)).toNat 0]
      else chain [
        setReg (Reg.CVU_U_STATUS u) (word (2 ^ 31)),
        modPlk fun k => { k with cvuRuns := mput u {
          alg := fld new 9 8, resume := bit new 0, addr := regWide s (Reg.CVU_U_ADDR_LO u) (Reg.CVU_U_ADDR_HI u)
          len := (regGet s (Reg.CVU_U_LEN u)).toNat } k.cvuRuns }])

/-- CVU_GO. -/
def execCvuGo (ini : Ini) (u : Fin 16) (v : Word) (s : State) : Host.Outcome State Fault Refusal :=
  .next (go (busWrite ini (Reg.CVU_U_CTRL u) v (cvuCtrl ini u v)) s)

end Sys2Proof.Machine
end

