-- ==== Sys2Proof/Machine/Lanes.lean ====
section
/-!
DEFINITION. Field lanes (chapter "Field lanes", R59 to R75): octet power, training, links going down, retries, channel
measurement and equaliser adaptation.
-/
namespace Sys2Proof.Machine

/-! ## Groups -/

/-- Change every lane of a group. -/
def modGroup (g : Nat) (f : Lane → Lane) : Eff := rd fun s => each (groupLanes s g) fun n => modLane n f

/-- An octet is forced to OFF: a dense octet below RUN (R74). -/
def octetForced (s : State) (o : Nat) : Bool := decide (o < 14) && (s.ham.st == .watch || s.ham.st == .rest)

/-- The octet of a lane is ACTIVE with its PLL locked (R59, R73). -/
def octetTrains (s : State) (n : Nat) : Bool :=
  (octetOf s (n / 8)).power == 2 && (octetOf s (n / 8)).pll && !octetForced s (n / 8)

/-- ENABLE of the group's first lane is set. -/
def groupEnabled (s : State) (g : Nat) : Bool := regBit s (Reg.LNE_LN_CTRL g) 0

/-- An attempt starts in SIGNAL at a rate, and is counted (R63, R64). -/
def startAttempt (g rate : Nat) : Eff := rd fun s => each (groupLanes s g) fun n => modLane n fun l => { l with
  st := .signal, rate := rate, bond := groupBond s g
  train := min (l.train + 1) 255, attempts := l.attempts + 1, uncorr := 0 }

/-- Training starts from RATE_MAX: LNE_LN_CHAN is cleared, the transmit taps of LNE_LN_TXEQ apply, and RETRAIN clears when
SIGNAL starts (R64, R65, R71). A register write may have put taps there that a record could not. [DEDUCED, log 29]
[DESIGN CHOICE, log 133] -/
def startTraining (g : Nat) : Eff := chain [
  rd fun s => each (groupLanes s g) fun n => modLane n fun l => { l with
    attempts := 0, chan := 0#32, txeq := regGet s (Reg.LNE_LN_TXEQ n) },
  putBit (Reg.LNE_LN_CTRL g) 1 false,
  rd fun s => startAttempt g (regFld s (Reg.LNE_LN_CTRL g) 9 8)]

/-- An enabled group of an octet that can train leaves GATED. -/
def trainIfAble (g : Nat) : Eff := rd fun s => when (groupEnabled s g && octetTrains s g) (startTraining g)

/-- The group rests in BACKOFF; with AUTO_RETRAIN the first retry starts at once (R65). -/
def toBackoff (g : Nat) : Eff := chain [
  modGroup g fun l => { l with st := .backoff },
  rd fun s => when (regBit s Reg.LNE_CTRL 8 && (laneOf s g).retry == 0 && octetTrains s g && groupEnabled s g) (chain [
    modGroup g fun l => { l with retry := 1 },
    startTraining g])]

/-- An up group goes down: LINK_DOWN with its reason, and its partners follow (R65, R68, R96). A measurement that ran is not
done, and its MEAS_GO waits for READY again (R69). [DEDUCED, log 131] -/
def upGroupDown (g reason : Nat) (next : LaneSt) : Eff := rd fun s => chain [
  modGroup g fun l => { l with st := next, uncorr := 0, measRun := false, measPend := l.measPend || l.measRun },
  raise 0x0511 g degraded reason (laneOf s g).st.code,
  linkDown g]

/-- A group leaves whatever it does for GATED: an up group goes down with reason SOFTWARE or PLL loss, a training one
abandons its attempt (R73). -/
def gateGroup (g reason : Nat) : Eff := rd fun s =>
  if (laneOf s g).st == .ready then upGroupDown g reason .gated
  else modGroup g fun l => { l with st := .gated, uncorr := 0 }

/-- The first lanes of the groups of an octet. -/
def octetGroups (s : State) (o : Nat) : List Nat := (upFrom (8 * o) 8).filter fun n => groupOf s n == n

/-- An attempt fails in its phase (R64): RATE_FALLBACK and QUIET, or after 7.0 Gb/s TRAIN_FAIL and BACKOFF. -/
def failAttempt (g : Nat) : Eff := rd fun s =>
  let l := laneOf s g
  if l.rate < 3 then chain [
    modGroup g fun l => { l with st := .quiet },
    raise 0x0512 g degraded l.rate l.st.code]
  else chain [
    raise 0x0513 g faultSev l.attempts l.st.code,
    toBackoff g]

/-- The lane is in a training phase. -/
def inPhase : LaneSt → Bool
  | .signal | .adapt | .align | .measure => true
  | _ => false

/-! ## Register writes -/

/-- A write of LNE_OCT_CTRL: POWER moves the octet; leaving ACTIVE takes its groups down (R73). -/
def octetPower (ini : Ini) (o : Nat) (v : Word) : Eff := writeReg ini (Reg.LNE_OCT_CTRL o) v fun _ new => rd fun s =>
  let p := if octetForced s o then 0 else fld new 1 0
  let c := octetOf s o
  chain [
    when (c.power == 2 && p != 2) (each (octetGroups s o) fun g => gateGroup g 3),
    modLne fun l => { l with octets := mput o { c with power := p, pll := c.pll && p != 0 } l.octets },
    when (p == 2 && c.power != 2) (each (octetGroups s o) trainIfAble)]

/-- A write of LNE_LN_CTRL (R69, R73). On the first lane of a group: clearing ENABLE gates the group and wins over
RETRAIN; setting ENABLE trains it; RETRAIN takes it down and starts again. MEAS_GO waits for READY or merges. -/
def laneCtrl (ini : Ini) (n : Nat) (v : Word) : Eff := rd fun s0 =>
  let first := groupOf s0 n == n
  writeReg ini (Reg.LNE_LN_CTRL n) v fun old new => rd fun s =>
    chain [
      when first (
        if bit old 0 && !bit new 0 then gateGroup n 3
        else if !bit old 0 && bit new 0 then trainIfAble n
        else when (bit v 1 && bit new 0 && (laneOf s n).st != .gated) (chain [
          when ((laneOf s n).st == .ready) (upGroupDown n 3 .backoff),
          trainIfAble n])),
      when (bit v 2) (rd fun s' =>
        if (laneOf s' n).st == .ready then modLane n fun l => { l with measRun := true }
        else modLane n fun l => { l with measPend := true })]

/-- A write of LNE_CTRL: setting AUTO_RETRAIN starts the retry sequence of every group in BACKOFF (R65). -/
def laneGlobal (ini : Ini) (v : Word) : Eff := writeLevel ini Reg.LNE_CTRL v fun old new =>
  when (!bit old 8 && bit new 8) (rd fun s =>
    each ((upto 128).filter fun n => groupOf s n == n && (laneOf s n).st == .backoff) fun g => chain [
      modGroup g fun l => { l with retry := 0 },
      toBackoff g])

/-! ## Views -/

/-- LNE_LN_STATUS of a lane. -/
def laneStatus (l : Lane) : Word :=
  word (l.st.code * 2 ^ 28 + l.rate * 2 ^ 26 + l.bond * 2 ^ 24 + l.margin * 2 ^ 16 + l.train * 2 ^ 8
    + b2n (l.st == .ready))

/-- LNE_OCT_STATUS of an octet. -/
def octetStatus (c : Octet) : Word := word (b2n c.refclk * 8 + b2n c.pll * 4 + c.power)

/-- LNE_STATUS: LANES_UP and OCT_ACTIVE counted over the lanes and octets. -/
def lneStatus (s : State) : Word :=
  word (b2n (atExpert s Reg.LNE_CTRL) * 2 ^ 24
    + ((s.lne.lanes.filter fun e => e.2.st == .ready).length) * 2 ^ 16
    + sumOf (fun e => if e.2.power = 2 then 2 ^ e.1 else 0) s.lne.octets)

/-- The words of LNE that are views of its state. -/
def lneView (s : State) (off : Nat) : Option Word :=
  if off = Reg.LNE_STATUS then some (lneStatus s)
  else if Reg.LNE_LN_CTRL 0 ≤ off then
    let n := (off - Reg.LNE_LN_CTRL 0) / 0x40
    let l := laneOf s n
    match off % 0x40 with
    | 0x00 => some (setFld (regGet s off) 2 2 (b2n (l.measPend || l.measRun)))
    | 0x04 => some (laneStatus l)
    | 0x08 => some l.chan
    | 0x14 => if atExpert s Reg.LNE_CTRL then none else some l.eq
    | _ => none
  else if Reg.LNE_OCT_CTRL 0 ≤ off ∧ off % 0x20 = 4 then
    some (octetStatus (octetOf s ((off - Reg.LNE_OCT_CTRL 0) / 0x20)))
  else none

/-! ## Commands -/

/-- OCTET_POWER_WRITE. -/
def execOctetPowerWrite (ini : Ini) (o : Fin 16) (v : Word) (s : State) : Host.Outcome State Fault Refusal :=
  .next (go (busWrite ini (Reg.LNE_OCT_CTRL o) v (octetPower ini o v)) s)

/-- LANE_ENABLE_WRITE. -/
def execLaneEnableWrite (ini : Ini) (n : Fin 128) (v : Word) (s : State) : Host.Outcome State Fault Refusal :=
  .next (go (busWrite ini (Reg.LNE_LN_CTRL n) v (laneCtrl ini n v)) s)

/-- LANE_RETRAIN. -/
def execLaneRetrain (ini : Ini) (n : Fin 128) (v : Word) (s : State) : Host.Outcome State Fault Refusal :=
  .next (go (busWrite ini (Reg.LNE_LN_CTRL n) v (laneCtrl ini n v)) s)

/-- AUTO_RETRAIN_WRITE. -/
def execAutoRetrainWrite (ini : Ini) (v : Word) (s : State) : Host.Outcome State Fault Refusal :=
  .next (go (busWrite ini Reg.LNE_CTRL v (laneGlobal ini v)) s)

/-- A group in phase `p` moves to phase `q`. -/
def phaseStep (n : Nat) (p q : LaneSt) : Eff := rd fun s =>
  let g := groupOf s n
  when ((laneOf s g).st == p) (modGroup g fun l => { l with st := q })

/-- SIGNAL_DETECTED (R63). -/
def execSignalDetected (n : Fin 128) (s : State) : Host.Outcome State Fault Refusal :=
  .next (go (phaseStep n .signal .adapt) s)

/-- ADAPT_DONE (R63). -/
def execAdaptDone (n : Fin 128) (s : State) : Host.Outcome State Fault Refusal :=
  .next (go (phaseStep n .adapt .align) s)

/-- The end of ALIGN with the group's skew in 1/16 codeword: beyond 8 codewords it is SKEW_FAIL (R67). -/
def alignDone (n skew latest : Nat) : Eff := rd fun s =>
  let g := groupOf s n
  when ((laneOf s g).st == .align) (
    if 1 < groupWidth s g ∧ 128 < skew then chain [
      raise 0x0514 g degraded (min skew 0xFFFF) latest,
      failAttempt g]
    else modGroup g fun l => { l with st := .measure })

/-- ALIGN_DONE. -/
def execAlignDone (n : Fin 128) (skew : BitVec 32) (latest : Fin 128) (s : State) : Host.Outcome State Fault Refusal :=
  .next (go (alignDone n skew.toNat latest) s)

/-- LEN_CM from IL in 0.1 dB and the cable type: (IL - 2.0 dB) / loss per cm, to the nearest cm; none for a type whose
length is not estimated (R69, R70). A code that a record could not give, but a register write did, is read by the same
table. [DEDUCED, log 29] [DESIGN CHOICE, log 133] -/
def cableLength (cable il : Nat) : Option Nat :=
  match cable with
  | 1 => some (((il - 20) * 100 + 17) / 34)
  | 2 => some (((il - 20) * 100 + 26) / 52)
  | 3 => some (((il - 20) * 10 + 21) / 42)
  | _ => none

/-- LNE_LN_CHAN from a measurement with an estimated length, or without one. -/
def chanWord (len : Option Nat) (il : Nat) : Word :=
  match len with
  | some n => word (2 ^ 31 + 2 ^ 30 + n * 2 ^ 16 + il)
  | none => word (2 ^ 31 + il)

/-- A measurement's three results are written together (R69). The spec states no length for a loss below 2.0 dB, nor one
beyond LEN_CM's bits: it is free then. [DEDUCED, log 29] -/
def putMeasure (n il margin : Nat) : Eff := rd fun s =>
  let put := fun (len : Option Nat) => modLane n fun l => { l with chan := chanWord len il, margin := margin }
  match cableLength (regFld s (Reg.LNE_LN_CTRL n) 19 16) il with
  | none => put none
  | some len => if il < 20 ∨ 4095 < len then withFree 12 fun v => put (some v.toNat) else put (some len)

/-- MARGIN_MIN of 0 accepts any margin (LNE_MARGIN). -/
def marginOk (s : State) (m : Nat) : Bool := decide (regFld s Reg.LNE_MARGIN 7 0 ≤ m)

/-- A margin of an up lane below WARN raises MARGIN_LOW; WARN 0 disables it (LNE_MARGIN). -/
def marginLow (g margin : Nat) : Eff := rd fun s =>
  when (decide (margin < regFld s Reg.LNE_MARGIN 15 8))
    (raise 0x0515 g degraded margin (regFld s Reg.LNE_MARGIN 15 8))

/-- The end of MEASURE with the results of the group's lanes in order: READY and LINK_UP, or a failed attempt
(R63, R64, R69). A margin below WARN of the lanes now up raises MARGIN_LOW; MEAS_DONE reports only what a MEAS_GO asked for.
[DESIGN CHOICE, log 30] -/
def measureDone (n : Nat) (ils margins : List Nat) : Eff := rd fun s =>
  let g := groupOf s n
  when ((laneOf s g).st == .measure) (chain [
    each ((upto (groupWidth s g))) fun k => putMeasure (g + k) (nthD 0 k ils) (nthD 0 k margins),
    if (upto (groupWidth s g)).all (fun k => marginOk s (nthD 0 k margins)) then chain [
      modGroup g fun l => { l with st := .ready, retry := 0, measRun := l.measRun || l.measPend, measPend := false },
      rd fun s' =>
        let l := laneOf s' g
        raise 0x0510 g notice (l.rate + l.bond * 2 ^ 8) l.chan.toNat,
      each (upto (groupWidth s g)) fun k => marginLow g (nthD 0 k margins),
      linkUp g]
    else failAttempt g])

/-- MEASURE_DONE. -/
def execMeasureDone (n : Fin 128) (il : List (BitVec 12)) (margin : List (BitVec 8)) (s : State) :
    Host.Outcome State Fault Refusal :=
  .next (go (measureDone n (il.map BitVec.toNat) (margin.map BitVec.toNat)) s)

/-- A training phase runs out of its limit (R64). -/
def phaseTimeout (n : Nat) : Eff := rd fun s =>
  let g := groupOf s n
  when (inPhase (laneOf s g).st) (failAttempt g)

/-- PHASE_TIMEOUT. -/
def execPhaseTimeout (n : Fin 128) (s : State) : Host.Outcome State Fault Refusal :=
  .next (go (phaseTimeout n) s)

/-- The received signal is absent for 500 us in a phase after SIGNAL (R64). -/
def signalAbsent (n : Nat) : Eff := rd fun s =>
  let g := groupOf s n
  when (inPhase (laneOf s g).st && (laneOf s g).st != .signal) (failAttempt g)

/-- TRAIN_SIGNAL_ABSENT. -/
def execTrainSignalAbsent (n : Fin 128) (s : State) : Host.Outcome State Fault Refusal :=
  .next (go (signalAbsent n) s)

/-- The next attempt starts at the next higher rate code that RATE_MAX, which applies from the next attempt, permits (R64). -/
def quietEnd (n : Nat) : Eff := rd fun s =>
  let g := groupOf s n
  when ((laneOf s g).st == .quiet)
    (startAttempt g (max ((laneOf s g).rate + 1) (regFld s (Reg.LNE_LN_CTRL g) 9 8)))

/-- QUIET_END. -/
def execQuietEnd (n : Fin 128) (s : State) : Host.Outcome State Fault Refusal :=
  .next (go (quietEnd n) s)

/-- A retry wait ends (R65). -/
def retryTimer (n : Nat) : Eff := rd fun s =>
  let g := groupOf s n
  when ((laneOf s g).st == .backoff && regBit s Reg.LNE_CTRL 8 && groupEnabled s g && octetTrains s g) (chain [
    modGroup g fun l => { l with retry := l.retry + 1 },
    startTraining g])

/-- RETRY_TIMER. -/
def execRetryTimer (n : Fin 128) (s : State) : Host.Outcome State Fault Refusal :=
  .next (go (retryTimer n) s)

/-- An up group loses its link for a reason and goes to BACKOFF or retrains (R65). -/
def linkLost (n reason : Nat) : Eff := rd fun s =>
  let g := groupOf s n
  when ((laneOf s g).st == .ready) (chain [upGroupDown g reason .backoff, toBackoff g])

/-- LANE_SIGNAL_LOSS. -/
def execLaneSignalLoss (n : Fin 128) (s : State) : Host.Outcome State Fault Refusal :=
  .next (go (linkLost n 1) s)

/-- A marker block that counts an uncorrectable codeword: a reserved bit is not 0, or WIDTH is not the group's (R62). -/
def markerBad (s : State) (g : Nat) (m : BitVec 257) : Bool :=
  bits m.toNat 16 13 != 0 || bits m.toNat 256 33 != 0 || bits m.toNat 12 11 != groupBond s g

/-- A marker block of the device on the lane at position `idx` of a group of width code `bond` (R62). -/
def markerBlock (idx bond cnt : Nat) : BitVec 257 :=
  BitVec.ofNat 257 (0xA5 * 2 + idx % 4 * 2 ^ 9 + bond % 4 * 2 ^ 11 + cnt % 2 ^ 16 * 2 ^ 17)

/-- An uncorrectable codeword on a lane (R65, R66): counted and raised, and its blocks reach the partner link with an error
mark, each with how it reads and the innermost frame it finds open. `again` says that the codeword before it was
uncorrectable too. -/
def uncorrCodeword (n : Nat) (again : Bool) (blocks : List (Bool × Option (Byte × RxFrame))) : Eff := rd fun s => chain [
  countSat (Reg.LNE_LN_FEC_UNCORR n) 1,
  rd fun s' => raiseMerge 0x0516 (groupOf s n) notice n (regGet s' (Reg.LNE_LN_FEC_UNCORR n)).toNat,
  each (blocks.take 20) fun b => strayBlock n (if b.1 then .markedStart else .marked) b.2,
  modLane n fun l => { l with uncorr := if again then l.uncorr + 1 else 1 },
  rd fun s' => when (decide (4 ≤ (laneOf s' n).uncorr)) (linkLost n 2)]

/-- The device finds a codeword uncorrectable: by its code, or by the marker it holds (R62, R66). -/
def codewordIn (n : Nat) (c : Codeword) : Eff := rd fun s => match c.marker with
  | none => uncorrCodeword n c.again c.blocks
  | some m => when (markerBad s (groupOf s n) m) (uncorrCodeword n c.again c.blocks)

/-- UNCORR_CODEWORD. [DESIGN CHOICE, log 125] -/
def execUncorrCodeword (n : Fin 128) (again : Codeword) (s : State) : Host.Outcome State Fault Refusal :=
  .next (go (codewordIn n again) s)

/-- The octet PLL loses lock, with or without its reference clock: its up groups go down to BACKOFF (R65). A group in
training is taken there too, without an event; the spec does not say what becomes of it. [DESIGN CHOICE, log 132] -/
def pllLoss (o : Nat) (refclk : Bool) : Eff := rd fun s => chain [
  modLne fun l => { l with octets := mput o { octetOf s o with pll := false, refclk := refclk } l.octets },
  each (octetGroups s o) fun g =>
    if (laneOf s g).st == .ready then chain [upGroupDown g 4 .backoff, toBackoff g]
    else when ((laneOf s g).st != .gated) (modGroup g fun l => { l with st := .backoff, uncorr := 0 })]

/-- OCTET_PLL_LOSS. -/
def execOctetPllLoss (o : Fin 16) (refclk : Bool) (s : State) : Host.Outcome State Fault Refusal :=
  .next (go (pllLoss o refclk) s)

/-- The octet PLL locks: enabled groups of an ACTIVE octet leave GATED (R59, R73), and a group in BACKOFF takes up a RETRAIN
or a first retry that waited for the lock (R65). [DESIGN CHOICE, log 132] -/
def pllLock (o : Nat) : Eff := rd fun s =>
  when ((octetOf s o).power != 0) (chain [
    modLne fun l => { l with octets := mput o { octetOf s o with pll := true, refclk := true } l.octets },
    each (octetGroups s o) fun g =>
      if (laneOf s g).st == .gated then trainIfAble g
      else when ((laneOf s g).st == .backoff)
        (if regBit s (Reg.LNE_LN_CTRL g) 1 then trainIfAble g else toBackoff g)])

/-- OCTET_PLL_LOCK. -/
def execOctetPllLock (o : Fin 16) (s : State) : Host.Outcome State Fault Refusal :=
  .next (go (pllLock o) s)

/-- MEAS_GO. -/
def execMeasGo (ini : Ini) (n : Fin 128) (v : Word) (s : State) : Host.Outcome State Fault Refusal :=
  .next (go (busWrite ini (Reg.LNE_LN_CTRL n) v (laneCtrl ini n v)) s)

/-- A measurement of an up lane completes (R69); a margin below WARN raises MARGIN_LOW, WARN 0 disables it.
[DESIGN CHOICE, log 30] -/
def measDone (n il margin : Nat) : Eff := rd fun s =>
  when ((laneOf s n).measRun) (chain [
    putMeasure n il margin,
    modLane n fun l => { l with measRun := false },
    putBit (Reg.LNE_LN_CTRL n) 2 false,
    rd fun s' => raise 0x0517 (groupOf s n) notice (laneOf s' n).chan.toNat margin,
    marginLow (groupOf s n) margin])

/-- MEAS_DONE. -/
def execMeasDone (n : Fin 128) (il : BitVec 12) (margin : BitVec 8) (s : State) : Host.Outcome State Fault Refusal :=
  .next (go (measDone n il.toNat margin.toNat) s)

/-- An equaliser quantity of `bits` bits around its centre: within EQ_SPAN steps at the expert level (R72).
[DESIGN CHOICE, log 30] -/
def eqClamp (span : Nat) (centre v : Int) : Int := clampI (centre - span) (centre + span) v

/-- One adaptation step of a lane: the loop's results, clamped about the written centres at the expert level, take
effect together with the LEVEL boundary; the corrected symbols of the last step are counted (R20, R21, R72).
[DESIGN CHOICE, log 30] -/
def eqStep (n ctle pre dfe corrected : Nat) : Eff := chain [
  levelBoundary Reg.LNE_CTRL,
  countSat (Reg.LNE_LN_FEC_CORR n) corrected,
  rd fun s =>
    let w := regGet s (Reg.LNE_LN_EQ n)
    let g := groupOf s n
    when ((laneOf s n).st == .ready) (
      if atExpert s Reg.LNE_CTRL then
        let span := fld w 31 24
        let c := eqClamp span (fld w 4 0) ctle
        let p := eqClamp span (sint 8 (fld w 15 8)) (sint 8 pre)
        let d := eqClamp span (sint 8 (fld w 23 16)) (sint 8 dfe)
        chain [
          policyClamp 0x05 g ctle c, policyClamp 0x05 g (sint 8 pre) p, policyClamp 0x05 g (sint 8 dfe) d,
          modLane n fun l => { l with eq := word (span * 2 ^ 24 + wrapTo 8 d * 2 ^ 16 + wrapTo 8 p * 2 ^ 8 + wrapTo 5 c) }]
      else modLane n fun l => { l with eq := word (fld w 31 24 * 2 ^ 24 + dfe * 2 ^ 16 + pre * 2 ^ 8 + ctle) })]

/-- EQ_ADAPT_STEP. -/
def execEqAdaptStep (n : Fin 128) (ctle : BitVec 5) (pre : BitVec 8) (dfe : BitVec 8) (corrected : BitVec 32)
    (s : State) : Host.Outcome State Fault Refusal :=
  .next (go (eqStep n ctle.toNat pre.toNat dfe.toNat corrected.toNat) s)

/-- A lane may wake: it is named in HAM_WAKE_MISC.LANES or is the lane of a VALID entry with WAKE_EN (R426). -/
def laneWakes (s : State) (n : Nat) : Bool :=
  (decide (112 ≤ n) && regBit s Reg.HAM_WAKE_MISC (16 + (n - 112)))
    || (s.plk.partners.any fun e => ptValid s e.1 && ptLane s e.1 == n && regBit s (Reg.PT_CTRL e.1) 29)

/-- PRBS13 for 100 us on a gated lean lane (R74, R426). -/
def leanWake (n : Nat) : Eff := rd fun s =>
  when (decide (112 ≤ n) && (laneOf s n).st == .gated && laneWakes s n) (wake 6)

/-- LEAN_LANE_WAKE. -/
def execLeanLaneWake (n : Fin 128) (s : State) : Host.Outcome State Fault Refusal :=
  .next (go (leanWake n) s)

end Sys2Proof.Machine
end

