-- ==== Sys2Proof/Machine/Cluster.lean ====
section
/-!
DEFINITION. The comparator's clusters, runs of unchecked rows, records and crops (R257 to R261), and its registers as
views.
-/
namespace Sys2Proof.Machine

/-! ## Records and where they go (R259, R260) -/

/-- A packet of evidence joins its producer: in its buffer, in the reserve when the buffer is full, or lost (R305, R306). -/
def evidencePacket (k : Nat) (room : Bool) (p : Packet) : Eff := rd fun s =>
  let x := producerOf s k
  if room && x.spill.isEmpty && !x.discarding then bufferPacket k p
  else if canSpill s k p && !x.discarding then spillPacket k p
  else startDiscard k 1

/-- A record of a bar: its first 60 bytes but for BAR and ID. -/
structure CmpRec where
  type : Nat
  flags : Nat := 0
  zone : Nat := 0
  time : Nat
  first : Nat
  rows : Nat
  xFirst : Nat := 0
  cols : Nat
  area : Nat := 0
  /-- Bytes 40 to 57. -/
  rest : List Byte
  /-- WEB_UM of its first row, where the journal needs it (R327). -/
  web : Nat := 0
  deriving DecidableEq, Repr

/-- The 64 bytes of a record (R259). -/
def cmpRecBytes (b id : Nat) (x : CmpRec) : List Byte :=
  let body := leBytes 1 x.type ++ leBytes 1 x.flags ++ leBytes 1 b ++ leBytes 1 x.zone ++ leBytes 4 id ++ leBytes 8 x.time
    ++ leBytes 8 x.first ++ leBytes 4 x.rows ++ leBytes 4 x.xFirst ++ leBytes 4 x.cols ++ leBytes 4 x.area
    ++ x.rest ++ leBytes 2 0
  body ++ leBytes 4 (crc32c body)

/-- The bar writes a record to its result queue, and to the journal mapper when JRN = 1 (R260). -/
def putRec (b : Nat) (room : Bool) (x : CmpRec) : Eff := rd fun s =>
  let bytes := cmpRecBytes b (regGet s (Reg.CMP_BAR_REC_ID b)).toNat x
  let p : Packet := { kind := 2, source := b, payload := bytes, time := x.time, lostAt := (x.first, x.web) }
  chain [
    countUp (Reg.CMP_BAR_REC_ID b) 1,
    evidencePacket (0x1000 + b) room p,
    when (regBit s (Reg.CMP_BAR_CTRL b) 28) (evidencePacket (0x1100 + b) room p)]

/-- WIDTH of a bar's source. -/
def barWidth (s : State) (b : Nat) : Nat := srcWidth s (barSource s b)

/-! ## Runs of unchecked rows (R257) -/

/-- The run in progress is written; a run of rows outside the job leaves no record. -/
def writeRun (b : Nat) (room : Bool) : Eff := rd fun s => match (cmpOf s b).run with
  | none => skip
  | some u => when (u.reason != 2) (chain [
      putRec b room {
        type := 2, flags := 16 * b2n u.cont, zone := u.reason, time := u.time, first := u.first, rows := u.rows
        cols := barWidth s b, rest := leBytes 18 0, web := u.web },
      raise 0x0C11 b notice u.first (u.rows * 2 ^ 32 + u.reason)])

/-- The run of a row: it goes on, or ends and another starts. -/
def runRow (b : Nat) (room : Bool) (y : CmpRow) : Eff := rd fun s =>
  let new : UncRun := { reason := y.reason, first := y.r, rows := 1, time := y.tag.time, flags := y.tag.flags, cont := false
                        web := y.tag.web }
  match (cmpOf s b).run with
  | some u =>
    if u.reason = y.reason then modCmpBar b fun x => { x with
      run := some (if u.rows = 0 then { new with cont := u.cont } else { u with rows := u.rows + 1 }) }
    else chain [
      when (u.rows != 0) (writeRun b room),
      modCmpBar b fun x => { x with run := if y.reason = 0 then none else some new }]
  | none => when (y.reason != 0) (modCmpBar b fun x => { x with run := some new })

/-- At the close of a frame the run in progress is written; it goes on with CONT if its next row has the same reason. -/
def runClose (b : Nat) (room : Bool) : Eff := rd fun s => match (cmpOf s b).run with
  | none => skip
  | some u => chain [
      when (u.rows != 0) (writeRun b room),
      modCmpBar b fun x => { x with run := some { u with rows := 0, cont := true } }]

/-! ## Clusters (R258) -/

/-- The deviant pixels of a row cut into runs separated by more than J other columns. -/
def pixRuns (j : Nat) : List DevPix → List (List DevPix)
  | [] => []
  | p :: r =>
    match pixRuns j r with
    | (q :: g) :: gs => if q.x ≤ p.x + j + 1 then (p :: q :: g) :: gs else [p] :: (q :: g) :: gs
    | gs => [p] :: gs

/-- Two column ranges overlap once the second is widened by J on each side. -/
def rangeMeets (j lo hi lo2 hi2 : Nat) : Bool := decide (lo ≤ hi2 + j ∧ lo2 ≤ hi + j)

/-- Sum of two lists of per-band sums. -/
def addSums (l m : List Int) : List Int := l.zipIdx.map fun e => e.1 + nthD 0 e.2 m

/-- The first pixel with the largest excess. [DEDUCED, log 66] -/
def peakOf (p : DevPix) (l : List DevPix) : DevPix := l.foldl (fun m q => if m.excess < q.excess then q else m) p

/-- A run as a cluster of its own. -/
def runCluster (y : CmpRow) (p : DevPix) (l : List DevPix) (cont : Bool) : Cluster := {
  rowFirst := y.r, rowLast := y.r, xFirst := p.x, xLast := l.foldl (fun m q => max m q.x) p.x
  time := y.tag.time, area := l.length + 1, peak := peakOf p l, peakRow := y.r
  sums := l.foldl (fun a q => addSums a q.d) p.d
  dark := p.dark || l.any fun q => q.dark, light := !p.dark || l.any fun q => !q.dark
  held := p.held || l.any fun q => q.held, flags := y.tag.flags, cont := cont, shifts := y.shifts }

/-- The cluster of two that keeps its place: the lower ROW_FIRST, then the lower X_FIRST. -/
def beforeCluster (x y : Cluster) : Bool := decide (x.rowFirst < y.rowFirst ∨ x.rowFirst = y.rowFirst ∧ x.xFirst ≤ y.xFirst)

/-- Two clusters as one; `x` keeps its place. [DEDUCED, log 66] -/
def mergeCluster (x y : Cluster) : Cluster := { x with
  rowLast := max x.rowLast y.rowLast, xFirst := min x.xFirst y.xFirst, xLast := max x.xLast y.xLast
  area := x.area + y.area
  peak := if x.peak.excess < y.peak.excess then y.peak else x.peak
  peakRow := if x.peak.excess < y.peak.excess then y.peakRow else x.peakRow
  sums := addSums x.sums y.sums, dark := x.dark || y.dark, light := x.light || y.light, held := x.held || y.held
  flags := x.flags ||| (if x.age = 0 then 0 else x.later) ||| y.flags, cont := x.cont || y.cont
  age := min x.age y.age, later := 0 }

/-- Clusters merged into one, in the place of the first by R258. -/
def mergeAll : List Cluster → Option Cluster
  | [] => none
  | x :: r => some (r.foldl (fun m y => if beforeCluster m y then mergeCluster m y else mergeCluster y m) x)

/-- One run of a row joins clusters, opens one, or is counted as not clustered. [DEDUCED, log 66] -/
def joinRun (b : Nat) (y : CmpRow) (g : List DevPix) : Eff := rd fun s => match g with
  | [] => skip
  | p :: l =>
    let x := cmpOf s b
    let j := regFld s (Reg.CMP_BAR_CLUSTER b) 15 8
    let c := runCluster y p l false
    let meets := fun (k : Cluster) => rangeMeets j c.xFirst c.xLast k.xFirst k.xLast
    match mergeAll (x.clusters.filter meets) with
    | some m =>
      let m' := { mergeCluster m c with rowLast := y.r, age := 0, later := 0 }
      modCmpBar b fun x => { x with clusters := x.clusters.filter (fun k => !meets k) ++ [m'] }
    | none =>
      if 1024 ≤ x.clusters.length then chain [
        cmpCount b 5 (l.length + 1),
        when (!x.ovfRaised) (raise 0x0C17 b degraded y.r (l.length + 1)),
        modCmpBar b fun x => { x with
          ovfRaised := true
          frame := { x.frame with
            lost := x.frame.lost + l.length + 1, lostFirst := if x.frame.lost = 0 then y.r else x.frame.lostFirst,
            lostLast := y.r, lostTime := if x.frame.lost = 0 then y.tag.time else x.frame.lostTime } }]
      else
        let hit := fun (e : Nat × Nat × Nat) => rangeMeets j c.xFirst c.xLast e.1 e.2.1
        modCmpBar b fun x => { x with
          clusters := x.clusters ++ [{ c with cont := x.conts.any hit }]
          conts := x.conts.filter fun e => !hit e
          frame := { x.frame with opened := x.frame.opened + 1 } }

/-! ## Crops (R261) -/

/-- A closed interval. -/
structure Span where
  lo : Int
  hi : Int
  deriving DecidableEq, Repr

/-- An interval limited to a length centred on a place, then to bounds. [DEDUCED, log 67] -/
def cutSpan (x : Span) (len at' lo hi : Int) : Span :=
  let y := if x.hi - x.lo + 1 ≤ len then x else
    let a := at' - len / 2
    { lo := max x.lo a, hi := min x.hi (a + len - 1) }
  { lo := max y.lo lo, hi := min y.hi hi }

/-- Columns and rows of a cluster's crop. [DEDUCED, log 67] -/
def cropSpans (s : State) (b : Nat) (c : Cluster) : Span × Span :=
  let m : Int := regFld s (Reg.CMP_BAR_CROP b) 7 0
  let x := cmpOf s b
  (cutSpan { lo := c.xFirst - m, hi := c.xLast + m } (regFld s (Reg.CMP_BAR_CROP_MAX b) 15 0) c.peak.x 0 (barWidth s b - 1 : Int),
    cutSpan { lo := c.rowFirst - m, hi := c.rowLast + m } (regFld s (Reg.CMP_BAR_CROP_MAX b) 31 16) c.peakRow x.cropFirst
      (x.cropFirst + x.cropRows - 1 : Int))

/-- Length of an interval. -/
def Span.len (x : Span) : Nat := (x.hi - x.lo + 1).toNat

/-- The crop packet's payload for the record with a number. -/
def cropBytesOf (s : State) (b id : Nat) (c : Cluster) : List Byte :=
  let e := cropSpans s b c
  let m := regFld s (Reg.CMP_BAR_CROP b) 7 0
  let trim := decide (e.1.len < c.xLast - c.xFirst + 1 + 2 * m ∨ e.2.len < c.rowLast - c.rowFirst + 1 + 2 * m)
  let bands := barBands s b
  let row := ceilDiv (barWidth s b * bands) 8 * 8
  leBytes 4 id ++ leBytes 1 b ++ leBytes 1 (bands % 8 + 8 * b2n trim) ++ leBytes 2 0 ++ leBytes 8 e.2.lo.toNat
    ++ leBytes 4 e.1.lo.toNat ++ leBytes 4 e.1.len ++ leBytes 4 e.2.len ++ leBytes 4 0
    ++ (upFrom e.2.lo.toNat e.2.len).flatMap fun r =>
      memBytes s (cropBase s b + r % max 1 (cropDepth s b) * row + e.1.lo.toNat * bands) (e.1.len * bands)

/-- The bar cuts crops: the element is declared, CROP_EN is set, and no limit is 0 (R12). -/
def cropsOn (s : State) (b : Nat) : Bool :=
  hasInst s 0x1D 2 b && cropDepth s b != 0 && regBit s (Reg.CMP_BAR_CROP b) 31
    && regFld s (Reg.CMP_BAR_CROP_MAX b) 15 0 != 0 && regFld s (Reg.CMP_BAR_CROP_MAX b) 31 16 != 0
    && regGet s (Reg.CMP_BAR_CROP_BUDGET b) != 0#32

/-- Bytes of crops that a bar frame may hold; no limit before a frame has been measured. [DEDUCED, log 67] -/
def cropAllowed (s : State) (b : Nat) : Option Nat :=
  let n := (cmpOf s b).frameNs
  if n = 0 then none else some ((regGet s (Reg.CMP_BAR_CROP_BUDGET b)).toNat * n / 1000)

/-- The crop of a cluster: 0 none is cut, 1 it precedes the record, 2 the budget is reached, 3 no buffer.
[DEDUCED, log 67] -/
def cropFate (s : State) (b : Nat) (q : Packet) (room : Bool) : Nat :=
  let len := q.payload.length
  let p := producerOf s (0x1000 + b)
  let above : Bool := match cropAllowed s b with
    | some n => decide (n < (cmpOf s b).cropBytes + len)
    | none => false
  if !cropsOn s b then 0 else if above then 2
  else if (room && p.spill.isEmpty || canSpill s (0x1000 + b) q) && !p.discarding then 1 else 3

/-! ## Closing a cluster -/

/-- The DEFECT record of a cluster. [DEDUCED, log 66] -/
def defectRec (c : Cluster) (fate : Nat) (contNext : Bool) : CmpRec :=
  let sh := fun (k : Nat) => nthD (0, 0) k c.shifts
  let mean := nthD 0 c.peak.band c.sums / (max 1 c.area : Nat)
  { type := 1
    flags := b2n c.dark + 2 * b2n c.light + 4 * b2n (fate == 1) + 8 * b2n c.held + 16 * b2n c.cont + 32 * b2n contNext
      + 64 * b2n (decide (2 ≤ fate))
    zone := c.peak.zone, time := c.time, first := c.rowFirst, rows := c.rowLast - c.rowFirst + 1, xFirst := c.xFirst
    cols := c.xLast - c.xFirst + 1, area := c.area
    rest := leBytes 2 c.peak.excess ++ leBytes 1 c.peak.band ++ leBytes 1 c.flags ++ leBytes 4 c.peak.x
      ++ leBytes 4 (c.peakRow - c.rowFirst) ++ leBytes 2 (wrapTo 16 mean)
      ++ leBytes 2 (wrapTo 16 (sh c.peak.slice).1) ++ leBytes 2 (wrapTo 16 (sh c.peak.slice).2) }

/-- A cluster closes (R258, R261). [DEDUCED, log 66] -/
def closeCluster (b : Nat) (room contNext : Bool) (c : Cluster) : Eff := rd fun s =>
  if c.area < c.peak.minArea then cmpCount b 4 1
  else
    let id := (regGet s (Reg.CMP_BAR_REC_ID b)).toNat
    let crop := cropBytesOf s b id c
    let q : Packet := { kind := 3, source := b, payload := crop, time := c.time }
    let fate := cropFate s b q room
    chain [
      when (fate == 1) (chain [
        evidencePacket (0x1000 + b) room q,
        when (regBit s (Reg.CMP_BAR_CTRL b) 28) (evidencePacket (0x1100 + b) room q),
        modCmpBar b fun x => { x with cropBytes := x.cropBytes + crop.length },
        cmpCount b 6 1]),
      when (decide (2 ≤ fate)) (chain [
        cmpCount b 7 1,
        when (fate == 2) (modCmpBar b fun x => { x with cropOver := true }),
        raise 0x0C18 b notice id (fate - 1)]),
      cmpCount b 3 1,
      putRec b room (defectRec c fate contNext)]

/-- The clusters that CLOSE_ROWS or MAX_ROWS closes after a row. -/
def closeRows (b : Nat) (room : Bool) : Eff := rd fun s =>
  let close := regFld s (Reg.CMP_BAR_CLUSTER b) 31 24
  let tall := fun (c : Cluster) => decide (regFld s (Reg.CMP_BAR_CLMAX b) 31 16 ≤ c.rowLast - c.rowFirst + 1)
  let done := (cmpOf s b).clusters.filter fun c => tall c || decide (close ≤ c.age)
  chain [
    modCmpBar b fun x => { x with
      clusters := x.clusters.filter fun c => !(tall c || decide (close ≤ c.age))
      conts := (x.conts.filter fun e => decide (e.2.2 < close)) ++ (done.filter tall).map fun c => (c.xFirst, c.xLast, 0) },
    each done fun c => closeCluster b room (tall c) c]

/-- Clearing EN closes every open cluster. [DEDUCED, log 66] -/
def closeAll (b : Nat) : Eff := rd fun s => chain [
  modCmpBar b fun x => { x with clusters := [], conts := [] },
  each (cmpOf s b).clusters fun c => closeCluster b true false c]

/-! ## Rows and frames at the CLUSTER stage -/

/-- A row at CLUSTER: its counts, its run, its pixels, and what it closes. [DEDUCED, log 62, 66] -/
def clusterRow (b : Nat) (room : Bool) (y : CmpRow) : Eff := chain [
  when (y.reason == 2) (cmpCount b 10 1),
  when (y.reason != 0 && y.reason != 2) (cmpCount b 1 1),
  modCmpBar b fun x => { x with
    clusters := x.clusters.map fun c => { c with age := c.age + 1, later := c.later ||| y.tag.flags }
    conts := x.conts.map fun e => (e.1, e.2.1, e.2.2 + 1)
    frame := { x.frame with
      first := if x.frame.rows = 0 then y.r else x.frame.first,
      time := if x.frame.rows = 0 then y.tag.time else x.frame.time,
      rows := x.frame.rows + 1, compared := x.frame.compared + b2n (y.reason == 0),
      unchecked := x.frame.unchecked + b2n (y.reason != 0), pixels := x.frame.pixels + y.dev.length,
      flags := x.frame.flags ||| y.tag.flags } },
  runRow b room y,
  rd fun s => each (pixRuns (regFld s (Reg.CMP_BAR_CLUSTER b) 15 8) y.dev) fun g => joinRun b y g,
  closeRows b room]

/-- The last row of a bar frame has passed: the OVERFLOW record and the summary (R259). -/
def clusterClose (b : Nat) (room : Bool) : Eff := chain [
  runClose b room,
  rd fun s =>
    let f := (cmpOf s b).frame
    when (f.lost != 0) (putRec b room {
      type := 3, time := f.lostTime, first := f.lostFirst, rows := f.lostLast - f.lostFirst + 1
      cols := barWidth s b, area := f.lost, rest := leBytes 18 0 }),
  rd fun s =>
    let f := (cmpOf s b).frame
    when (f.rows != 0) (putRec b room {
      type := 4, time := f.time, first := f.first, rows := f.rows, cols := barWidth s b, area := f.pixels
      rest := leBytes 4 f.compared ++ leBytes 4 f.unchecked ++ leBytes 4 f.opened ++ leBytes 6 0 }),
  modCmpBar b fun x => { x with frame := {}, ovfRaised := false, cropBytes := 0, cropOver := false }]

/-- Remove the oldest row of the CLUSTER stage. -/
def takeRow : List CmpItem → List CmpItem
  | [] => []
  | .close :: r => .close :: takeRow r
  | .row _ :: r => r

/-- The frame closes that lead the queue pass; each is a summary. -/
def passCloses (b : Nat) (room : Bool) : Nat → Eff
  | 0 => skip
  | n + 1 => rd fun s => match (cmpOf s b).rows with
    | .close :: r => chain [modCmpBar b fun x => { x with rows := r }, clusterClose b room, passCloses b room n]
    | _ => skip

/-- CLUSTER takes the oldest row, and the frame closes around it. -/
def clusterStep (b : Nat) (room : Bool) : Eff := chain [
  rd fun s => passCloses b room (cmpOf s b).rows.length,
  rd fun s =>
    let is := cmpInsts s b 0x1C
    match if stageRuns s 2 b is then rowAt 4 (cmpOf s b).rows else none with
    | none => skip
    | some y => chain [
        modCmpBar b fun x => { x with rows := takeRow x.rows },
        clearStageMark is,
        clusterRow b room { y with tag := stageTag s 0x1C 2 b is y.tag }],
  rd fun s => passCloses b room (cmpOf s b).rows.length]

/-- CLUSTER_ROW; `room` says whether the result queue's buffer takes what the row closes. -/
def execClusterRow (b : Fin 16) (room : Bool) (s : State) : Host.Outcome State Fault Refusal := .next (go (clusterStep b room) s)

/-! ## Registers of CMP (R262) -/

/-- REG of CMP_BAR_STATUS. -/
def regCode (s : State) (b : Nat) : Nat :=
  let l := (barSlices s b).map fun k => (sliceOf s b k).st
  if !regBit s (Reg.CMP_BAR_CTRL b) 30 || l.isEmpty then 0
  else if l.contains 3 then 3 else if l.contains 0 || l.contains 1 then 1 else 2

/-- Kernel words as they read: two coefficients a word. -/
def kernelWord (s : State) (b : Nat) (across : Bool) (k : Nat) : Word :=
  let ks := kernelOf s b across
  word (wrapTo 16 (nthD 0 (2 * k) ks) + wrapTo 16 (nthD 0 (2 * k + 1) ks) * 2 ^ 16)

/-- Tiles of a source that are resident. -/
def residentTiles (s : State) (i : Nat) : List Nat := ((srcOf s i).tiles.filter fun t => t.st == 2).map fun t => t.j

/-- The words of a bar that are views of its state. -/
def cmpBarView (s : State) (b r : Nat) : Option Word :=
  let x := cmpOf s b
  if 0x800 ≤ r then
    let k := (r - 0x800) / 0x40
    let y := sliceOf s b k
    if r % 0x40 = 0x08 then some (word (wrapTo 16 (shiftOf s b k).1))
    else if r % 0x40 = 0x0C then some (word (wrapTo 16 (shiftOf s b k).2))
    else if r % 0x40 = 0x14 then some (word (if regBit s (Reg.CMP_SL_CTRL b k) 31
      then b2n (regBit s (Reg.CMP_BAR_CTRL b) 30) * (y.st * 2 ^ 28) + y.misses else 0))
    else none
  else if r = 0x004 then some (word (b2n (cmpExpert s b) * 2 ^ 24 + regCode s b * 2 ^ 8 + b2n x.unchecked * 8
    + b2n (x.clusters.length == 1024) * 4 + b2n x.cropOver * 2 + b2n (reloading s b)))
  else if 0x03C ≤ r ∧ r < 0x04C then if cmpExpert s b then none else some (kernelWord s b true ((r - 0x03C) / 4))
  else if 0x04C ≤ r ∧ r < 0x05C then if cmpExpert s b then none else some (kernelWord s b false ((r - 0x04C) / 4))
  else if r = 0x064 then if cmpExpert s b then none
    else some (word (b2n (regFld s (Reg.CMP_BAR_REG b) 1 0 != 0) * 2 ^ 31 + regGain s b))
  else if r = 0x09C then some (word x.next)
  else if r = 0x0A0 then some (word (x.next / 2 ^ 32))
  else none

/-- The words of CMP that are views of its state. -/
def cmpView (s : State) (off : Nat) : Option Word :=
  let rel := off - Reg.CMP_BAR_CTRL 0
  if rel < 0x10000 then cmpBarView s (rel / 0x1000) (rel % 0x1000)
  else if off = Reg.CMP_GSTATUS then
    some (word (((upto 16).filter fun b => regBit s (Reg.CMP_BAR_CTRL b) 31).length * 2 ^ 16
      + ((upto 8).filter fun i => regBit s (Reg.CMP_RS_CTRL i) 31).length))
  else if 0x20000 ≤ rel ∧ rel < 0x20800 then
    let l := residentTiles s ((rel - 0x20000) / 0x100)
    if rel % 0x100 = 0x5C then some (word (match l with
      | [] => 0
      | j :: r => r.foldl min j))
    else if rel % 0x100 = 0x60 then some (word (l.foldl max 0)) else none
  else none

/-- A software write of a slice's shift applies from the next row, within the limits (R250). -/
def shiftWrite (ini : Ini) (b k off : Nat) (y : Bool) (v : Word) : Eff := writeReg ini off v fun _ _ => rd fun s =>
  let lim := regGet s (Reg.CMP_BAR_LIM b)
  let l : Int := if y then fld lim 31 16 else fld lim 15 0
  let new := clampI (-l) l (sint 16 (fld v 15 0))
  chain [
    modSlice b k fun x => if y then { x with sy := new } else { x with sx := new },
    when (new != sint 16 (fld v 15 0)) (raise 0x0C1A b notice off v.toNat)]

/-- A write of CMP_BAR_LIM, limited to (A - 1) x 256 and (CX - 1) x 256 (R250). -/
def cmpLim (ini : Ini) (b off : Nat) (v : Word) : Eff := writeReg ini off v fun _ new => rd fun s =>
  let ly := min (fld new 31 16) ((rngA s b - 1) * 256)
  let lx := min (fld new 15 0) ((rngCX s b - 1) * 256)
  when (ly != fld new 31 16 || lx != fld new 15 0) (chain [
    setReg off (word (ly * 2 ^ 16 + lx)),
    raise 0x0C1A b notice off v.toNat])

/-- A write of CMP_BAR_REG: MODE 1 written again re-arms the slices at the next bar frame start; the shifts stay at 0 in MODE
FIXED (R251). -/
def cmpReg (ini : Ini) (b off : Nat) (v : Word) : Eff := chain [
  fixShift b,
  writeReg ini off v fun old new => chain [
    when (ini != .cfg && fld new 1 0 == 1 && fld v 1 0 == 1) (modCmpBar b fun x => { x with
      rearm := x.rearm || fld old 1 0 == 1 || x.slices.any fun e => e.2.held }),
    fixShift b]]

/-- The effect of a write on a CMP register; none where the register is an ordinary one. -/
def cmpWrite (ini : Ini) (off : Nat) (v : Word) : Option Eff :=
  let rel := off - Reg.CMP_BAR_CTRL 0
  if rel < 0x10000 then
    let b := rel / 0x1000
    let r := rel % 0x1000
    let k := (r - 0x800) / 0x40
    if 0x800 ≤ r then
      if r % 0x40 = 0x08 then some (shiftWrite ini b k off false v)
      else if r % 0x40 = 0x0C then some (shiftWrite ini b k off true v) else none
    else if r = 0 then some (writeLevel ini off v fun old new => when (bit old 30 && !bit new 30) (closeAll b))
    else if r = 0x014 then some (lutCtrl ini b v)
    else if r = 0x060 then some (cmpReg ini b off v)
    else if r = 0x068 then some (bandWrite ini off v 10 8 fun s => barBands s b)
    else if r = 0x074 then some (cmpLim ini b off v)
    else none
  else if 0x20000 ≤ rel ∧ rel < 0x20800 then
    let i := (rel - 0x20000) / 0x100
    if rel % 0x100 = 0 then some (rsCtrl ini i v)
    else if rel % 0x100 = 0x24 then some (rsTail ini i v) else none
  else none

end Sys2Proof.Machine
end

