-- ==== Sys2Proof/Machine/Nozzle.lean ====
section
/-!
DEFINITION. The nozzle engine (chapter "Nozzle ledger and compensation"): measurement from stripes and residuals, the
compensation cycle, correction words and their delivery, and the ledger.
-/
namespace Sys2Proof.Machine

/-! ## Numbers -/

/-- A quotient rounded to the nearest integer, halves away from zero. [DEDUCED, log 68] -/
def roundDiv (a b : Int) : Int :=
  if a < 0 then -((2 * -a + b) / (2 * b)) else (2 * a + b) / (2 * b)

/-- The median; of an even number of values, the mean of the middle two, rounded down. [DEDUCED, log 68] -/
def median (l : List Nat) : Nat :=
  let m := l.foldr insertNat []
  let n := m.length
  if n % 2 = 1 then nthD 0 (n / 2) m else (nthD 0 (n / 2 - 1) m + nthD 0 (n / 2) m) / 2

/-- Counters of a side from NZL_SD_CYCLES: 0 cycles, 4 stripes and 6 measurements wrap; 1 DCOMP_MISS, 2 CLAMP, 3 STALE,
5 STRIPE_BAD and 7 STATE_CHG stop (R288). -/
def sideCount (d k n : Nat) : Eff :=
  if k = 0 ∨ k = 4 ∨ k = 6 then countUp (Reg.NZL_SD_COUNTS d k) n else countSat (Reg.NZL_SD_COUNTS d k) n

/-! ## Settings (R280) -/

/-- The level in force on a side is expert. -/
def sideExpert (s : State) (d : Nat) : Bool := atExpert s (Reg.NZL_SD_CTRL d)

/-- SENS, RESPONSE, SUBST_EN and DELAY_EN of the basic level. -/
def sideSens (s : State) (d : Nat) : Nat := regFld s (Reg.NZL_SD_POLICY d) 1 0
def sideResponse (s : State) (d : Nat) : Nat := regFld s (Reg.NZL_SD_POLICY d) 15 8

/-- G_R and G_S. [DEDUCED, log 68] -/
def gainR (s : State) (d : Nat) : Nat :=
  if sideExpert s d then regFld s (Reg.NZL_SD_GAIN d) 11 8
  else min 8 (sumOf (fun (k : Nat) => b2n (decide (2 ^ (2 * k + 1) ≤ sideResponse s d * sideResponse s d))) (upto 8))
def gainS (s : State) (d : Nat) : Nat := if sideExpert s d then regFld s (Reg.NZL_SD_GAIN d) 3 0 else 0

/-- T_GOOD, T_FAIL, T_POS, CONFIRM and SUBST_PCT. -/
def tGood (s : State) (d : Nat) : Nat :=
  if sideExpert s d then regFld s (Reg.NZL_SD_THR d) 11 0 else nthD 31 (sideSens s d) [102, 51, 31]
def tFail (s : State) (d : Nat) : Nat :=
  if sideExpert s d then regFld s (Reg.NZL_SD_THR d) 27 16 else nthD 512 (sideSens s d) [717, 614, 512]
def tPos (s : State) (d : Nat) : Nat :=
  if sideExpert s d then regFld s (Reg.NZL_SD_CLS d) 23 16 else nthD 24 (sideSens s d) [48, 32, 24]
def confirmCount (s : State) (d : Nat) : Nat :=
  if sideExpert s d then regFld s (Reg.NZL_SD_CLS d) 3 0 else nthD 2 (sideSens s d) [4, 3, 2]
def substPct (s : State) (d : Nat) : Nat :=
  if sideExpert s d then regFld s (Reg.NZL_SD_SUBST d) 7 0
  else if regBit s (Reg.NZL_SD_POLICY d) 4 then 100 else 0

/-! ## Stripes (R271) -/

/-- The columns of a nozzle's window: |256 X - X(i)| < (PHASES x PITCH) / 32. -/
def windowOf (s : State) (d : Nat) (z : Nozzle) : Int × Nat :=
  let half : Int := (stripePhases s d * modPitch s z.m / 32 : Nat)
  let lo := (z.x - half) / 256 + 1
  let hi := -((-(z.x + half)) / 256) - 1
  (lo, (hi - lo + 1).toNat)

/-- The samples of a segment over a window: q, column, and row within the segment. -/
def segSamples (s : State) (d h : Nat) (g : Segment) (rows : List NzRow) (lo n : Nat) : List (Nat × Nat × Nat) :=
  let j := rowBand s d h
  let paper := paperOf s d j
  rows.flatMap fun y => (upFrom lo n).map fun x => (paper - nthD 0 (x * y.bands + j) y.data, x, y.r - g.first)

/-- NZ_STRIPE measures one nozzle in its segment. [DEDUCED, log 69] -/
def measureNozzle (s : State) (d : Nat) (g : Segment) (rows : List NzRow) (z : Nozzle) : StripeMeas :=
  let w := windowOf s d z
  let width := barWidth s (sideBar s d)
  let spoiled := rows.any fun y => y.tag.flags.testBit fCheck || y.tag.flags.testBit fTrunc || y.tag.flags.testBit fXfer
  let inside := decide (0 ≤ w.1 ∧ w.1 + w.2 ≤ width)
  let q := if inside then segSamples s d g.h g rows w.1.toNat w.2 else []
  let sum := sumOf (fun e => e.1) q
  let mx := sumOf (fun e => e.1 * 256 * e.2.1) q / max 1 sum
  let my := sumOf (fun e => e.1 * 256 * e.2.2) q / max 1 sum
  { idx := z.idx, n := g.n, h := g.h, d := sum
    time := (rows.getLast?.map fun y => y.tag.time).getD 0, steps := (rows.getLast?.map fun y => y.tag.steps).getD 0
    posX := clampI (-128) 127 (((mx : Int) - z.x) / 8)
    posY := clampI (-128) 127 (((my : Int) - (128 * (stripeSeg s d - 1) : Nat)) / 8)
    valid := decide (rows.length = stripeSeg s d) && !spoiled && inside && sum != 0
      && !isOff (wordIn (nzModOf s z.m).cur z.i) }

/-- The next segment of a side is measured once its last row has been received. -/
def stripeMeasure (d : Nat) : Eff := rd fun s =>
  let x := sideOf s d
  let g := segmentAt s d x.seg
  let last := g.first + stripeSeg s d - 1
  let seen : Bool := match x.top with
    | some t => decide (last ≤ t)
    | none => false
  let is := ownInsts s 0x20 3 d
  when (sideValid s d && stripeRep s d != 0 && stripeCount s d != 0 && seen && stageRuns s 3 d is) (
    let rows := (x.rows.filter fun y => decide (g.first ≤ y.r ∧ y.r ≤ last)).map fun y =>
      { y with tag := stageTag s 0x20 3 d is y.tag }
    let zs := ((rowMods s d g.h).flatMap (modNozzles s)).filter fun z => z.i % stripePhases s d == g.p
    let ms := zs.map (measureNozzle s d g rows)
    let bad := (ms.filter fun m => !m.valid).length
    let ends := (x.seg + 1) % stripeCount s d == 0
    chain [
      clearStageMark is,
      sideCount d 5 bad,
      modSide d fun x => { x with
        seg := x.seg + 1, rows := x.rows.filter fun y => decide (last < y.r), bad := if ends then 0 else x.bad + bad
        meas := (x.meas.filter fun m => !(m.h == g.h && m.n != g.n && m.used)) ++ ms },
      when ends (chain [
        sideCount d 4 1,
        when (x.bad + bad != 0) (raise 0x0D14 (0x1000 + d) notice g.n (x.bad + bad))])])

/-- NZ_STRIPE_MEASURE. -/
def execNzStripeMeasure (side : Fin 2) (s : State) : Host.Outcome State Fault Refusal := .next (go (stripeMeasure side) s)

/-- DNOM of a row in a stripe at the basic level: the median of d over the valid GOOD nozzles, or over all valid ones when
fewer than 64 are GOOD. [DEDUCED, log 69] -/
def dnomBasic (s : State) (ms : List StripeMeas) (n h : Nat) : Nat :=
  let l := ms.filter fun m => m.valid && m.n == n && m.h == h
  let good := l.filter fun m => (ledgerGet s m.idx).st == 1
  median ((if good.length < 64 then l else good).map fun m => m.d)

/-- DNOM in force. [DEDUCED, log 68, 69] -/
def dnomOf (s : State) (d : Nat) (n h : Nat) : Nat :=
  if sideExpert s d then (regGet s (Reg.NZL_SD_DNOM d h)).toNat else dnomBasic s (sideOf s d).meas n h

/-! ## Residuals (R272 to R274) -/

/-- The start and the end of a cycle as row times are compared with them, and the end of the one after it (R282). -/
def runEnd (c : CycleRun) : Int := c.start + c.ms * oneMs
def secondEnd (s : State) (d : Nat) (c : CycleRun) : Int :=
  runEnd c + (match (sideOf s d).runs.drop 1 with
    | e :: _ => (e.ms : Int)
    | [] => regFld s Reg.TIM_CYC_CTRL 9 0) * oneMs

/-- The place of an assigned TIME_NS among the cycle boundaries, which later steps have moved (R287), in units of 2^-32 ns. -/
def placedTime (s : State) (time : Nat) (steps : Int) : Int := (time : Int) * oneNs + (s.tim.stepSum - steps)

/-- A row's exposure among the cycle boundaries. -/
def expoTime (s : State) (t : LineTag) : Int := placedTime s t.time t.steps

/-- The nozzle of a row nearest to a column, the lower ledger index on ties. -/
def nearest (zs : List Nozzle) (x : Nat) : Option Nozzle :=
  let far := fun (z : Nozzle) => (z.x - ((256 * x : Nat) : Int)).natAbs
  zs.foldl (fun (o : Option Nozzle) z => match o with
    | none => some z
    | some m => if far z < far m ∨ far z = far m ∧ z.idx < m.idx then some z else some m) none

/-- One more sample in an accumulator. -/
def addSample (dv k : Int) (a : NzSum) : NzSum :=
  { a with dk := sint 64 (wrapTo 64 (a.dk + dv * k)), kk := (a.kk + (k * k).toNat) % 2 ^ 64, n := a.n + 1 }

/-- One more sample for the word after `ord` commits, whose GAIN is known. -/
def addPart (ord gain : Nat) (dv k : Int) : List NzSum → List NzSum
  | [] => [addSample dv k { ord := ord, gain := gain }]
  | a :: r => if a.ord = ord then addSample dv k a :: r else a :: addPart ord gain dv k r

/-- A column is a solo sample of a row: its d and K. -/
def soloSample (s : State) (d h : Nat) (y : ResRow) (x : Nat) : Option (Int × Int) :=
  let j := rowBand s d h
  let c := rowColorant s d h
  let a := nthD [] x y.amts
  let k : Int := (paperOf s d j : Int) - (nthD 0 (x * y.bands + j) y.rs : Nat)
  let others := ((sideRows s d).map (rowColorant s d)).filter (· != c)
  match nthD none (x * y.bands + j) y.d with
  | none => none
  | some dv =>
    if regFld s (Reg.NZL_SD_RES d) 31 24 ≤ nthD 0 c a ∧ (others.all fun o =>
        decide (nthD 0 o a ≤ regFld s (Reg.NZL_SD_RES d) 23 16)) = true
        ∧ (regFld s (Reg.NZL_SD_KMIN d) 15 0 : Int) ≤ k
    then some (dv, k) else none

/-- The job web position at which a bar row was printed by a colorant row, in um (R273). -/
def printedAt (s : State) (d h r : Nat) : Int :=
  ((r * 25400 / max 1 (cmpDpi s (sideBar s d)) : Nat) : Int) + sint 32 (regGet s (Reg.NZL_SD_RDIST d h)).toNat

/-- Where a sample of a nozzle goes: 0 nowhere, 1 CUR, 2 PREV, 3 stale (R273). -/
def sampleFate (x : NzMod) (i : Nat) (w : Int) : Nat :=
  if x.unsure then 3
  else match x.wCur with
    | none => 3
    | some wc =>
      if wc ≤ w then (if isOff (wordIn x.cur i) then 0 else 1)
      else match x.wPrev with
        | some wp => if wp ≤ w then (if isOff (wordIn x.prev i) then 0 else 2) else 3
        | none => 3

/-- A sample joins a nozzle's accumulators of a word. The bytes at NZL_ACC change with them; the spec gives those bytes no
layout, and they are free. [DESIGN CHOICE, log 72] -/
def accumulate (d : Nat) (z : Nozzle) (ord word : Nat) (dv k : Int) : Eff := chain [
  modSide d fun x => { x with sums := mput z.idx (addPart ord (gainOf word) dv k (mget [] z.idx x.sums)) x.sums },
  withFree 128 fun v => rd fun s => storeBytes (accAt s z.idx) (leBytes 16 v.toNat)]

/-- One sample is credited to its nozzle. [DESIGN CHOICE, log 72] -/
def creditSample (d : Nat) (z : Nozzle) (w dv k : Int) : Eff := rd fun s =>
  let x := nzModOf s z.m
  match sampleFate x z.i w with
  | 1 => accumulate d z x.commits (wordIn x.cur z.i) dv k
  | 2 => accumulate d z (x.commits - 1) (wordIn x.prev z.i) dv k
  | 3 => sideCount d 3 1
  | _ => skip

/-- The samples of a row for one colorant row. [DEDUCED, log 70] [DESIGN CHOICE, log 72] -/
def residRow (d h : Nat) (y : ResRow) : Eff := rd fun s =>
  let zs := rowNozzles s d h
  let w := printedAt s d h y.r
  each (upto (y.d.length / max 1 y.bands)) fun x => match soloSample s d h y x, nearest zs x with
    | some (dv, k), some z => creditSample d z w dv k
    | _, _ => skip

/-- A row belongs to a cycle that has closed (0), to the oldest running one (1), to a later one, which must close first (2), or
to none, where no cycle ran (3) (R275). [DEDUCED, log 70] -/
def rowCycle (s : State) (x : NzSide) (t : LineTag) : Nat :=
  let e := expoTime s t
  if (x.lastEnd.map fun z => decide (e < z)) == some true then 0
  else match x.runs with
    | c :: _ => if e < c.start then 3 else if e < runEnd c then 1 else 2
    | [] => 3

/-- NZ_RESID takes the oldest row of a bar, unless a side must close its cycle first. [DEDUCED, log 70] -/
def residTake (b : Nat) : Eff := rd fun s => match (cmpOf s b).resid with
  | [] => skip
  | y :: rest =>
    let ds := sidesOf s b
    let is := fun d => ownInsts s 0x21 3 d
    when (ds.all fun d => rowCycle s (sideOf s d) y.tag != 2 && stageRuns s 3 d (is d)) (chain [
      modCmpBar b fun x => { x with resid := rest },
      each ds fun d => chain [
        clearStageMark (is d),
        when (sideOn s d) (match rowCycle s (sideOf s d) y.tag with
          | 0 => sideCount d 3 1
          | 1 => when (!isStripeRow s d y.r) (each (sideRows s d) fun h => residRow d h y)
          | _ => skip)]])

/-- NZ_RESID_ROW. -/
def execNzResidRow (b : Fin 16) (s : State) : Host.Outcome State Fault Refusal := .next (go (residTake b) s)

/-! ## Updating and classifying (R276, R277) -/

/-- Values that the spec leaves open, one per nozzle: kind 0 a density whose DNOM is 0, 1 to 3 a residual whose S_KK or GAIN
is 0 under the words it was printed with. -/
abbrev Open := Nat → Nat → Int

/-- δ of one word's samples (R274). [DEDUCED, log 68] -/
def deltaOf (a : NzSum) (gain : Nat) (open' : Int) : Int :=
  if a.kk = 0 ∨ gain = 0 then open'
  else roundDiv ((1024 - roundDiv (a.dk * 1024) a.kk) * 512) gain - 1024

/-- δ of a nozzle in the cycle: the mean over its words, weighted by their samples; none with fewer than MIN_RES samples.
[DEDUCED, log 68] -/
def residualOf (s : State) (d : Nat) (o : Open) (z : Nozzle) : Option Int :=
  let parts := mget [] z.idx (sideOf s d).sums
  let n := sumOf (fun a => a.n) parts
  let ds := parts.zipIdx.map fun e => (deltaOf e.1 e.1.gain (o (min (e.2 + 1) 3) z.idx), e.1.n)
  if n < regFld s (Reg.NZL_SD_RES d) 15 0 ∨ n = 0 then none
  else match ds with
    | [e] => some e.1
    | _ => some (roundDiv (isumOf (fun e => e.1 * e.2) ds) (n : Int))

/-- The stripe measurement of a nozzle that belongs to a cycle: dens and the positions. -/
def stripeOf (s : State) (d : Nat) (o : Open) (z : Nozzle) (c : CycleRun) : Option (Int × Int × Int) :=
  let inside := fun (m : StripeMeas) => decide (c.start ≤ placedTime s m.time m.steps ∧ placedTime s m.time m.steps < runEnd c)
  (firstWhere (fun (m : StripeMeas) => m.idx == z.idx && m.valid && !m.used && inside m) (sideOf s d).meas).map fun m =>
    let n := dnomOf s d m.n m.h
    (if n = 0 then o 0 z.idx else clampI (-2048) 2047 (roundDiv ((m.d * 1024 : Nat) : Int) n - 1024), m.posX, m.posY)

/-- What a close makes of a nozzle: its entry before, its entry with the measured fields and STATE, its confirmation
count, and whether its ledger word could not be read. -/
structure NzResult where
  z : Nozzle
  old : Ledger
  ent : Ledger
  confirm : Nat
  kept : Bool
  resid : Bool
  /-- It had a measurement in the cycle. -/
  measured : Bool := false
  deriving DecidableEq, Repr

/-- DENS moves towards a measurement by a shift. -/
def approach (dens new : Int) (g : Nat) : Int := clampI (-2048) 2047 (dens + sar (new - dens) g)

/-- The measured fields after a cycle (R276); `fresh` at the first measurement of an UNMEASURED nozzle. [DEDUCED, log 69] -/
def updateMeasured (s : State) (d : Nat) (fresh : Bool) (e : Ledger) (r : Option Int) (t : Option (Int × Int × Int)) : Ledger :=
  let e1 := match r with
    | some v => { e with dens := approach e.dens v (if fresh then 0 else gainR s d), src := false }
    | none => e
  let e2 := match t with
    | some (v, px, py) => { e1 with
        dens := approach e1.dens v (if fresh && r.isNone then 0 else gainS s d), posX := px, posY := py, src := true }
    | none => e1
  if r.isSome ∨ t.isSome then { e2 with age := 0, conf := min (e2.conf + 1) 15 }
  else { e2 with age := min (e2.age + 1) 255, conf := 0 }

/-- The candidate class (R277). -/
def candidate (s : State) (d : Nat) (e : Ledger) (stripe : Bool) : Nat :=
  if stripe ∧ tPos s d < e.posX.natAbs then 5
  else if tFail s d < e.dens.natAbs then 4
  else if e.dens < -(tGood s d : Int) then 2
  else if (tGood s d : Int) < e.dens then 3 else 1

/-- STATE and the confirmation count after a measured cycle (R277). [DEDUCED, log 70] -/
def classify (s : State) (d : Nat) (e : Ledger) (stripe : Bool) (count : Nat) : Nat × Nat :=
  let c := candidate s d e stripe
  if 4 ≤ e.st then (e.st, 0)
  else if c = 5 then (5, 0)
  else if c = 4 then
    if stripe ∨ confirmCount s d ≤ count + 1 then (4, 0) else (e.st, count + 1)
  else (c, 0)

/-- A nozzle at the close. -/
def closeNozzle (s : State) (d : Nat) (o : Open) (cyc : CycleRun) (z : Nozzle) : NzResult :=
  let e := ledgerGet s z.idx
  let count := mget 0 z.idx s.nzl.confirm
  if !(poisoned s (ledgerAt s z.idx) 8).isEmpty then
    { z := z, old := e, ent := e, confirm := count, kept := true, resid := false }
  else
    let r := residualOf s d o z
    let t := stripeOf s d o z cyc
    let e1 := updateMeasured s d (e.st == 0 && !s.nzl.taken.contains z.idx) e r t
    let c := if e.pin ∨ (r.isNone ∧ t.isNone) then (e1.st, count) else classify s d e1 t.isSome count
    { z := z, old := e, ent := { e1 with st := c.1 }, confirm := c.2, kept := false, resid := r.isSome
      measured := r.isSome || t.isSome }

/-! ## Words (R278, R279) -/

/-- The engine does not change a nozzle's word. -/
def wordKept (x : NzResult) : Bool := x.kept || x.old.pin

/-- The nozzles of a module that are OFF, and those beyond OFF_MAX. [DEDUCED, log 70] -/
def offsOf (max' : Nat) (xs : List NzResult) : List Nat × List Nat :=
  let fixed := xs.filter fun x => if wordKept x then isOff x.old.corr else x.ent.st == 6
  let want := xs.filter fun x => !wordKept x && (x.ent.st == 4 || x.ent.st == 5)
  let stay := want.filter fun x => isOff x.old.corr
  let new := ((want.filter fun x => !isOff x.old.corr).map fun x => x.z.idx).foldr insertNat []
  let room := max' - (fixed.length + stay.length)
  ((fixed.map fun x => x.z.idx) ++ (stay.map fun x => x.z.idx) ++ new.take room, new.drop room)

/-- The number of OFF neighbours of each nozzle of a row in its order (R265). -/
def offNeighbours (s : State) (off : Nat → Bool) : Option Nozzle → List NzResult → List (NzResult × Nat)
  | _, [] => []
  | prev, x :: r =>
    let near := fun (o : Option Nozzle) => match o with
      | some y => off y.idx && decide (32 * (y.x - x.z.x).natAbs ≤ 3 * modPitch s x.z.m)
      | none => false
    (x, b2n (near prev) + b2n (near (r.head?.map fun y => y.z))) :: offNeighbours s off (some x.z) r

/-- A word with the clamps that formed it, each before and after. -/
structure Formed where
  word : Nat
  subst : Bool := false
  clamps : List (Int × Int) := []
  deriving DecidableEq, Repr

/-- The word of a nozzle that fires (R278). -/
def formWord (s : State) (d n : Nat) (e : Ledger) (old : Nat) : Formed :=
  let cur : Int := if isOff old then 512 else gainOf old
  let lo : Int := regFld s (Reg.NZL_SD_BOUND d) 9 0
  let hi : Int := regFld s (Reg.NZL_SD_BOUND d) 25 16
  let step : Int := regFld s (Reg.NZL_SD_STEP d) 9 0
  let lim : Int := regFld s (Reg.NZL_SD_STEP d) 20 16
  let target := if 1024 + e.dens ≤ 0 then hi
    else roundDiv ((524288 * (200 + substPct s d * n) : Nat) : Int) (200 * (1024 + e.dens))
  let g1 := clampI (cur - step) (cur + step) target
  let g2 := clampI lo hi g1
  let delayOn := sideExpert s d || regBit s (Reg.NZL_SD_POLICY d) 5
  let raw := -2 * e.posY
  let delay := if delayOn then clampI (-lim) lim raw else 0
  { word := wrapTo 5 delay * 1024 + wrapTo 10 g2, subst := n != 0
    clamps := [(target, g1), (g1, g2)] ++ if delayOn then [(raw, delay)] else [] }

/-- The word of any nozzle at the close. [DEDUCED, log 69] -/
def wordOf (s : State) (d : Nat) (off beyond : Nat → Bool) (x : NzResult) (n : Nat) : Formed :=
  if wordKept x then { word := x.old.corr }
  else if beyond x.z.idx then
    { word := regFld s (Reg.NZL_SD_BOUND d) 25 16, clamps := [(0x8000, (regFld s (Reg.NZL_SD_BOUND d) 25 16 : Int))] }
  else if off x.z.idx then { word := 0x8000 }
  else formWord s d n x.ent x.old.corr

/-! ## Delivery (R282) -/

/-- The apply lead of a module's partner in 2^-32 ns (R100). -/
def moduleLead (s : State) (m : Nat) : Int := (leAt (partnerOf s (modPartnerOf s m)).desc 32 4 : Nat) * oneNs

/-- The payload of one frame of a set (R112). -/
def corrPayload (x : NzSet) (first count : Nat) (last : Bool) : List Byte :=
  leBytes 8 (nsOf x.apply) ++ leBytes 3 x.cycle ++ leBytes 2 first
    ++ leBytes 2 (count + 16384 * b2n x.neutral + 32768 * b2n last)
    ++ ((x.words.drop first).take count).flatMap (leBytes 2)

/-- A module's set is queued, in rising FIRST. -/
def queueSet (m : Nat) (x : NzSet) : Eff := rd fun s =>
  let p := modPartnerOf s m
  let act := isActive s p
  chain [
    modNzMod m fun y => { y with set := some x, neutralNext := false, st := if act then 1 else 5 },
    when act (each x.frames.zipIdx fun e =>
      sendTo p 1 0x22 (.corr m e.1.first (corrPayload x e.1.first e.1.count (e.2 + 1 == x.frames.length))))]

/-- The frames of a set of words. -/
def framesOf (n : Nat) : List NzFrame :=
  (upto (ceilDiv n 512)).map fun f => { first := 512 * f, count := min 512 (n - 512 * f) }

/-- A module's set of a cycle. -/
def moduleSet (s : State) (m cycle : Nat) (apply' : Int) (words : List Nat) : NzSet :=
  let late := decide (apply' - moduleLead s m < timeNow s)
  if (nzModOf s m).neutralNext then
    { cycle := cycle, apply := apply', neutral := true, words := [], frames := [{ first := 0, count := 0 }], late := late }
  else { cycle := cycle, apply := apply', neutral := false, words := words, frames := framesOf words.length, late := late }

/-- A module is due a set (R282, R285). -/
def setDue (s : State) (d m : Nat) (words : List Nat) : Bool :=
  !regBit s (Reg.NZL_SD_CTRL d) 2 || (nzModOf s m).unsure
    || words.zipIdx.any fun e => e.1 != wordIn (nzModOf s m).cur e.2

/-! ## The close -/

/-- Effects of a nozzle's new entry: transitions, clamps and the write of its ledger entry. [DEDUCED, log 71] -/
def commitNozzle (d : Nat) (x : NzResult) (f : Formed) (quiet : Bool) : Eff :=
  let e := { x.ent with corr := f.word, subst := f.subst }
  when (!x.kept) (chain [
    when (x.ent.st != x.old.st) (chain [
      sideCount d 7 1,
      modSide d fun y => { y with changes := y.changes + 1 },
      when (!quiet) (raise 0x0D12 x.z.m notice x.z.idx (x.old.st + 16 * x.ent.st + wrapTo 12 x.ent.dens * 2 ^ 16))]),
    when x.resid (sideCount d 6 1),
    each f.clamps fun c => when (c.1 != c.2) (chain [sideCount d 2 1, policyClamp 0x0D x.z.m c.1 c.2]),
    modNzl fun n => { n with
      confirm := if x.confirm = 0 then mdel x.z.idx n.confirm else mput x.z.idx x.confirm n.confirm
      taken := if x.ent.st = 0 ∧ x.measured then (if n.taken.contains x.z.idx then n.taken else x.z.idx :: n.taken)
        else if x.ent.st = 0 then n.taken else n.taken.filter (· != x.z.idx) },
    when (e != x.old) (ledgerPut x.z.idx e)])

/-- The number of nozzles of a side, and the fabric clock in MHz. -/
def sideNozzles (s : State) (d : Nat) : Nat := sumOf (modCount s) (sideMods s d)

/-- The slack of a module at a close, in ns (R286). -/
def slackOf (s : State) (d m : Nat) (apply' : Int) : Int :=
  sar (apply' - moduleLead s m - timeNow s) 32
    - ((ceilDiv (sideNozzles s d) 8 * 1000 / max 1 s.erg.fclk + 50000 : Nat) : Int)

/-- The least of a list of integers. -/
def leastInt : List Int → Option Int
  | [] => none
  | x :: r => some (r.foldl min x)

/-- The close of cycle `c` on a side that runs (R276 to R282, R286). -/
def closeCycle (d : Nat) (c : CycleRun) (o : Open) : Eff := rd fun s =>
  let apply' := secondEnd s d c - ((regGet s (Reg.NZL_SD_EARLY d)).toNat : Int) * 1000 * oneNs
  let rows := (sideRows s d).map fun h => (rowNozzles s d h).map (closeNozzle s d o c)
  let all := rows.flatMap id
  let maxOff := regFld s (Reg.NZL_SD_OFF d) 12 0
  let offs := (sideMods s d).map fun m => (m, offsOf maxOff (all.filter fun x => x.z.m == m))
  let off := fun (i : Nat) => offs.any fun e => e.2.1.contains i
  let beyond := fun (i : Nat) => offs.any fun e => e.2.2.contains i
  let formed := (rows.flatMap fun r => offNeighbours s off none r).map fun e => (e.1, wordOf s d off beyond e.1 e.2)
  let wordAt := fun (i : Nat) => ((firstWhere (fun (e : NzResult × Formed) => e.1.z.idx == i) formed).map fun e =>
    e.2.word).getD neutralWord
  let sets := (sideMods s d).map fun m => (m, (modNozzles s m).map fun z => wordAt z.idx)
  let due := sets.filter fun e => setDue s d e.1 e.2
  let changed := (formed.filter fun e => e.1.ent.st != e.1.old.st).map fun e => e.1.z.idx
  chain [
    modSide d fun x => { x with changes := 0, acked := 0, missed := 0, report := some c.num },
    each formed fun e => chain [
      reportPoison 0x0D (if e.1.kept then poisoned s (ledgerAt s e.1.z.idx) 8 else []),
      commitNozzle d e.1 e.2 (!(changed.take 64).contains e.1.z.idx),
      when (beyond e.1.z.idx) (raise 0x0D13 e.1.z.m degraded e.1.z.idx maxOff)],
    modSide d fun x => { x with dnom := (sideRows s d).map fun h => (h,
      ((x.meas.filter fun m => m.h == h).getLast?.map fun m => dnomBasic s x.meas m.n h).getD (mget 0 h x.dnom)) },
    each due fun e => queueSet e.1 (moduleSet s e.1 c.num apply' e.2),
    match leastInt (due.map fun e => slackOf s d e.1 apply') with
    | some m => when (decide (m < 0)) (raise 0x0D15 (0x1000 + d) degraded c.num (arg64 m))
    | none => skip]

/-- A cycle has closed: its accumulators are cleared, at NZL_ACC as well, and its measurements used up (R274).
[DESIGN CHOICE, log 72] -/
def afterClose (d : Nat) (c : CycleRun) : Eff := rd fun s => chain [
  each (sideOf s d).sums fun e => storeBytes (accAt s e.1) (leBytes 16 0),
  modSide d fun x => { x with
    runs := x.runs.drop 1, lastEnd := some (runEnd c), closed := c.num, sums := []
    meas := x.meas.map fun m => if placedTime s m.time m.steps < runEnd c then { m with used := true } else m }]

/-- A running cycle may close: a row of a later one has left DIFF_TOL, or CLOSE_US has passed (R275). [DEDUCED, log 70] -/
def mayClose (s : State) (d : Nat) (c : CycleRun) : Bool :=
  let x := cmpOf s (sideBar s d)
  let later := fun (t : LineTag) => decide (runEnd c ≤ expoTime s t)
  (x.passed.map later) == some true || ((x.resid.head?.map fun y => later y.tag) == some true)
    || decide (runEnd c + ((regFld s (Reg.NZL_SD_CLOSE d) 15 0 * 1000 : Nat) : Int) * oneNs ≤ timeNow s)

/-- The oldest running cycle closes on a side. [DEDUCED, log 70] -/
def cycleClose (d : Nat) : Eff := rd fun s => match (sideOf s d).runs with
  | [] => skip
  | c :: _ =>
    let is := ownInsts s 0x22 3 d
    when (mayClose s d c && stageRuns s 3 d is) (chain [
      when (sideOn s d) (chain [
        withFree (64 * 2 ^ 20) fun v => closeCycle d c fun k i => sint 16 (bits v.toNat (64 * i + 16 * k + 15) (64 * i + 16 * k)),
        clearStageMark is,
        sideCount d 0 1]),
      afterClose d c])

/-- CYCLE_CLOSE. -/
def execCycleClose (side : Fin 2) (s : State) : Host.Outcome State Fault Refusal := .next (go (cycleClose side) s)

/-- The next compensation cycle starts, and with it the cycle of each side, whose LEVEL follows (R151, R280). -/
def cycleBegin : Eff := rd fun s => chain [
  cycleStart,
  rd fun s' => when (regBit s Reg.TIM_CYC_CTRL 31 && (cycleDue s).isSome) (match s'.tim.cycles with
    | c :: _ => each [0, 1] fun d => chain [
        levelBoundary (Reg.NZL_SD_CTRL d),
        warmFrame 3 d,
        when (sideValid s d) (modSide d fun x => { x with runs := x.runs ++ [c] })]
    | [] => skip)]

/-- CYCLE_START. -/
def execCycleStart (s : State) : Host.Outcome State Fault Refusal := .next (go cycleBegin s)

/-! ## Acknowledgement (R113, R115, R283) -/

/-- Change one frame of a module's set. -/
def modFrame (m first : Nat) (f : NzFrame → NzFrame) : Eff := modNzMod m fun y => { y with
  set := y.set.map fun x => { x with frames := x.frames.map fun fr => if fr.first = first then f fr else fr } }

/-- Every frame of a set was acknowledged with OK. -/
def setAcked (x : NzSet) : Bool := x.frames.all fun f => f.st == 3

/-- A CORR_ACK records its status; TOO_LATE and RANGE raise CORR_NACK. [DEDUCED, log 71] -/
def takeCorrAck (f : RxFrame) : Eff := rd fun s =>
  let p := f.src.toNat
  let cycle := leAt f.payload 0 3
  let first := leAt f.payload 3 2
  let st := leAt f.payload 7 1
  let hit := fun (m : Nat) => modValid s m && modPartnerOf s m == p && (match (nzModOf s m).set with
    | some x => x.cycle % 2 ^ 24 == cycle && x.frames.any fun fr => fr.first == first
    | none => false)
  match firstWhere hit (upto 1024) with
  | none => skip
  | some m => chain [
      match st with
      | 0 => modFrame m first fun fr => { fr with st := 3 }
      | 3 => modFrame m first fun fr => { fr with st := if fr.st = 3 then 3 else 2, since := s.raw }
      | _ => when (st == 1 || st == 2) (chain [
          modFrame m first fun fr => { fr with st := if fr.st = 3 then 3 else 4 },
          raise 0x061A p notice cycle (st * 2 ^ 32 + first)]),
      rd fun s' => when (((nzModOf s' m).set.map setAcked) == some true) (modNzMod m fun y => { y with st := 3 })]

/-- CORR_ACK_RECEIVE. -/
def execCorrAckReceive (f : RxFrame) (s : State) : Host.Outcome State Fault Refusal :=
  .next (go (receivePlain f 0x23 (takeCorrAck f)) s)

/-- A frame sent, or answered BUSY, 100 microseconds ago is resent until the deadline (R115). -/
def corrResend (m n : Nat) : Eff := rd fun s => match (nzModOf s m).set with
  | none => skip
  | some x => match x.frames.drop n with
    | fr :: _ =>
      when (modValid s m && (fr.st == 1 || fr.st == 2) && decide (fr.since + 50000 ≤ s.raw) && decide (timeNow s < x.apply - moduleLead s m)
          && isActive s (modPartnerOf s m)) (chain [
        modFrame m fr.first fun fr => { fr with st := 0 },
        sendTo (modPartnerOf s m) 1 0x22 (.corr m fr.first
          (corrPayload x fr.first fr.count (n + 1 == x.frames.length)))])
    | [] => skip

/-- CORR_RESEND. -/
def execCorrResend (m : Fin 1024) (frame : Fin 16) (s : State) : Host.Outcome State Fault Refusal :=
  .next (go (corrResend m frame) s)

/-! ## UNSURE (R285) -/

/-- A module becomes UNSURE. -/
def resyncMod (m why : Nat) : Eff := rd fun s => chain [
  modNzMod m fun y => { y with unsure := true },
  raise 0x0D17 m notice (modPartnerOf s m) why]

/-- An ALIVE that makes its entry ACTIVE makes the partner's modules UNSURE. -/
def aliveReceive (f : RxFrame) : Eff := rd fun s => chain [
  takeAlive f,
  rd fun s' => when (!isActive s f.src.toNat && isActive s' f.src.toNat)
    (each ((upto 1024).filter fun m => modValid s m && modPartnerOf s m == f.src.toNat) fun m => resyncMod m 1)]

/-- ALIVE_RECEIVE. -/
def execAliveReceive (f : RxFrame) (s : State) : Host.Outcome State Fault Refusal :=
  .next (go (receivePlain f 0x01 (aliveReceive f)) s)

/-- A write of NZL_SD_CTRL: setting EN makes the side's modules UNSURE. [DEDUCED, log 70] -/
def sideWrite (ini : Ini) (d : Nat) (v : Word) : Eff := writeLevel ini (Reg.NZL_SD_CTRL d) v fun old new =>
  when (!bit old 30 && bit new 30) (rd fun s => each (sideMods s d) fun m => resyncMod m 2)

/-- SIDE_ENABLE. -/
def execSideEnable (ini : Ini) (side : Fin 2) (v : Word) (s : State) : Host.Outcome State Fault Refusal :=
  .next (go (busWrite ini (Reg.NZL_SD_CTRL side) v (sideWrite ini side v)) s)

/-! ## The deadline and the commit (R283 to R285) -/

/-- The reason of a miss (R284). -/
def missReason (s : State) (m : Nat) (x : NzSet) : Nat :=
  if !isActive s (modPartnerOf s m) then 1
  else if x.frames.any fun f => f.st == 4 then 2
  else if x.late then 3 else 4

/-- The ledger CORR of each unpinned nozzle of a module takes a word. -/
def restoreCorr (m : Nat) (w : Nat → Nat) : Eff := rd fun s => each (modNozzles s m) fun z =>
  let e := ledgerGet s z.idx
  when (!e.pin && e.corr != w z.i) (ledgerPut z.idx { e with corr := w z.i })

/-- A module misses D_COMP. -/
def dcompMiss (d m : Nat) (x : NzSet) : Eff := rd fun s =>
  let neutral := regBit s (Reg.NZL_SD_CTRL d) 1
  let cur := (nzModOf s m).cur
  chain [
    modNzMod m fun y => { y with set := none, st := 4, neutralNext := neutral },
    modSide d fun y => { y with missed := y.missed + 1 },
    countSat (Reg.NZL_MOD_MISS m) 1,
    sideCount d 1 1,
    raiseMerge 0x0D11 m degraded x.cycle (missReason s m x + 256 * (x.frames.filter fun f => f.st != 3).length),
    deadlineMiss 2,
    restoreCorr m (if neutral then fun _ => neutralWord else wordIn cur),
    resyncMod m 3]

/-- The deadline of a module's set, where it has passed. [DEDUCED, log 71] -/
def judgeMod (d m : Nat) : Eff := rd fun s => match (nzModOf s m).set with
  | none => skip
  | some x => when (!x.met && decide (x.apply - moduleLead s m ≤ timeNow s)) (
      if setAcked x then chain [
        modNzMod m fun y => { y with set := some { x with met := true }, st := 3 },
        modSide d fun y => { y with acked := y.acked + 1 }]
      else dcompMiss d m x)

/-- D_COMP of a side: every due module whose deadline has passed is judged; with the last one the cycle is reported.
[DEDUCED, log 71] -/
def dcompDeadline (d : Nat) : Eff := chain [
  rd fun s => each (sideMods s d) (judgeMod d),
  rd fun s =>
    let x := sideOf s d
    let waits := (sideMods s d).any fun m => match (nzModOf s m).set with
      | some y => !y.met
      | none => false
    match x.report with
    | some k => when (!waits) (chain [
        raise 0x0D10 (0x1000 + d) notice k (x.acked % 2 ^ 16 + x.missed % 2 ^ 16 * 2 ^ 16 + x.changes * 2 ^ 32),
        modSide d fun x => { x with report := none }])
    | none => skip]

/-- DCOMP_DEADLINE. -/
def execDcompDeadline (side : Fin 2) (s : State) : Host.Outcome State Fault Refusal := .next (go (dcompDeadline side) s)

/-- An ACKED module commits its set at its apply point (R283). -/
def commitMod (m : Nat) : Eff := rd fun s => match (nzModOf s m).set with
  | none => skip
  | some x => when (x.met && decide (x.apply ≤ timeNow s)) (modNzMod m fun y => { y with
      set := none, prev := y.cur, wPrev := y.wCur, commits := y.commits + 1
      cur := if x.neutral then [] else x.words
      wCur := some (webAt (jobWeb s) x.apply / 1000000)
      unsure := false, force := x.cycle })

/-- CORR_COMMIT. -/
def execCorrCommit (side : Fin 2) (s : State) : Host.Outcome State Fault Refusal :=
  .next (go (rd fun s => each (sideMods s side) commitMod) s)

/-! ## The ledger (R267) -/

/-- A commit of an entry: STATE, PIN and CORR take the written values; STATE 7 is refused, and STATE 0 clears the
measured fields and the confirmation count. [DEDUCED, log 71] -/
def ledgerCommit (n : Nat) (v : Nat) : Eff := rd fun s =>
  let w := ledgerOf v
  match moduleAt s n with
  | none => raise 0x0D18 0xFFFF notice n (v / 2 ^ 32)
  | some m =>
    let e := ledgerGet s n
    let e1 := { e with st := if w.st = 7 then e.st else w.st, pin := w.pin, corr := w.corr }
    chain [
      when (w.st == 7) (raise 0x0D18 m notice n (v / 2 ^ 32)),
      ledgerPut n (if w.st = 0 then { e1 with dens := 0, posX := 0, posY := 0, conf := 0, age := 0 } else e1),
      when (w.st == 0) (modNzl fun x => { x with
        confirm := mdel n x.confirm, taken := x.taken.filter (· != n) })]

/-- BAR0 offset of an entry's low word. -/
def ledgerOff (n : Nat) : Nat := 0x03000000 + 8 * n

/-- A write of a word of the ledger: the low word is held, the high word commits (R9, R267). [DEDUCED, log 18] -/
def ledgerWrite (ini : Ini) (off : Nat) (v : Word) : Eff := rd fun s =>
  let n := (off - 0x03000000) / 8
  if off % 8 = 0 then modAcc fun a => { a with held := mput (latchKey ini off) v a.held }
  else
    let lo := (mget? (latchKey ini (off - 4)) s.acc.held).getD (word (ledgerWord s n))
    chain [
      modAcc fun a => { a with held := mdel (latchKey ini (off - 4)) a.held },
      ledgerCommit n (v.toNat * 2 ^ 32 + lo.toNat)]

/-- LEDGER_WRITE. -/
def execLedgerWrite (ini : Ini) (n : BitVec 20) (v : Word) (s : State) : Host.Outcome State Fault Refusal :=
  .next (go (busWrite ini (ledgerOff n.toNat + 4) v (ledgerWrite ini (ledgerOff n.toNat + 4) v)) s)

/-- A read of a word of the ledger (R8, R267). [DEDUCED, log 18] -/
def ledgerRead (ini : Ini) (off : Nat) : Eff := rd fun s =>
  let n := (off - 0x03000000) / 8
  if off % 8 = 0 then chain [
    when (moduleAt s n).isSome (reportPoison 0x0D (poisoned s (ledgerAt s n) 8)),
    readLow ini off (word (ledgerWord s n)) [word (ledgerWord s n / 2 ^ 32)]]
  else readHigh ini off

/-! ## Registers of NZL (R288) -/

/-- The words of a side that are views of its state. -/
def nzSideView (s : State) (d r : Nat) : Option Word :=
  if r = 0x04 then some (word (b2n (sideExpert s d) * 2 ^ 24 + (sideOf s d).closed % 2 ^ 24))
  else if sideExpert s d then none
  else if r = 0x0C then some (word (gainR s d * 2 ^ 8 + gainS s d))
  else if r = 0x10 then some (word (tFail s d * 2 ^ 16 + tGood s d))
  else if r = 0x14 then some (word (tPos s d * 2 ^ 16 + confirmCount s d))
  else if r = 0x18 then some (word (substPct s d))
  else if 0x8C ≤ r ∧ r < 0xAC then some (word (mget 0 ((r - 0x8C) / 4) (sideOf s d).dnom))
  else none

/-- STATE of NZL_MOD_STATUS. -/
def nzModState (x : NzMod) : Nat := match x.set with
  | some y => if x.st = 1 ∧ (y.frames.any fun f => f.st != 0) then 2 else x.st
  | none => x.st

/-- The words of NZL that are views of its state. -/
def nzView (s : State) (off : Nat) : Option Word :=
  let rel := off - Reg.NZL_CTRL
  if off = Reg.NZL_STATUS then some (word ((upto 1024).filter (modValid s)).length)
  else if 0x1000 ≤ rel ∧ rel < 0x1200 then nzSideView s ((rel - 0x1000) / 0x100) (rel % 0x100)
  else if 0x10000 ≤ rel ∧ rel < 0x18000 then
    let m := (rel - 0x10000) / 0x20
    let x := nzModOf s m
    if rel % 0x20 = 0x14 then some (word (nzModState x * 2 ^ 28 + b2n x.unsure * 2 ^ 27 + x.force % 2 ^ 24))
    else if rel % 0x20 = 0x18 then
      some (word ((modNozzles s m).filter fun z => isOff (ledgerGet s z.idx).corr).length)
    else none
  else none

/-- The effect of a write on an NZL register; none where the register is an ordinary one. -/
def nzWrite (ini : Ini) (off : Nat) (v : Word) : Option Eff :=
  let rel := off - Reg.NZL_CTRL
  if 0x1000 ≤ rel ∧ rel < 0x1200 then
    let d := (rel - 0x1000) / 0x100
    if rel % 0x100 = 0 then some (sideWrite ini d v)
    else if rel % 0x100 = 0x1C then some (when (decide (fld v 9 0 ≤ fld v 25 16)) (writePlain ini off v))
    else none
  else none

end Sys2Proof.Machine
end

