-- ==== Sys2Proof/Machine/Wire.lean ====
section
/-!
DEFINITION. The four two-wire buses of PER: controller transfers, the TWB0 target, in-band requests, low-time timeouts,
timing and bus load (R463 to R472).
-/
namespace Sys2Proof.Machine

/-- One bus, and changing it. -/
def twbOf (s : State) (n : Nat) : Twb := mget {} n s.per.buses
def modTwb (n : Nat) (f : Twb → Twb) : Eff :=
  modPer fun p => { p with buses := mput n (f (mget {} n p.buses)) p.buses }

/-- PER works: it is powered and main reset is released. -/
def perOn (s : State) : Bool := blockPowered s 0x11 && !s.mainReset

/-- A write of a PER unit that is busy is ignored (R464, R476). -/
def perBusy (src off : Nat) (v : Word) : Eff := raise 0x111A src notice off v.toNat

/-! ## Timing (R471) -/

/-- The figures of a mode: 1/f, t_LOW, t_HIGH, t_SU;DAT, t_r max and HD_DAT, in ns. -/
def twbMode (speed : Nat) : Nat × Nat × Nat × Nat × Nat × Nat :=
  match speed with
  | 0 => (10000, 4700, 4000, 250, 1000, 300)
  | 1 => (2500, 1300, 600, 100, 300, 300)
  | _ => (1000, 500, 260, 50, 120, 120)

/-- Rounded up to 10 ns. -/
def up10 (n : Nat) : Nat := ceilDiv n 10 * 10

/-- The rise times (t_SCL, t_SDA) in force: the last measurement, or t_r max of the mode. -/
def twbRise (s : State) (n : Nat) : Nat × Nat :=
  let m := twbMode (regFld s (Reg.TWB_CTRL n) 29 28)
  (twbOf s n).rise.getD (m.2.2.2.2.1, m.2.2.2.2.1)

/-- T_LOW, T_HIGH and HD_DAT in ns: derived at the basic level, as written at the expert level. [DEDUCED, log 119] -/
def twbTiming (s : State) (n : Nat) : Nat × Nat × Nat :=
  if atExpert s (Reg.TWB_CTRL n) then
    let w := regGet s (Reg.TWB_TIMING n)
    (fld w 19 10 * 10, fld w 29 20 * 10, fld w 5 0 * 10)
  else
    let m := twbMode (regFld s (Reg.TWB_CTRL n) 29 28)
    let r := twbRise s n
    let hd := m.2.2.2.2.2
    let low := up10 (max m.2.1 (hd + r.2 + m.2.2.2.1))
    (low, up10 (max m.2.2.1 (m.1 - low - r.1)), hd)

/-- The clock period in ns, and TWB_SU: the frequency and the set-up time. -/
def twbPeriod (s : State) (n : Nat) : Nat :=
  let t := twbTiming s n
  t.1 + (twbRise s n).1 + t.2.1
def twbFreq (s : State) (n : Nat) : Nat := min 65535 (1000000 / twbPeriod s n)
def twbSetup (s : State) (n : Nat) : Nat :=
  let t := twbTiming s n
  min 4095 (t.1 - t.2.2 - (twbRise s n).2)

/-- SLOW: the derived period exceeds 1/f, or a measured rise time exceeds t_r max. [DEDUCED, log 120] -/
def twbSlow (s : State) (n : Nat) : Bool :=
  let m := twbMode (regFld s (Reg.TWB_CTRL n) 29 28)
  let r := twbRise s n
  (!atExpert s (Reg.TWB_CTRL n) && decide (m.1 < twbPeriod s n)) || decide (m.2.2.2.2.1 < r.1 ∨ m.2.2.2.2.1 < r.2)

/-- TWB_BUS_SLOW is raised once per measurement. [DEDUCED, log 120] -/
def twbSlowCheck (n : Nat) : Eff := rd fun s => when (twbSlow s n && !(twbOf s n).slow) (chain [
  modTwb n fun b => { b with slow := true },
  raise 0x1116 n degraded (twbFreq s n) ((twbRise s n).2 * 2 ^ 32 + (twbRise s n).1)])

/-- The boundary of a bus: LEVEL and measured rise times take effect (R20, R472). -/
def twbBoundary (n : Nat) : Eff := chain [
  levelBoundary (Reg.TWB_CTRL n),
  rd fun s => match (twbOf s n).riseNext with
    | some r => modTwb n fun b => { b with rise := some r, riseNext := none, slow := false }
    | none => skip,
  twbSlowCheck n]

/-! ## Transfers (R464, R465) -/

/-- A transfer ends: DONE, RESULT, BYTES, the counters, and TWB_DONE. [DEDUCED, log 119] -/
def twbEnd (n res k : Nat) : Eff := chain [
  putBit (Reg.TWB_XFER n) 31 false,
  modTwb n fun b => { b with busy := false, running := false, done := true, bytes := k, result := res },
  countUp (Reg.TWB_XFERS n) 1,
  when (res != 0) (countSat (Reg.TWB_ERRS n) 1),
  raise 0x1111 n notice res k]

/-- A START on TWB0 ends a request of its target without effect (R469). -/
def dropRequest : Eff := chain [
  putBit Reg.TWB_TGT_CTRL 30 false,
  modTwb 0 fun b => { b with asking := false }]

/-- The bytes of consecutive words, byte j at bits [8(j mod 4)+7 : 8(j mod 4)] of word j div 4. -/
def wordBytes (s : State) (base n : Nat) : List Byte :=
  ((upto 8).flatMap fun k => leBytes 4 (regGet s (base + 4 * k)).toNat).take n

/-- Bytes go into consecutive words in the same layout; bytes past the last one keep their values. -/
def putBytes (base : Nat) (bs : List Byte) : Eff := each ((bs.take 32).zipIdx) fun e =>
  putFld (base + 4 * (e.2 / 4)) (8 * (e.2 % 4) + 7) (8 * (e.2 % 4)) e.1.toNat

/-- A waiting transfer, or else a waiting measurement, starts on an enabled bus that is free. [DEDUCED, log 119] -/
def twbTry (n : Nat) : Eff := rd fun s =>
  let b := twbOf s n
  let x := regGet s (Reg.TWB_XFER n)
  when (regBit s (Reg.TWB_CTRL n) 31 && b.free && !b.running && !b.measRun) (
    if b.busy then chain [
      when (n == 0) dropRequest,
      modTwb n fun t => { t with running := true, free := false },
      emit (.twbStart n (fld x 22 16) (bit x 30) (if bit x 30 then [] else wordBytes s (Reg.TWB_TX n 0) (fld x 5 0))
        (if bit x 30 then 0 else fld x 13 8))]
    else when b.measuring (modTwb n fun t => { t with measRun := true, free := false }))

/-- The bus is seen free: its boundary, and what waits starts. A request that the target could not yet make is made; one
that it drove has been acknowledged. [DEDUCED, log 120] -/
def twbFree (n : Nat) : Eff := chain [
  modTwb n fun b => { b with free := true },
  twbBoundary n,
  rd fun s => when (n == 0 && regBit s Reg.TWB_TGT_CTRL 30)
    (if (twbOf s 0).asking then dropRequest
    else when (!(twbOf s 0).busy) (chain [modTwb 0 fun b => { b with asking := true }, emit .ibrRequest])),
  twbTry n]

/-- GO. [DEDUCED, log 119] -/
def twbGo (n : Nat) : Eff := rd fun s =>
  let x := regGet s (Reg.TWB_XFER n)
  chain [
    modTwb n fun b => { b with done := false },
    if n = 0 ∧ fld x 22 16 = regFld s Reg.TWB_TGT_CTRL 6 0 then twbEnd n 7 0
    else if !bit x 30 ∧ fld x 13 8 = 0 ∧ fld x 5 0 = 0 then twbEnd n 0 0
    else chain [modTwb n fun b => { b with busy := true }, twbTry n]]

/-- A write of TWB_XFER. -/
def twbXfer (ini : Ini) (n : Nat) (v : Word) : Eff := rd fun s =>
  if (twbOf s n).busy then perBusy n (Reg.TWB_XFER n) v
  else writeReg ini (Reg.TWB_XFER n) v fun _ _ => when (bit v 31) (twbGo n)

/-- TWB_XFER_GO: a write of TWB_XFER with GO set and PROBE clear. -/
def execTwbXferGo (ini : Ini) (n : Fin 4) (v : Word) (s : State) : Host.Outcome State Fault Refusal :=
  let w := setFld v 31 30 2
  .next (go (busWrite ini (Reg.TWB_XFER n) w (twbXfer ini n w)) s)

/-- TWB_PROBE: a write of TWB_XFER with GO and PROBE set. -/
def execTwbProbe (ini : Ini) (n : Fin 4) (v : Word) (s : State) : Host.Outcome State Fault Refusal :=
  let w := setFld v 31 30 3
  .next (go (busWrite ini (Reg.TWB_XFER n) w (twbXfer ini n w)) s)

/-- A running transfer ends; a STOP frees the bus, a lost arbitration leaves it to the winner. -/
def twbDone (n : Nat) (how : XferEnd) : Eff := rd fun s => when (perOn s && (twbOf s n).running) (
  let x := regGet s (Reg.TWB_XFER n)
  match how with
  | .ok bs => chain [
      when (!bit x 30) (putBytes (Reg.TWB_RX n 0) (bs.take (fld x 13 8))),
      twbEnd n 0 (if bit x 30 then 0 else fld x 5 0 + fld x 13 8),
      twbFree n]
  | .nackAddr k => chain [twbEnd n 1 k.toNat, twbFree n]
  | .nackData k => chain [twbEnd n 2 k.toNat, twbFree n]
  | .arbLost k => chain [twbEnd n 3 k.toNat, raise 0x1110 n notice (fld x 22 16) k.toNat])

/-- TWB_XFER_DONE. -/
def execTwbXferDone (n : Fin 4) (how : XferEnd) (s : State) : Host.Outcome State Fault Refusal :=
  .next (go (twbDone n how) s)

/-- TWB_BUS_FREE. -/
def execTwbBusFree (n : Fin 4) (s : State) : Host.Outcome State Fault Refusal :=
  .next (go (when (perOn s && !(twbOf s n).running && !(twbOf s n).measRun) (twbFree n)) s)

/-! ## The TWB0 target (R466) and in-band requests (R468, R469) -/

/-- A controller writes to the target; with RX_FULL its address is not acknowledged. [DEDUCED, log 119] -/
def targetWrite (bs : List Byte) : Eff := rd fun s => when (perOn s && regBit s Reg.TWB_TGT_CTRL 31) (chain [
  dropRequest,
  when (!regBit s Reg.TWB_TGT_STATUS 31) (chain [
    putBytes (Reg.TWB_TGT_RX 0) bs,
    putBit Reg.TWB_TGT_STATUS 31 true,
    putFld Reg.TWB_TGT_STATUS 5 0 (min 32 bs.length),
    raise 0x1115 0 notice 0 (min 32 bs.length)])])

/-- TWB_TARGET_WRITE. -/
def execTwbTargetWrite (bytes : List Byte) (s : State) : Host.Outcome State Fault Refusal :=
  .next (go (targetWrite bytes) s)

/-- A controller reads `n` bytes from the target; without TX_READY its address is not acknowledged. After a match in REST
every byte is 0xFF (R467). [DEDUCED, log 119] -/
def targetRead (n : Nat) : Eff := rd fun s =>
  if s.ham.st == .rest && s.ham.twb0.isSome then emit (.twbSend (List.replicate n 0xFF#8))
  else when (perOn s && regBit s Reg.TWB_TGT_CTRL 31) (chain [
  dropRequest,
  when (regBit s Reg.TWB_TGT_CTRL 29) (chain [
    emit (.twbSend ((wordBytes s (Reg.TWB_TGT_TX 0) (regFld s Reg.TWB_TGT_CTRL 13 8) ++ List.replicate n 0xFF#8).take n)),
    putBit Reg.TWB_TGT_CTRL 29 false,
    raise 0x1115 0 notice 1 n])])

/-- TWB_TARGET_READ. -/
def execTwbTargetRead (count : BitVec 16) (s : State) : Host.Outcome State Fault Refusal :=
  .next (go (targetRead count.toNat) s)

/-- RX_FULL_CLEAR. -/
def execRxFullClear (ini : Ini) (v : Word) (s : State) : Host.Outcome State Fault Refusal :=
  .next (go (busWrite ini Reg.TWB_TGT_STATUS v (writePlain ini Reg.TWB_TGT_STATUS v)) s)

/-- A write of TWB_TGT_CTRL: IBR_GO requests once the bus is free. -/
def tgtCtrl (ini : Ini) (v : Word) : Eff := writeReg ini Reg.TWB_TGT_CTRL v fun _ _ => rd fun s =>
  when (bit v 30 && (twbOf s 0).free && !(twbOf s 0).asking)
    (chain [modTwb 0 fun b => { b with asking := true }, emit .ibrRequest])

/-- TX_READY_SET: a write of TWB_TGT_CTRL with TX_READY set. -/
def execTxReadySet (ini : Ini) (v : Word) (s : State) : Host.Outcome State Fault Refusal :=
  let w := setFld v 29 29 1
  .next (go (busWrite ini Reg.TWB_TGT_CTRL w (tgtCtrl ini w)) s)

/-- IBR_GO: a write of TWB_TGT_CTRL with IBR_GO set. -/
def execIbrGo (ini : Ini) (v : Word) (s : State) : Host.Outcome State Fault Refusal :=
  let w := setFld v 30 30 1
  .next (go (busWrite ini Reg.TWB_TGT_CTRL w (tgtCtrl ini w)) s)

/-- An in-band request is acknowledged: SDA has been low for `us` microseconds on a bus with IBR_EN.
[DEDUCED, log 120] -/
def ibrDetect (n us : Nat) : Eff := rd fun s =>
  let c := regGet s (Reg.TWB_CTRL n)
  when (perOn s && bit c 31 && bit c 30 && (twbOf s n).free && !(twbOf s n).running && decide (regFld s (Reg.TWB_IBR n) 7 0 ≤ us)) (chain [
    emit (.ibrAck n),
    modTwb n fun b => { b with free := false },
    when (n == 0) dropRequest,
    putBit (Reg.TWB_STATUS n) 28 true,
    raise 0x1114 n notice us 0])

/-- IBR_DETECT. -/
def execIbrDetect (n : Fin 4) (us : BitVec 16) (s : State) : Host.Outcome State Fault Refusal :=
  .next (go (ibrDetect n us.toNat) s)

/-! ## Timeouts and recovery (R470) -/

/-- SCL is low beyond SCL_LOW_US: a running transfer ends with RESULT 4 after `k` data bytes. [DEDUCED, log 120] -/
def sclTimeout (n us k : Nat) : Eff := rd fun s =>
  let lim := regFld s (Reg.TWB_TO n) 31 16
  when (perOn s && decide (lim ≠ 0 ∧ lim ≤ us)) (chain [
    when (n == 0) (modTwb 0 fun b => { b with asking := false }),
    modTwb n fun b => { b with free := false },
    when (twbOf s n).running (twbEnd n 4 k),
    raise 0x1112 n degraded 1 us])

/-- SCL_LOW_TIMEOUT. -/
def execSclLowTimeout (n : Fin 4) (us : BitVec 32) (k : BitVec 6) (s : State) : Host.Outcome State Fault Refusal :=
  .next (go (sclTimeout n us.toNat k.toNat) s)

/-- SDA is low beyond SDA_LOW_US while no transfer runs: the recovery with `pulses` clock pulses and a STOP.
[DEDUCED, log 120] -/
def sdaTimeout (n us pulses : Nat) (ok : Bool) : Eff := rd fun s =>
  let lim := regFld s (Reg.TWB_TO n) 15 0
  when (perOn s && !(twbOf s n).running && decide (lim ≠ 0 ∧ lim ≤ us)) (
    if ok then chain [raise 0x1113 n notice pulses 0, twbFree n]
    else chain [raise 0x1112 n degraded 2 us, when (twbOf s n).busy (twbEnd n 5 0)])

/-- SDA_LOW_TIMEOUT. -/
def execSdaLowTimeout (n : Fin 4) (us : BitVec 32) (pulses : Fin 10) (ok : Bool) (s : State) :
    Host.Outcome State Fault Refusal :=
  .next (go (sdaTimeout n us.toNat pulses ok) s)

/-! ## Bus load (R472) -/

/-- A write of TWB_MEAS. [DEDUCED, log 119] -/
def twbMeas (ini : Ini) (n : Nat) (v : Word) : Eff := writeReg ini (Reg.TWB_MEAS n) v fun _ _ => when (bit v 31) (chain [
  putBit (Reg.TWB_MEAS n) 30 false,
  modTwb n fun b => { b with measuring := true },
  twbTry n])

/-- TWB_MEAS_GO. -/
def execTwbMeasGo (ini : Ini) (n : Fin 4) (v : Word) (s : State) : Host.Outcome State Fault Refusal :=
  let w := setFld v 31 31 1
  .next (go (busWrite ini (Reg.TWB_MEAS n) w (twbMeas ini n w)) s)

/-- The estimated capacitance in pF for a rise time in ns. -/
def capOf (t ohm : Nat) : Nat := min 4095 (t * 10000000 / (8473 * ohm))

/-- A running measurement ends with the rise times (t_SCL, t_SDA) in ns, or is abandoned because another controller
starts. [DEDUCED, log 120] -/
def twbMeasured (n : Nat) (r : Option (Nat × Nat)) : Eff := rd fun s => when (perOn s && (twbOf s n).measRun) (chain [
  putBit (Reg.TWB_MEAS n) 31 false,
  modTwb n fun b => { b with measuring := false, measRun := false },
  match r with
  | none => skip
  | some (scl, sda) =>
    let ohm := regFld s (Reg.TWB_MEAS n) 15 0
    let tr := min 4095 sda * 2 ^ 16 + min 4095 scl
    let c := capOf sda ohm * 2 ^ 16 + capOf scl ohm
    chain [
      setReg (Reg.TWB_TR n) (word tr),
      setReg (Reg.TWB_CAP n) (word c),
      putBit (Reg.TWB_MEAS n) 30 true,
      modTwb n fun b => { b with riseNext := some (min 4095 scl, min 4095 sda) },
      raise 0x1117 n notice tr c,
      twbFree n]])

/-- TWB_MEAS_DONE. -/
def execTwbMeasDone (n : Fin 4) (rise : Option (BitVec 16 × BitVec 16)) (s : State) :
    Host.Outcome State Fault Refusal :=
  .next (go (twbMeasured n (rise.map fun r => (r.1.toNat, r.2.toNat))) s)

/-! ## Registers -/

/-- A write of TWB_CTRL: what waits may start, and a bus that is free is at its boundary. -/
def twbCtrl (ini : Ini) (n : Nat) (v : Word) : Eff := writeReg ini (Reg.TWB_CTRL n) v fun _ _ => rd fun s =>
  chain [
    if (twbOf s n).free && !(twbOf s n).running then twbBoundary n else twbSlowCheck n,
    twbTry n]

/-- The bus number and the distance in its register space of an offset in the space of the buses. -/
def twbPlace (off : Nat) : Nat × Nat := ((off - Reg.TWB_CTRL 0) / 0x100, (off - Reg.TWB_CTRL 0) % 0x100)

/-- Writes of bus registers with an effect beyond their fields. -/
def twbWrite (ini : Ini) (off : Nat) (v : Word) : Option Eff :=
  let p := twbPlace off
  if p.2 = 0 then some (twbCtrl ini p.1 v)
  else if p.2 = 8 then some (twbXfer ini p.1 v)
  else if p.2 = 0x18 then some (twbMeas ini p.1 v)
  else if 0x28 ≤ p.2 ∧ p.2 < 0x48 then
    some (rd fun s => if (twbOf s p.1).busy then perBusy p.1 off v else writePlain ini off v)
  else if off = Reg.TWB_TGT_CTRL then some (tgtCtrl ini v)
  else none

/-- The words of the buses that are views of their state. -/
def twbView (s : State) (off : Nat) : Option Word :=
  let n := (twbPlace off).1
  let d := (twbPlace off).2
  let b := twbOf s n
  if d = 4 then
    some (word (b2n b.busy * 2 ^ 31 + b2n b.done * 2 ^ 30 + b2n b.free * 2 ^ 29
      + b2n (regBit s off 28) * 2 ^ 28 + b2n (twbSlow s n) * 2 ^ 27 + b2n (atExpert s (Reg.TWB_CTRL n)) * 2 ^ 24
      + b.bytes * 2 ^ 8 + b.result))
  else if d = 0x0C then
    let t := twbTiming s n
    some (word (min 1023 (t.2.1 / 10) * 2 ^ 20 + min 1023 (t.1 / 10) * 2 ^ 10 + min 63 (t.2.2 / 10)))
  else if d = 0x24 then some (word (twbFreq s n * 2 ^ 16 + twbSetup s n))
  else if off = Reg.TWB_TGT_STATUS then
    some (setFld (regGet s off) 30 30 (b2n (regBit s Reg.TWB_TGT_CTRL 29)))
  else none

end Sys2Proof.Machine
end

