-- ==== Sys2Proof/Machine/Pods.lean ====
section
/-!
DEFINITION. The Pod engines of PER: the step table, feed and catch queues, chains, starts and stops (R473 to R477).
-/
namespace Sys2Proof.Machine

/-- Engine `e` of block `b`, and changing it. -/
def podOf (s : State) (b e : Nat) : PodEng := mget {} (4 * b + e) s.per.pods
def modPod (b e : Nat) (f : PodEng → PodEng) : Eff :=
  modPer fun p => { p with pods := mput (4 * b + e) (f (mget {} (4 * b + e) p.pods)) p.pods }

/-- Level of pin `k` of a block: the lowest engine that enables a selected pin drives it. -/
def podPin (s : State) (b k : Nat) : Bool :=
  let outside := (nthD 0 b s.per.podPins).testBit k
  if regBit s (Reg.POD_PINSEL b) k then
    ((firstWhere (fun e => (podOf s b e).drive.testBit k) (upto 4)).map fun e => (podOf s b e).level.testBit k).getD outside
  else outside

/-- Pins of a window of `width` pins from `base`, in order. -/
def podWindow (base width : Nat) : List Nat := (upto width).map fun j => (base + j) % 16

/-- Feed and catch window of an engine. [DESIGN CHOICE, log 121] -/
def feedPins (s : State) (b e : Nat) : List Nat :=
  podWindow (regFld s (Reg.POD_E_PINS b e) 3 0) (regFld s (Reg.POD_E_PINS b e) 12 8)
def catchPins (s : State) (b e : Nat) : List Nat :=
  podWindow (regFld s (Reg.POD_E_PINS b e) 19 16) (regFld s (Reg.POD_E_PINS b e) 28 24)

/-- The number whose bits are a list, first bit lowest; and the bits of a word. -/
def ofBits : List Bool → Nat
  | [] => 0
  | b :: bs => b2n b + 2 * ofBits bs
def wordBits (w : Word) : List Bool := (upto 32).map w.toNat.testBit

/-- Words 0 and 1 of a step. -/
def stepWord (s : State) (b i w : Nat) : Word := regGet s (Reg.POD_STEP b (2 * i + w))

/-- The pattern of word 0 over the levels in force: the feed window keeps the levels that fed steps gave. -/
def podLevel (s : State) (b e : Nat) (w0 fed : Nat) : Nat :=
  (feedPins s b e).foldl (fun l k => setBits l k k (b2n (fed.testBit k))) (bits w0 31 16)

/-- A step that stops its engine before it begins (R474). -/
def stepBad (w1 : Word) : Bool := fld w1 8 7 != 0 || (fld w1 17 16 == 3 && decide (7 < fld w1 15 12))

/-- An engine begins a step: it faults, waits for its feed, or takes the step's pattern. -/
def podBegin (b e i : Nat) : Eff := rd fun s =>
  let p := podOf s b e
  let w0 := stepWord s b i 0
  let w1 := stepWord s b i 1
  let pins := feedPins s b e
  let stream := p.feedBits ++ p.feed.flatMap wordBits
  if stepBad w1 then chain [
    modPod b e fun q => { q with running := false, fault := true, enter := none, held := false },
    raise 0x1118 (4 * b + e) degraded i w1.toNat]
  else if bit w1 19 && decide (stream.length < pins.length) then
    modPod b e fun q => { q with enter := some i, held := false }
  else
    let n := if bit w1 19 then pins.length else 0
    let fed := ((pins.take n).zip stream).foldl (fun l x => setBits l x.1 x.1 (b2n x.2)) p.fed
    let more := ceilDiv (n - p.feedBits.length) 32
    modPod b e fun q => { q with
      enter := none, held := false, gated := false, step := i, fed := fed
      feed := q.feed.drop more
      feedBits := (q.feedBits ++ (q.feed.take more).flatMap wordBits).drop n
      drive := bits w0.toNat 15 0
      level := podLevel s b e w0.toNat fed }

/-- A catch word finds room in the queue it goes to: its own catch queue, or the feed queue of the next engine. -/
def catchRoom (s : State) (b e : Nat) : Bool :=
  if (podOf s b e).chain then decide ((podOf s b (e + 1)).feed.length < 16) else decide ((podOf s b e).catchQ.length < 16)

/-- A catch word is pushed. [DESIGN CHOICE, log 121] -/
def catchPush (b e : Nat) (w : Word) : Eff := rd fun s =>
  if (podOf s b e).chain then modPod b (e + 1) fun q => { q with feed := q.feed ++ [w] }
  else modPod b e fun q => { q with catchQ := q.catchQ ++ [w] }

/-- The gate of a step is open. -/
def gateOpen (s : State) (b : Nat) (w1 : Word) : Bool :=
  match fld w1 17 16 with
  | 0 => true
  | 1 => podPin s b (fld w1 15 12)
  | 2 => !podPin s b (fld w1 15 12)
  | _ => regBit s (Reg.POD_CUES b) (fld w1 15 12)

/-- The flow after a step (R474). -/
def podNext (b e : Nat) : Eff := rd fun s =>
  let p := podOf s b e
  let w1 := stepWord s b p.step 1
  let on := (p.step + 1) % 128
  let link := fld w1 6 0
  let loads := regGet s (Reg.POD_E_LOOP b e)
  match fld w1 11 9 with
  | 0 => podBegin b e on
  | 1 => if p.c0 ≠ 0 then chain [modPod b e fun q => { q with c0 := q.c0 - 1 }, podBegin b e link]
    else chain [modPod b e fun q => { q with c0 := fld loads 15 0 }, podBegin b e on]
  | 2 => if p.c1 ≠ 0 then chain [modPod b e fun q => { q with c1 := q.c1 - 1 }, podBegin b e link]
    else chain [modPod b e fun q => { q with c1 := fld loads 31 16 }, podBegin b e on]
  | 3 => podBegin b e link
  | 4 => podBegin b e (if podPin s b (fld w1 15 12) then link else on)
  | 5 => chain [putBit (Reg.POD_CUES b) (link % 8) true, podBegin b e on]
  | 6 => if p.catchBits.isEmpty then podBegin b e on
    else when (catchRoom s b e) (chain [
      catchPush b e (word (ofBits p.catchBits)),
      modPod b e fun q => { q with catchBits := [] },
      podBegin b e on])
  | _ => modPod b e fun q => { q with running := false, held := false }

/-- An engine goes on as far as it can: a waiting catch word, the gate, the flow; or the entry to a fed step. -/
def podAdvance (b e : Nat) : Eff := rd fun s =>
  let p := podOf s b e
  when p.running (
    match p.enter with
    | some i => podBegin b e i
    | none => when p.held (chain [
        when (catchRoom s b e) (match p.full with
          | some w => chain [catchPush b e w, modPod b e fun q => { q with full := none }]
          | none => skip),
        rd fun s' =>
          let w1 := stepWord s' b p.step 1
          when ((podOf s' b e).full.isNone && !p.gated && gateOpen s' b w1) (chain [
            when (fld w1 17 16 == 3) (putBit (Reg.POD_CUES b) (fld w1 15 12) false),
            modPod b e fun q => { q with gated := true }]),
        rd fun s' => when ((podOf s' b e).full.isNone && (podOf s' b e).gated) (podNext b e)]))

/-- The engines of a block that wait for one another go on; each round lets every engine move once. -/
def podRounds (b : Nat) : Eff := each (upto 6) fun _ => each (upto 4) fun e => podAdvance b e

/-- Engines that have waited begin their next step now. -/
def podNow (b : Nat) : Eff := rd fun s => each (upto 4) fun e => modPod b e fun q =>
  if q.running && (q.held || q.enter.isSome) then { q with since := max q.since (2 * s.raw) } else q

/-- Waiting engines of a block look again at what they wait for. -/
def podSettle (b : Nat) : Eff := chain [podNow b, podRounds b]

/-- The tick edge at which the hold of an engine's step ends, in ns of the raw counter: HOLD + 1 ticks of DIV cycles of
200 MHz (R473, R474). -/
def holdEnd (s : State) (b e : Nat) : Nat :=
  let p := podOf s b e
  p.since + 5 * (fld (stepWord s b p.step 1) 31 20 + 1) * regFld s (Reg.POD_E_CTRL b e) 15 0

/-- The hold of an engine's step, HOLD + 1 ticks long, has ended with the pins of its block at `pins` from outside; a caught
step samples them. An engine whose hold has ended already, and that waits at its gate, looks at the pins again.
[DESIGN CHOICE, log 121] -/
def podStepEnd (b e pins : Nat) : Eff := chain [
  modPer fun p => { p with podPins := setNth pins b p.podPins },
  podNow b,
  rd fun s =>
    let p := podOf s b e
    when (p.running && p.enter.isNone && !p.held && decide (holdEnd s b e ≤ 2 * s.raw)) (
      let w1 := stepWord s b p.step 1
      let got := if bit w1 18 then p.catchBits ++ (catchPins s b e).map (podPin s b) else p.catchBits
      modPod b e fun q => { q with
        held := true
        since := holdEnd s b e
        full := if 32 ≤ got.length then some (word (ofBits (got.take 32))) else none
        catchBits := if 32 ≤ got.length then got.drop 32 else got }),
  podRounds b]

/-- POD_STEP_END. -/
def execPodStepEnd (b : Fin 2) (e : Fin 4) (pins : BitVec 16) (s : State) : Host.Outcome State Fault Refusal :=
  .next (go (if perOn s then podStepEnd b e pins.toNat
    else when (hamOn s && !s.mainReset) (modPer fun p => { p with podPins := setNth pins.toNat b p.podPins })) s)

/-! ## Starts and stops (R477) -/

/-- CHAIN of an engine takes effect at its start, and a change empties the queues of both engines (R475). -/
def podChain (b e : Nat) : Eff := rd fun s =>
  let c := decide (e < 3) && regBit s (Reg.POD_E_CTRL b e) 29
  when (c != (podOf s b e).chain) (chain [
    modPod b e fun q => { q with chain := c, feed := [], catchQ := [] },
    modPod b (e + 1) fun q => { q with feed := [], catchQ := [] }])

/-- An engine starts. -/
def podRun (b e : Nat) : Eff := rd fun s =>
  let loads := regGet s (Reg.POD_E_LOOP b e)
  chain [
    modPod b e fun q => { q with
      running := true, since := 2 * s.raw, fault := false, enter := none, held := false, gated := false, full := none
      feedBits := [], catchBits := [], c0 := fld loads 15 0, c1 := fld loads 31 16 },
    podBegin b e (regFld s (Reg.POD_E_CTRL b e) 26 20)]

/-- The engines of a mask. -/
def podNamed (mask : Nat) : List Nat := (upto 8).filter mask.testBit

/-- Engines start on the same edge. [DESIGN CHOICE, log 121] -/
def podStartAll (mask : Nat) : Eff := chain [
  each (podNamed mask) fun i => podChain (i / 4) (i % 4),
  each (podNamed mask) fun i => podRun (i / 4) (i % 4),
  putFld Reg.POD_START 7 0 0,
  podSettle 0, podSettle 1,
  rd fun s => putFld Reg.POD_START 7 0 (s.per.podAt.foldl (fun m x => m ||| x.2) 0)]

/-- A write of PER_POD_START: at once, or at the device time in PER_POD_AT. -/
def podStart (ini : Ini) (v : Word) : Eff := writeReg ini Reg.POD_START v fun _ new => rd fun s =>
  let t : Int := sint 64 (regWide s Reg.POD_AT_LO Reg.POD_AT_HI) * 2 ^ 32
  when (fld v 7 0 != 0) (
    if bit new 8 && decide (timeNow s < t) then modPer fun p => { p with podAt := p.podAt ++ [(t, fld v 7 0)] }
    else podStartAll (fld v 7 0))

/-- POD_START: a write of PER_POD_START. -/
def execPodStart (ini : Ini) (v : Word) (s : State) : Host.Outcome State Fault Refusal :=
  .next (go (busWrite ini Reg.POD_START v (podStart ini v)) s)

/-- Device time reaches the start times of schedules: their engines start. [DESIGN CHOICE, log 121] -/
def podTimed : Eff := rd fun s =>
  let due := fun (x : Int × Nat) => decide (x.1 ≤ timeNow s)
  when (perOn s && s.per.podAt.any due) (chain [
    modPer fun p => { p with podAt := p.podAt.filter fun x => !due x },
    podStartAll ((s.per.podAt.filter due).foldl (fun m x => m ||| x.2) 0)])

/-- POD_TIMED_START. -/
def execPodTimedStart (s : State) : Host.Outcome State Fault Refusal := .next (go podTimed s)

/-- A write of PER_POD_STOP: the engines stop with their pins at the pattern in force, and their timed starts go.
[DESIGN CHOICE, log 121] -/
def podStop (ini : Ini) (v : Word) : Eff := writeReg ini Reg.POD_STOP v fun _ _ => chain [
  each (podNamed (fld v 7 0)) fun i =>
    modPod (i / 4) (i % 4) fun q => { q with running := false, enter := none, held := false },
  modPer fun p => { p with podAt := (p.podAt.map fun x => (x.1, clearMask x.2 (fld v 7 0))).filter fun x => x.2 != 0 },
  setReg Reg.POD_STOP 0#32,
  rd fun s => putFld Reg.POD_START 7 0 (clearMask (regFld s Reg.POD_START 7 0) (fld v 7 0))]

/-- POD_STOP. -/
def execPodStop (ini : Ini) (v : Word) (s : State) : Host.Outcome State Fault Refusal :=
  .next (go (busWrite ini Reg.POD_STOP v (podStop ini v)) s)

/-! ## Queues and cues (R474, R475) -/

/-- A word is pushed to a feed queue; a full queue, and one that an engine feeds, drop it. -/
def feedWrite (b e : Nat) (v : Word) : Eff := rd fun s =>
  let p := podOf s b e
  if p.feed.length < 16 && !(decide (0 < e) && (podOf s b (e - 1)).chain) then chain [
    modPod b e fun q => { q with feed := q.feed ++ [v] },
    podSettle b]
  else
    let n := min 65535 (regFld s (Reg.POD_E_LOST b e) 31 16 + 1)
    chain [putFld (Reg.POD_E_LOST b e) 31 16 n, raise 0x1119 (4 * b + e) notice n v.toNat]

/-- POD_FEED_WRITE. -/
def execPodFeedWrite (ini : Ini) (b : Fin 2) (e : Fin 4) (v : Word) (s : State) : Host.Outcome State Fault Refusal :=
  .next (go (busWrite ini (Reg.POD_E_FEED b e) v (feedWrite b e v)) s)

/-- A read of a catch queue pops its oldest word. -/
def catchRead (ini : Ini) (b e : Nat) : Eff := rd fun s =>
  match (podOf s b e).catchQ with
  | w :: ws => chain [
      emit (.read ini (Reg.POD_E_CATCH b e) w),
      modPod b e fun q => { q with catchQ := ws },
      podSettle b]
  | [] => chain [
      emit (.read ini (Reg.POD_E_CATCH b e) 0#32),
      putFld (Reg.POD_E_LOST b e) 15 0 (min 65535 (regFld s (Reg.POD_E_LOST b e) 15 0 + 1))]

/-- POD_CATCH_READ. -/
def execPodCatchRead (ini : Ini) (b : Fin 2) (e : Fin 4) (s : State) : Host.Outcome State Fault Refusal :=
  .next (go (busRead ini (Reg.POD_E_CATCH b e) (catchRead ini b e)) s)

/-- A write of POD_CUES sets cues. -/
def cueSet (ini : Ini) (b : Nat) (v : Word) : Eff := writeReg ini (Reg.POD_CUES b) v fun _ _ => podSettle b

/-- POD_CUE_SET. -/
def execPodCueSet (ini : Ini) (b : Fin 2) (v : Word) (s : State) : Host.Outcome State Fault Refusal :=
  .next (go (busWrite ini (Reg.POD_CUES b) v (cueSet ini b v)) s)

/-! ## Registers -/

/-- Some engine of a block runs. -/
def blockRuns (s : State) (b : Nat) : Bool := (upto 4).any fun e => (podOf s b e).running

/-- Writes of Pod registers with an effect beyond their fields (R475, R476). -/
def podWrite (ini : Ini) (off : Nat) (v : Word) : Option Eff :=
  let b := (off - Reg.POD_CUES 0) / 0x800
  let d := (off - Reg.POD_CUES 0) % 0x800
  let e := (d - 0x100) / 0x40
  if d = 0 then some (cueSet ini b v)
  else if 0x400 ≤ d then some (rd fun s => if blockRuns s b then perBusy b off v else writePlain ini off v)
  else if 0x100 ≤ d ∧ d % 0x40 < 0x0C then
    some (rd fun s => if (podOf s b e).running then perBusy (4 * b + e) off v else writePlain ini off v)
  else if 0x100 ≤ d ∧ d % 0x40 = 0x0C then some (feedWrite b e v)
  else none

/-- The STALL code of an engine. -/
def podStall (s : State) (b e : Nat) : Nat :=
  let p := podOf s b e
  let w1 := stepWord s b p.step 1
  if !p.running then 0
  else if p.enter.isSome then 1
  else if !p.held then 0
  else if p.full.isSome || p.gated then 2
  else if fld w1 17 16 = 3 then 4 else 3

/-- The words of the Pod blocks that are views of their state. -/
def podView (s : State) (off : Nat) : Option Word :=
  let b := (off - Reg.POD_CUES 0) / 0x800
  let d := (off - Reg.POD_CUES 0) % 0x800
  let e := (d - 0x100) / 0x40
  let p := podOf s b e
  if d = 8 then some (word (ofBits ((upto 16).map (podPin s b))))
  else if 0x100 ≤ d ∧ d < 0x200 then
    match d % 0x40 with
    | 0x00 => some (setFld (regGet s off) 31 30 (2 * b2n p.running + b2n p.fault))
    | 0x14 => some (word (p.step * 2 ^ 24 + p.feed.length * 2 ^ 16 + p.catchQ.length * 2 ^ 8 + podStall s b e))
    | 0x18 => some (word (p.c1 * 2 ^ 16 + p.c0))
    | _ => none
  else none

end Sys2Proof.Machine
end

