-- ==== Sys2Proof/Machine/Pins.lean ====
section
/-!
DEFINITION. GPIO pins, encoders and strobe outputs of PER, and PER's registers (R478 to R484).
-/
namespace Sys2Proof.Machine

/-! ## GPIO (R478) -/

/-- Levels of the GPIO pins: the safe level while GPIO_SAFE applies, the driven level of an output, else the level from
outside (R478, R479). [PRESUMED, log 122] -/
def gpioPin (s : State) (k : Nat) : Bool :=
  let out := regBit s Reg.GPIO_OUT k
  let od := regBit s Reg.GPIO_OD k
  if (safeActions s).testBit 2 && regBit s Reg.HAM_SAFE_GPIO k then regBit s Reg.HAM_SAFE_LEVEL k
  else if regBit s Reg.GPIO_OE k && (!od || !out) then out
  else s.per.gpio.testBit k

/-- What `e` does, with the edges of the GPIO pins that follow from it: an edge enabled in GPIO_RISE or GPIO_FALL sets the
pin's GPIO_PEND bit and raises GPIO_EDGE. [PRESUMED, log 122] -/
def pinEdges (e : Eff) : Eff := rd fun s => chain [
  e,
  rd fun t => when (perOn t) (each ((upto 24).filter fun k => gpioPin s k != gpioPin t k) fun k =>
    let level := gpioPin t k
    when (regBit t (if level then Reg.GPIO_RISE else Reg.GPIO_FALL) k) (chain [
      putBit Reg.GPIO_PEND k true,
      raiseMerge 0x111B (0x100 + k) notice k (if level then 1 else 2)]))]

/-- Bits of GPIO_OUT are set, or cleared. -/
def gpioSet (v : Word) : Eff := pinEdges (rd fun s => setReg Reg.GPIO_OUT (word ((regGet s Reg.GPIO_OUT).toNat ||| fld v 23 0)))
def gpioClr (v : Word) : Eff :=
  pinEdges (rd fun s => setReg Reg.GPIO_OUT (word (clearMask (regGet s Reg.GPIO_OUT).toNat (fld v 23 0))))

/-- GPIO_SET: a write sets bits of GPIO_OUT. -/
def execGpioSet (ini : Ini) (v : Word) (s : State) : Host.Outcome State Fault Refusal :=
  .next (go (busWrite ini Reg.GPIO_SET v (gpioSet v)) s)

/-- GPIO_CLR: a write clears bits of GPIO_OUT. -/
def execGpioClr (ini : Ini) (v : Word) (s : State) : Host.Outcome State Fault Refusal :=
  .next (go (busWrite ini Reg.GPIO_CLR v (gpioClr v)) s)

/-- The level that is applied to a pin from outside changes, in any state with main power. [PRESUMED, log 122] -/
def gpioEdge (pin : Nat) (level : Bool) : Eff := rd fun s => when (hamOn s && !s.mainReset)
  (pinEdges (modPer fun p => { p with gpio := setBits p.gpio pin pin (b2n level) }))

/-- GPIO_EDGE. -/
def execGpioEdge (pin : Fin 24) (level : Bool) (s : State) : Host.Outcome State Fault Refusal :=
  .next (go (gpioEdge pin level) s)

/-! ## Encoders (R480) -/

/-- What new levels of A and B mean for an encoder. -/
inductive EncStep where
  | none | count (down : Bool) | error
  deriving DecidableEq, Repr

/-- The counting modes: A leading B counts up in the quadrature modes. [PRESUMED, log 122] -/
def encStep (mode : Nat) (a b a' b' : Bool) : EncStep :=
  let rise := !a && a'
  if mode = 3 then (if rise then .count b' else .none)
  else if a != a' && b != b' then .error
  else if a == a' && b == b' then .none
  else
    let down := if a != a' then a' == b else a' != b'
    match mode with
    | 0 => .count down
    | 1 => if a != a' then .count down else .none
    | _ => if rise then .count down else .none

/-- Hamada counts an encoder's motion for the wake: in REST itself, in the mode that the cleared register names, and
otherwise what the encoder counts (R426, R480). [DEDUCED, log 112] -/
def armCount (e : Nat) (down : Bool) : Eff := modHam fun h =>
  { h with armEnc := setNth (nthD 0 e h.armEnc + if down then -1 else 1) e h.armEnc }

/-- Filtered levels A and B of an encoder change; in REST only Hamada counts. -/
def encoderCount (e : Nat) (a b : Bool) : Eff := rd fun s =>
  let old := nthD 0 e s.per.enc
  let c := regGet s (Reg.ENC_CTRL e)
  chain [
    modPer fun p => { p with enc := setNth (setBits (setBits old 0 0 (b2n a)) 1 1 (b2n b)) e p.enc },
    when (!perOn s || bit c 31) (match encStep (fld c 25 24) (old.testBit 0) (old.testBit 1) a b with
      | .count down => armCount e down
      | _ => skip),
    when (perOn s && bit c 31) (match encStep (fld c 25 24) (old.testBit 0) (old.testBit 1) a b with
      | .none => skip
      | .count down => chain [
          countUp (Reg.ENC_POS e) (if down then 0xFFFFFFFF else 1),
          modPer fun p => { p with encDown := setNth down e p.encDown },
          encCount e (!down)]
      | .error => chain [
          countSat (Reg.ENC_ERR e) 1,
          rd fun s' => raise 0x111C e notice (regGet s' (Reg.ENC_POS e)).toNat (regGet s' (Reg.ENC_ERR e)).toNat])]

/-- ENCODER_COUNT. -/
def execEncoderCount (e : Fin 4) (a b : Bool) (s : State) : Host.Outcome State Fault Refusal :=
  .next (go (when (hamOn s && !s.mainReset) (encoderCount e a b)) s)

/-- The filtered level of Z changes; the first edge to IDX_LEVEL copies the position. [PRESUMED, log 122] -/
def encIndex (e : Nat) (level : Bool) : Eff := rd fun s =>
  let old := nthD 0 e s.per.enc
  let c := regGet s (Reg.ENC_CTRL e)
  chain [
    modPer fun p => { p with enc := setNth (setBits old 2 2 (b2n level)) e p.enc },
    when (bit c 31 && bit c 30 && (old.testBit 2 != level) && (bit c 29 == level) && !regBit s (Reg.ENC_STATUS e) 31) (chain [
      setReg (Reg.ENC_IDX_POS e) (regGet s (Reg.ENC_POS e)),
      putBit (Reg.ENC_STATUS e) 31 true])]

/-- ENC_INDEX. -/
def execEncIndex (e : Fin 4) (level : Bool) (s : State) : Host.Outcome State Fault Refusal :=
  .next (go (when (perOn s) (encIndex e level)) s)

/-- ENC_POS_WRITE: a count in the same clock, with its new levels of A and B, is added to the written value. -/
def execEncPosWrite (ini : Ini) (e : Fin 4) (v : Word) (count : Option (Bool × Bool)) (s : State) :
    Host.Outcome State Fault Refusal :=
  .next (go (chain [
    busWrite ini (Reg.ENC_POS e) v (writePlain ini (Reg.ENC_POS e) v),
    rd fun s' => match count with
      | some (a, b) => when (perOn s') (encoderCount e a b)
      | none => skip]) s)

/-! ## Strobe outputs (R481, R482) -/

/-- STB_PULSE_START. -/
def execStbPulseStart (k : Fin 8) (s : State) : Host.Outcome State Fault Refusal :=
  .next (go (when (perOn s) (stbStart k)) s)

/-- The active phase of CONTINUOUS mode is over: DUTY_PM per mille of PERIOD_US have passed, short of the whole period. -/
def phaseOver (s : State) (k : Nat) : Bool :=
  let w := regGet s (Reg.STB_PWM k)
  match (stbOf s k).since with
  | some t => decide (fld w 9 0 < 1000 ∧ t * 2 + fld w 31 16 * fld w 9 0 ≤ s.raw * 2)
  | none => true

/-- The pulses whose end has come end, as does an active phase of CONTINUOUS mode that is over. [DEDUCED, log 123] -/
def stbEnd (k : Nat) : Eff := rd fun s =>
  let x := stbOf s k
  let rest := x.active.filter fun p => decide (timeNow s < p.stop)
  let phase := x.phase && !phaseOver s k
  chain [
    modStb k fun y => { y with active := rest, phase := phase, measured := y.measured && (phase || !rest.isEmpty) },
    when (stbOn x && rest.isEmpty && !phase) (emit (.strobe k false))]

/-- STB_PULSE_END. -/
def execStbPulseEnd (k : Fin 8) (s : State) : Host.Outcome State Fault Refusal :=
  .next (go (when (perOn s) (stbEnd k)) s)

/-- A period of CONTINUOUS mode starts its active phase, PERIOD_US after the last one. -/
def stbPeriod (k : Nat) : Eff := rd fun s =>
  let due := ((stbOf s k).since.map fun t => decide (t + regFld s (Reg.STB_PWM k) 31 16 * 500 ≤ s.raw)).getD true
  when (regBit s (Reg.STB_CTRL k) 31 && regBit s (Reg.STB_CTRL k) 30 && due) (chain [
    modStb k fun y => { y with since := some s.raw, measured := false },
    when (!stbBlocked s k && decide (0 < regFld s (Reg.STB_PWM k) 9 0)) (chain [
      modStb k fun y => { y with phase := true },
      when (!stbOn (stbOf s k)) (emit (.strobe k true))])])

/-- STB_PWM_PERIOD. -/
def execStbPwmPeriod (k : Fin 8) (s : State) : Host.Outcome State Fault Refusal :=
  .next (go (when (perOn s) (stbPeriod k)) s)

/-- The active phase in force lasts at least 2 microseconds. -/
def stbLong (s : State) (k : Nat) : Bool :=
  let x := stbOf s k
  (x.phase && decide (2000 ≤ regFld s (Reg.STB_PWM k) 31 16 * regFld s (Reg.STB_PWM k) 9 0))
    || x.active.any fun p => x.active.any fun q => decide ((2000 : Int) * 2 ^ 32 ≤ q.stop - p.start)

/-- The active phase in force began at least 1 microsecond ago. -/
def stbSettled (s : State) (k : Nat) : Bool :=
  let x := stbOf s k
  (x.phase && (x.since.map fun t => decide (t + 500 ≤ s.raw)).getD true)
    || x.active.any fun p => decide (p.start + (1000 : Int) * 2 ^ 32 ≤ timeNow s)

/-- The measurement of the load current, once in an active phase. [DEDUCED, log 123] -/
def stbMeasure (k ma : Nat) : Eff := rd fun s =>
  when (stbOn (stbOf s k) && stbLong s k && stbSettled s k && !(stbOf s k).measured) (
  let low := decide (ma < regFld s (Reg.STB_LIMIT k) 11 0)
  chain [
    modStb k fun y => { y with measured := true },
    putFld (Reg.STB_LOAD k) 11 0 ma,
    putBit (Reg.STB_CTRL k) 27 low,
    when low (raise 0x111D k degraded 2 ma)])

/-- STB_LOAD_MEASURE. -/
def execStbLoadMeasure (k : Fin 8) (ma : BitVec 12) (s : State) : Host.Outcome State Fault Refusal :=
  .next (go (when (perOn s) (stbMeasure k ma.toNat)) s)

/-- An overload. [DEDUCED, log 123] -/
def stbShort (k : Nat) : Eff := rd fun s => when (stbOn (stbOf s k)) (chain [
  stbCut k,
  putBit (Reg.STB_CTRL k) 28 true,
  raise 0x111D k degraded 1 (regFld s (Reg.STB_LOAD k) 11 0)])

/-- STB_SHORT. -/
def execStbShort (k : Fin 8) (s : State) : Host.Outcome State Fault Refusal :=
  .next (go (when (perOn s) (stbShort k)) s)

/-- A write of STB_CTRL: an output that is turned off or changes its mode becomes inactive. -/
def stbCtrl (ini : Ini) (k : Nat) (v : Word) : Eff := writeReg ini (Reg.STB_CTRL k) v fun old new =>
  when (!bit new 31 || (bit old 30 != bit new 30)) (chain [stbCut k, modStb k fun y => { y with since := none }])

/-- STB_FAULT_CLEAR: a write of STB_CTRL with 1 at FAULT. -/
def execStbFaultClear (ini : Ini) (k : Fin 8) (v : Word) (s : State) : Host.Outcome State Fault Refusal :=
  let w := setFld v 28 28 1
  .next (go (busWrite ini (Reg.STB_CTRL k) w (stbCtrl ini k w)) s)

/-- A write of STB_WIDTH: zero is invalid in PULSE mode (R484). -/
def stbWidth (ini : Ini) (k : Nat) (v : Word) : Eff := rd fun s =>
  if v == 0#32 && !regBit s (Reg.STB_CTRL k) 30 then raise 0x1102 k notice (Reg.STB_WIDTH k) 0
  else writePlain ini (Reg.STB_WIDTH k) v

/-! ## Registers (R484) -/

/-- Writes of PER registers with an effect beyond their fields. -/
def perWrite (ini : Ini) (off : Nat) (v : Word) : Option Eff :=
  if off = Reg.POD_START then some (podStart ini v)
  else if off = Reg.POD_STOP then some (podStop ini v)
  else if Reg.TWB_CTRL 0 ≤ off ∧ off < Reg.TWB_CTRL 4 then twbWrite ini off v
  else if Reg.POD_CUES 0 ≤ off ∧ off < Reg.POD_CUES 2 then podWrite ini off v
  else if off = Reg.GPIO_SET then some (gpioSet v)
  else if off = Reg.GPIO_CLR then some (gpioClr v)
  else if off = Reg.GPIO_OUT ∨ off = Reg.GPIO_OE ∨ off = Reg.GPIO_OD then some (pinEdges (writePlain ini off v))
  else if Reg.STB_CTRL 0 ≤ off ∧ off < Reg.STB_CTRL 8 then
    (match (off - Reg.STB_CTRL 0) % 0x20 with
    | 0x00 => some (stbCtrl ini ((off - Reg.STB_CTRL 0) / 0x20) v)
    | 0x08 => some (stbWidth ini ((off - Reg.STB_CTRL 0) / 0x20) v)
    | _ => none)
  else none

/-- The words of PER that are views of its state. -/
def perView (s : State) (off : Nat) : Option Word :=
  if off = Reg.PER_STATUS then
    some (word (ofBits ((upto 8).map fun i => (podOf s (i / 4) (i % 4)).running) * 2 ^ 4
      + ofBits ((upto 4).map fun n => (twbOf s n).busy)))
  else if Reg.TWB_CTRL 0 ≤ off ∧ off < Reg.TWB_CTRL 4 then twbView s off
  else if Reg.POD_CUES 0 ≤ off ∧ off < Reg.POD_CUES 2 then podView s off
  else if off = Reg.GPIO_IN then some (word (ofBits ((upto 24).map (gpioPin s))))
  else if Reg.ENC_CTRL 0 ≤ off ∧ off < Reg.ENC_CTRL 4 ∧ (off - Reg.ENC_CTRL 0) % 0x20 = 0x0C then
    let e := (off - Reg.ENC_CTRL 0) / 0x20
    some (word (b2n (regBit s off 31) * 2 ^ 31 + b2n (nthD false e s.per.encDown) * 2 ^ 30 + nthD 0 e s.per.enc))
  else none

end Sys2Proof.Machine
end

