-- ==== Sys2Proof/Machine/Mover.lean ====
section
/-!
DEFINITION. The Mover (chapter "Mover DMA engine"): channels and their rings, descriptors, runs, and their completion
(R358 to R373).
-/
namespace Sys2Proof.Machine

/-! ## Channels -/

/-- EN, LOC and BOUND of a channel; its ring, entries, and indices. -/
def chEn (s : State) (c : Nat) : Bool := regBit s (Reg.MOV_CH_CTRL c) 31
def chDevice (s : State) (c : Nat) : Bool := regBit s (Reg.MOV_CH_CTRL c) 27
def chBound (s : State) (c : Nat) : Bool := regBit s (Reg.MOV_CH_CTRL c) 28
def chRing (s : State) (c : Nat) : Nat :=
  let a := regWide s (Reg.MOV_CH_RING_LO c) (Reg.MOV_CH_RING_HI c)
  if chDevice s c then a % 2 ^ 40 else a
def chEntries (s : State) (c : Nat) : Nat := max 1 (regFld s (Reg.MOV_CH_ENTRIES c) 15 0)
def chTail (s : State) (c : Nat) : Nat := regFld s (Reg.MOV_CH_TAIL c) 15 0
def chHead (s : State) (c : Nat) : Nat := regFld s (Reg.MOV_CH_HEAD c) 15 0

/-- A channel is ready (R359). [DEDUCED, log 78] -/
def chReady (s : State) (c : Nat) : Bool :=
  chEn s c && !(chanOf s c).halted
    && (if chBound s c then !(chanOf s c).posts.isEmpty else chHead s c != chTail s c)

/-- The next channel to run, from the one after the last (R359). -/
def nextChannel (s : State) : Option Nat :=
  firstWhere (chReady s) ((upto 64).map fun k => (s.mov.last + 1 + k) % 64)

/-- The level in force is expert. -/
def movExpert (s : State) : Bool := atExpert s Reg.MOV_CTRL

/-- Size of read requests, and read data outstanding, in bytes (R360). -/
def readSize (s : State) : Nat :=
  if movExpert s then min (128 * 2 ^ regFld s Reg.MOV_RD_CFG 2 0) s.gw.mrrs else s.gw.mrrs
def readWindow (s : State) : Nat := if movExpert s then 1024 * regFld s Reg.MOV_RD_CFG 24 16 else 262144

/-! ## Descriptors (R364, R367) -/

/-- The descriptor in 32 bytes. -/
def descOf (b : List Byte) : Desc :=
  { src := leAt b 0 8, dst := leAt b 8 8, len := leAt b 16 4, attr := leAt b 20 2, tag := leAt b 22 2 }

/-- Fields of a descriptor's attributes. -/
def Desc.srcHost (d : Desc) : Bool := d.attr.testBit 0
def Desc.dstHost (d : Desc) : Bool := d.attr.testBit 1
def Desc.srcFixed (d : Desc) : Bool := d.attr.testBit 2
def Desc.dstFixed (d : Desc) : Bool := d.attr.testBit 3
def Desc.srcWidth (d : Desc) : Nat := 2 ^ bits d.attr 5 4
def Desc.dstWidth (d : Desc) : Nat := 2 ^ bits d.attr 7 6
def Desc.barrier (d : Desc) : Bool := d.attr.testBit 8
def Desc.check (d : Desc) : Bool := d.attr.testBit 9
def Desc.irq (d : Desc) : Bool := d.attr.testBit 10

/-- Bytes of an address range of a side. -/
def Desc.srcBytes (d : Desc) : Nat := if d.srcFixed then d.srcWidth else d.len
def Desc.dstBytes (d : Desc) : Nat := if d.dstFixed then d.dstWidth else d.len

/-- The run uses a host address. -/
def Desc.usesHost (d : Desc) : Bool := d.srcHost || d.dstHost

/-- REASON of an invalid descriptor, 0 for a valid one (R367, R368). -/
def descReject (d : Desc) : Nat :=
  if 2 ^ 11 ≤ d.attr ∨ (!d.srcHost && decide (2 ^ 40 ≤ d.src)) = true ∨ (!d.dstHost && decide (2 ^ 40 ≤ d.dst)) = true then 1
  else if d.len = 0 then 0
  else if 0x40000000 < d.len then 2
  else if d.len % d.srcWidth ≠ 0 ∨ d.len % d.dstWidth ≠ 0 then 3
  else if d.src % d.srcWidth ≠ 0 ∨ d.dst % d.dstWidth ≠ 0 then 4
  else if (!d.srcHost && !inMap d.src d.srcBytes) = true ∨ (!d.dstHost && !inMap d.dst d.dstBytes) = true then 5
  else 0

/-! ## Requests to the host -/

/-- The read requests of a run: one per element of a fixed side (R365), else of the request size. -/
def runReads (s : State) (d : Desc) : List (Nat × Nat) :=
  if !d.srcHost then []
  else if d.srcFixed then (upto (d.len / d.srcWidth)).map fun _ => (d.src, d.srcWidth)
  else cutHost (max 1 (readSize s)) (d.len + 1) d.src d.len

/-- How many of the requests may be outstanding at once (R333, R344, R360). [DEDUCED, log 76] -/
def readsAtOnce (s : State) (l : List (Nat × Nat)) : Nat :=
  let tags := (if s.gw.tag10 then 512 else 256) - s.gw.reads.length
  let fit := (l.foldl (fun (a : Nat × Nat) e => if a.2 + e.2 ≤ readWindow s then (a.1 + 1, a.2 + e.2) else (a.1, readWindow s + 1))
    (0, 0)).1
  min tags fit

/-- The lowest tags that are free. -/
def freeTags (s : State) : List Nat := (upto 512).filter fun t => !(s.gw.reads.any fun r => r.tag == t)

/-- Read requests are sent, and are outstanding (R344). -/
def sendReads (c : Nat) (l : List (Nat × Nat)) : Eff := rd fun s => each (l.zip (freeTags s)) fun e => chain [
  emit (.hostRead e.2 e.1.1 e.1.2),
  modGw fun g => { g with reads := g.reads ++ [{ tag := e.2, block := 0x10, unit := c, addr := e.1.1 }] }]

/-- The Mover has no read outstanding any longer. -/
def dropReads : Eff := modGw fun g => { g with reads := g.reads.filter fun r => r.block != 0x10 }

/-! ## Moving the bytes (R365, R366, R371) -/

/-- The stream offset's source address. -/
def srcAt (d : Desc) (k : Nat) : Nat := if d.srcFixed then d.src + k % d.srcWidth else d.src + k

/-- The byte stream of a run; bytes of an uncorrectable word, and of memory that is off, read as ones.
[DEDUCED, log 76] -/
def streamBytes (s : State) (d : Desc) (bad : List Nat) : List Byte := (upto d.len).map fun k =>
  let a := srcAt d k
  if d.srcHost then hostByte s a
  else if !memPowered s a || bad.any fun w => decide (w ≤ a ∧ a < w + eccBytes w) then 255#8 else memByte s a

/-- The uncorrectable source words of a run, rising. -/
def badWords (s : State) (d : Desc) : List Nat := if d.srcHost then [] else sortNat (poisoned s d.src d.srcBytes)

/-- Stream offset at which a source word is first read. -/
def wordOffset (d : Desc) (w : Nat) : Nat := w - d.src

/-- Bytes left at a destination: all of the stream, or its last element at a fixed one. -/
def landing (d : Desc) (bs : List Byte) : List Byte := if d.dstFixed then bs.drop (bs.length - d.dstWidth) else bs

/-- A write of a run to device memory: the block of a bound channel writes its own units, others respect guards. -/
def movWrite (own : Bool) (a : Nat) (bs : List Byte) : Eff := rd fun s =>
  when (memPowered s a) (if own then storeBytes a bs else softWrite a bs)

/-- Bytes of a run land at its destination. [DEDUCED, log 76] -/
def landBytes (own : Bool) (d : Desc) (bs : List Byte) : Eff := rd fun s =>
  let l := landing d bs
  if d.dstHost then
    if d.dstFixed then each (chunks d.dstWidth (bs.length + 1) bs) fun e => hostWrite d.dst e
    else each (cutHost (max 1 s.gw.mps) (l.length + 1) d.dst l.length) fun e =>
      hostWrite e.1 ((l.drop (e.1 - d.dst)).take e.2)
  else each (unitPieces (l.length + 1) d.dst l) fun e => movWrite own e.1 e.2

/-- The destination words that hold bytes of uncorrectable source words become poisoned. -/
def landPoison (d : Desc) (bad : List Nat) : Eff :=
  when (!d.dstHost && !bad.isEmpty) (
    let offs := (upto d.len).filter fun k => bad.any fun w => decide (w ≤ srcAt d k ∧ srcAt d k < w + eccBytes w)
    let offs := if d.dstFixed then offs.filter fun k => decide (d.len - d.dstWidth ≤ k) else offs
    let at' := offs.map fun k => if d.dstFixed then d.dst + k % d.dstWidth else d.dst + k
    modStore fun m => { m with poison := at'.foldl (fun l a =>
      let w := a - a % eccBytes a
      if l.contains w then l else l ++ [w]) m.poison })

/-- Stream offset of the first write that a guard drops. -/
def firstGuarded (s : State) (own : Bool) (d : Desc) : Option Nat :=
  if own || d.dstHost then none
  else (firstWhere (fun e => guardOf s e.1 e.2.length != .none)
    (unitPieces (d.len + 1) d.dst (landing d ((upto d.len).map fun _ => 0#8)))).map fun e =>
      if d.dstFixed then 0 else e.1 - d.dst

/-- The barrier of a run with a host destination: a 1-DW read with no byte enabled of the last DW written, whose completion
ends the run (R369). [DEDUCED, log 76] -/
def hostBarrier (d : Desc) : Eff := when (d.barrier && d.dstHost) (rd fun s =>
  emit (.hostRead ((freeTags s).headD 0) ((d.dst + d.dstBytes - 1) / 4 * 4) 0))

/-! ## Completion (R370) -/

/-- The completion is notified: an MSI-X message for a host ring, a bit of the core's CCO_MOV_PEND for a device ring.
[DEDUCED, log 19] -/
def movNotify (c : Nat) : Eff := rd fun s =>
  let v := regFld s (Reg.MOV_CH_CTRL c) 21 16
  if chDevice s c then
    putBit (if c < 32 then Reg.CCO_MOV_PEND_LO (v % 4) else Reg.CCO_MOV_PEND_HI (v % 4)) (c % 32) true
  else msix v

/-- A run ends: its completion is reported, and the channel halts on a STATUS that halts it. [DEDUCED, log 78] -/
def finishRun (c : Nat) (d : Desc) (status reason result : Nat) : Eff := rd fun s =>
  let halts := status == 1 || status == 2 || status == 5 || status == 6
  let wordAt := chRing s c + 32 * chHead s c + 24
  let bytes := leBytes 4 (2 ^ 31 + reason * 2 ^ 16 + status) ++ leBytes 4 result
  chain [
    modMov fun m => { m with run := none, last := c },
    dropReads,
    setReg (Reg.MOV_CH_STATUS c) (word (reason * 2 ^ 16 + d.tag % 2 ^ 8 * 2 ^ 8 + status)),
    setReg (Reg.MOV_CH_RESULT c) (word result),
    countUp (Reg.MOV_CH_DONE c) 1,
    when (status != 0) (countSat (Reg.MOV_CH_ERR c) 1),
    when (chBound s c) (modChan c fun x => { x with fins := x.fins ++ [⟨status, result, d⟩] }),
    when (!chBound s c) (chain [
      if chDevice s c then storeBytes wordAt bytes else when (status != 5) (hostWrite wordAt bytes),
      setReg (Reg.MOV_CH_HEAD c) (word ((chHead s c + 1) % chEntries s c)),
      when d.irq (movNotify c)]),
    when halts (modChan c fun x => { x with halted := true }),
    putBit (Reg.MOV_CH_CTRL c) 29 false]

/-- The destination of a run that stops is undefined within its range (R371). [DEDUCED, log 77] -/
def spoilRange (own : Bool) (d : Desc) : Eff := withFree (8 * d.dstBytes) fun v =>
  let bs := leBytes d.dstBytes v.toNat
  if d.dstHost then fun _ => hostActs d.dst bs
  else each (unitPieces (d.dstBytes + 1) d.dst bs) fun e => movWrite own e.1 e.2

/-- The run in progress stops with a STATUS of 2, 5 or 6; `why` is the cause of CH_STOPPED. [DEDUCED, log 77] -/
def stopRun (status why : Nat) : Eff := rd fun s => match s.mov.run with
  | none => skip
  | some r => chain [
      spoilRange (chBound s r.ch) r.desc,
      when (status != 2) (raise 0x1016 r.ch degraded (chHead s r.ch) why),
      finishRun r.ch r.desc status 0 0]

/-- A host read of the run ends with error (R347, R371). [DEDUCED, log 77] -/
def movReadError (addr aer : Nat) : Eff := rd fun s => match s.mov.run with
  | none => skip
  | some r => chain [raise 0x1011 r.ch degraded addr aer, stopRun 2 0]

/-- FLR or DOWN stops the run that uses a host address, and halts the channels with a host ring (R348, R371).
[DEDUCED, log 77] -/
def movHostStop (why : Nat) : Eff := chain [
  rd fun s => match s.mov.run with
    | some r => when (r.desc.usesHost || (!chBound s r.ch && !chDevice s r.ch)) (stopRun 5 why)
    | none => skip,
  rd fun s => each ((upto 64).filter fun c =>
      chEn s c && !chBound s c && !chDevice s c && !(chanOf s c).halted) fun c => chain [
    modChan c fun x => { x with halted := true },
    raise 0x1016 c degraded (chHead s c) why]]

/-! ## Runs -/

/-- A descriptor that has been read is validated; a valid one starts to move (R367, R368). -/
def beginRun (c : Nat) (d : Desc) : Eff := rd fun s =>
  let why := descReject d
  if why ≠ 0 then chain [
    raise 0x1010 c degraded (chHead s c) why,
    finishRun c d 1 why 0]
  else if d.len = 0 then finishRun c d 0 0 0
  else
    let l := runReads s d
    let n := if canIssue s then readsAtOnce s l else 0
    chain [
      modMov fun m => { m with run := some { ch := c, desc := d, later := l.drop n } },
      sendReads c (l.take n)]

/-- The engine takes the next ready channel and its descriptor; a descriptor in host memory waits in the gateway while no
request may be issued (R350, R359). [DEDUCED, log 76] -/
def runStart : Eff := rd fun s => match s.mov.run, nextChannel s with
  | none, some c => chain [
      levelBoundary Reg.MOV_CTRL,
      if chBound s c then match (chanOf s c).posts with
        | d :: rest => chain [modChan c fun x => { x with posts := rest }, beginRun c d]
        | [] => skip
      else
        let a := chRing s c + 32 * chHead s c
        if chDevice s c then beginRun c (descOf (memBytes s a 32))
        else when (canIssue s) (chain [emit (.hostRead 0 a 32), beginRun c (descOf (hostBytes s a 32))])]
  | _, _ => skip

/-- MOVER_RUN_START. -/
def execMoverRunStart (s : State) : Host.Outcome State Fault Refusal := .next (go runStart s)

/-- A run has moved its bytes and met its barrier (R365 to R371). [DEDUCED, log 76] -/
def runEnds : Eff := rd fun s => match s.mov.run with
  | none => skip
  | some r =>
    let d := r.desc
    let own := chBound s r.ch
    let bad := badWords s d
    let bs := streamBytes s d bad
    let ecc := (bad.map (wordOffset d)).head?
    let guarded := firstGuarded s own d
    let status := match ecc, guarded with
      | some e, some g => if g < e then 4 else 3
      | some _, none => 3
      | none, some _ => 4
      | none, none => 0
    when (!d.usesHost || canIssue s) (chain [
      each r.later fun e => emit (.hostRead 0 e.1 e.2),
      reportPoison 0x10 bad,
      each bad fun w => raise 0x1012 r.ch degraded w (wordOffset d w),
      landBytes own d bs,
      landPoison d bad,
      hostBarrier d,
      countWide Reg.MOV_BYTES_LO Reg.MOV_BYTES_HI d.len,
      finishRun r.ch d status 0 (if d.check then crc32c bs else 0)])

/-- MOVER_RUN_END. -/
def execMoverRunEnd (s : State) : Host.Outcome State Fault Refusal := .next (go runEnds s)

/-! ## Registers (R361 to R363, R372, R373) -/

/-- A write of a channel register that is ignored because a block has the channel (R361). [DEDUCED, log 78] -/
def boundWrite (ini : Ini) (c off : Nat) (v : Word) (k : Eff) : Eff := rd fun s =>
  if chBound s c ∧ ini ≠ .cfg then raise 0x1014 c notice off v.toNat else k

/-- The ring of a channel lies in units that the channel owns (R363). -/
def ringOwner (s : State) (c : Nat) : Option Nat :=
  let a := regWide s (Reg.MOV_CH_RING_LO c) (Reg.MOV_CH_RING_HI c) % 2 ^ 40
  let n := 32 * chEntries s c
  firstWhere (fun o => o != 0x2000 + c) ((unitPieces (n + 1) a ((upto n).map fun _ => 0#8)).map fun e =>
    match unitOf e.1 with
    | some (k, i) => ownerOf s k i
    | none => 0)

/-- ABORT (R372). -/
def abortChannel (c : Nat) : Eff := rd fun s =>
  if (s.mov.run.map fun r => r.ch) = some c then stopRun 6 3
  else chain [
    setReg (Reg.MOV_CH_HEAD c) (word (chTail s c)),
    putBit (Reg.MOV_CH_CTRL c) 29 false]

/-- A write of MOV_CH_CTRL: EN, LOC, RESUME and ABORT (R363, R372). -/
def chCtrl (ini : Ini) (c : Nat) (v : Word) : Eff := boundWrite ini c (Reg.MOV_CH_CTRL c) v (rd fun s =>
  let on := chEn s c
  let v' := if on then setFld v 27 27 (b2n (chDevice s c)) else v
  let refused := if !on && bit v 31 && bit v 27 then ringOwner s c else none
  match refused with
  | some o => raise 0x1015 c notice (regWide s (Reg.MOV_CH_RING_LO c) (Reg.MOV_CH_RING_HI c)) o
  | none => chain [
      when (v' != v) (raise 0x1013 c notice (Reg.MOV_CH_CTRL c) v.toNat),
      writeReg ini (Reg.MOV_CH_CTRL c) v' fun old new => chain [
        when (!bit old 31 && bit new 31) (setReg (Reg.MOV_CH_HEAD c) (word (chTail s c))),
        putBit (Reg.MOV_CH_CTRL c) 30 false,
        if bit v 29 then abortChannel c
        else when (bit v 30) (modChan c fun x => { x with halted := false })]])

/-- MOV_ENABLE. -/
def execMovEnable (ini : Ini) (c : Fin 64) (v : Word) (s : State) : Host.Outcome State Fault Refusal :=
  .next (go (busWrite ini (Reg.MOV_CH_CTRL c) v (chCtrl ini c v)) s)

/-- MOV_RESUME. -/
def execMovResume (ini : Ini) (c : Fin 64) (v : Word) (s : State) : Host.Outcome State Fault Refusal :=
  .next (go (busWrite ini (Reg.MOV_CH_CTRL c) v (chCtrl ini c v)) s)

/-- MOV_ABORT. -/
def execMovAbort (ini : Ini) (c : Fin 64) (v : Word) (s : State) : Host.Outcome State Fault Refusal :=
  .next (go (busWrite ini (Reg.MOV_CH_CTRL c) v (chCtrl ini c v)) s)

/-- A write of MOV_CH_TAIL (R362). -/
def chTailWrite (ini : Ini) (c : Nat) (v : Word) : Eff := boundWrite ini c (Reg.MOV_CH_TAIL c) v (rd fun s =>
  when (decide (fld v 15 0 < chEntries s c)) (writePlain ini (Reg.MOV_CH_TAIL c) v))

/-- MOV_TAIL_WRITE. -/
def execMovTailWrite (ini : Ini) (c : Fin 64) (v : Word) (s : State) : Host.Outcome State Fault Refusal :=
  .next (go (busWrite ini (Reg.MOV_CH_TAIL c) v (chTailWrite ini c v)) s)

/-- A write of MOV_CH_RING or MOV_CH_ENTRIES, ignored while EN is 1 (R363). [DEDUCED, log 78] -/
def chRingWrite (ini : Ini) (c off : Nat) (v : Word) : Eff := boundWrite ini c off v (rd fun s =>
  if chEn s c then raise 0x1013 c notice off v.toNat else writePlain ini off v)

/-- The effect of a write on a MOV register; none where the register is an ordinary one. -/
def movRegWrite (ini : Ini) (off : Nat) (v : Word) : Option Eff :=
  let rel := off - Reg.MOV_CTRL
  if 0x1000 ≤ rel ∧ rel < 0x2000 then
    let c := (rel - 0x1000) / 0x40
    match rel % 0x40 with
    | 0x00 => some (chCtrl ini c v)
    | 0x04 => some (chRingWrite ini c off v)
    | 0x08 => some (chRingWrite ini c off v)
    | 0x0C => some (chRingWrite ini c off v)
    | 0x10 => some (chTailWrite ini c v)
    | _ => none
  else none

/-- STATE of MOV_CH_STATUS. -/
def chState (s : State) (c : Nat) : Nat :=
  if (s.mov.run.map fun r => r.ch) = some c then 2
  else if (chanOf s c).halted then 4 else if chReady s c then 1 else 0

/-- The words of MOV that are views of its state. -/
def movView (s : State) (off : Nat) : Option Word :=
  let rel := off - Reg.MOV_CTRL
  if off = Reg.MOV_STATUS then some (word (b2n (movExpert s) * 2 ^ 24
    + (s.mov.run.map fun r => r.ch * 2 ^ 8 + 1).getD 0))
  else if off = Reg.MOV_RD_CFG then if movExpert s then none
    else some (word (256 * 2 ^ 16 + (firstWhere (fun k => decide (s.gw.mrrs ≤ 128 * 2 ^ k)) (upto 6)).getD 5))
  else if 0x1000 ≤ rel ∧ rel < 0x2000 ∧ rel % 0x40 = 0x18 then
    let c := (rel - 0x1000) / 0x40
    some (word (chState s c * 2 ^ 28 + regFld s off 23 0))
  else none

end Sys2Proof.Machine
end

