-- ==== Sys2Proof/Machine/Journal.lean ====
section
/-!
DEFINITION. The evidence journal (chapter "Evidence journal", R315 to R331): extents and windows, records, sealing and
copying, the operation port, gaps, marks and notes.
-/
namespace Sys2Proof.Machine

/-! ## Extents, windows and staging -/

/-- EN of the journal: records are accepted. -/
def jrnOn (s : State) : Bool := regBit s Reg.JRN_CTRL 1

/-- Extents of the archive; STATE codes of an entry. -/
def jrnExtents (s : State) : Nat := regFld s Reg.JRN_EXTENTS 28 0

/-- Device address of an index entry, its value, and its STATE (R317). -/
def indexAt (s : State) (e : Nat) : Nat := regWide s Reg.JRN_INDEX_LO Reg.JRN_INDEX_HI + 8 * e
def indexGet (s : State) (e : Nat) : Nat := memNat s (indexAt s e) 8
def extentState (s : State) (e : Nat) : Nat := bits (indexGet s e) 63 61

/-- An index entry takes a value. -/
def indexPut (e v : Nat) : Eff := rd fun s => storeBytes (indexAt s e) (leBytes 8 v)

/-- STATE of an extent changes; the rest of its entry stays. -/
def setExtentState (e st : Nat) : Eff := rd fun s => indexPut e (setBits (indexGet s e) 63 61 st)

/-- FIRST, COUNT and BASE of a window, and whether it is enabled. -/
def winFirst (s : State) (w : Nat) : Nat := regFld s (Reg.JRN_WIN_FIRST w) 27 0
def winCount (s : State) (w : Nat) : Nat := regFld s (Reg.JRN_WIN_COUNT w) 28 0
def winBase (s : State) (w : Nat) : Nat := regWide s (Reg.JRN_WIN_BASE_LO w) (Reg.JRN_WIN_BASE_HI w)
def jwinEn (s : State) (w : Nat) : Bool := regBit s (Reg.JRN_WIN_CTRL w) 31

/-- The enabled window that holds an extent. -/
def windowOfExtent (s : State) (e : Nat) : Option Nat :=
  firstWhere (fun w => jwinEn s w && decide (winFirst s w ≤ e ∧ e < winFirst s w + winCount s w)) (upto 16)

/-- An extent of a window is OPEN or SEALED. -/
def winBusy (s : State) (w : Nat) : Bool :=
  (match s.jrn.ext with
    | some x => x.window == w
    | none => false) || s.jrn.jobs.any fun j => j.placed && j.ext.window == w

/-- Host address of an extent. -/
def extentHost (s : State) (x : JExt) : Nat := winBase s x.window + (x.extent - winFirst s x.window) * 2 ^ 24

/-- Device address of a staging buffer. -/
def stageAt (s : State) (k : Nat) : Nat := regWide s Reg.JRN_STAGE_LO Reg.JRN_STAGE_HI + k * 2 ^ 24

/-- Staging buffers in use, and the free ones. -/
def stagesUsed (s : State) : List Nat :=
  (match s.jrn.ext with
    | some x => [x.buf]
    | none => []) ++ s.jrn.jobs.map fun j => j.ext.buf
def stagesFree (s : State) : List Nat := (upto (regFld s Reg.JRN_STAGE_CFG 5 0)).filter fun k => !(stagesUsed s).contains k

/-- FREE extents in enabled windows (JRN_FREE_CNT). -/
def freeExtents (s : State) : Nat := ((upto (jrnExtents s)).filter fun e =>
  extentState s e == 0 && (windowOfExtent s e).isSome).length

/-- The next extent that may be opened, with its window (R321). -/
def nextExtent (s : State) : Option (Nat × Nat) :=
  let n := jrnExtents s
  let order := match s.jrn.last with
    | none => upto n
    | some l => upFrom (l + 1) (n - (l + 1)) ++ upto (min n (l + 1))
  (firstWhere (fun e => extentState s e == 0 && (windowOfExtent s e).isSome) order).bind fun e =>
    (windowOfExtent s e).map fun w => (e, w)

/-! ## Opening (R321) -/

/-- The entry of an extent with a state and window. -/
def indexEntry (st w : Nat) : Nat := st * 2 ^ 61 + w * 2 ^ 57

/-- An extent is opened; the end of FULL is reported. -/
def openExtent (e w buf : Nat) : Eff := rd fun s => chain [
  levelBoundary Reg.JRN_CTRL,
  indexPut e (indexEntry 1 w),
  when s.jrn.full (raise 0x0F12 0xFFFF notice e ((s.raw - s.jrn.fullFrom) / 500)),
  modJrn fun j => { j with
    ext := some { extent := e, window := w, buf := buf, structSeq := s.erg.seq }, last := some e, full := false }]

/-- No extent can be opened: FULL. -/
def becomeFull : Eff := rd fun s => when (!s.jrn.full) (chain [
  modJrn fun j => { j with full := true, fullFrom := s.raw },
  raise 0x0F11 0xFFFF degraded (freeExtents s) (stagesFree s).length])

/-- An extent is opened, if one can be. -/
def tryOpen : Eff := rd fun s => match nextExtent s, stagesFree s with
  | some (e, w), k :: _ => openExtent e w k
  | _, _ => becomeFull

/-! ## Sealing and copying (R322 to R324) -/

/-- FLAGS of a header or notice. -/
def jobFlags (j : JJob) : Nat := b2n j.ext.gap + 2 * b2n j.ext.mark + 4 * b2n j.retry

/-- The header of an extent (R323). -/
def extentHeader (s : State) (j : JJob) (prev : Option Nat) : List Byte :=
  let x := j.ext
  let body := leBytes 4 0x584A4C43 ++ leBytes 2 1 ++ leBytes 1 j.reason ++ leBytes 1 (jobFlags j) ++ leBytes 4 x.extent
    ++ leBytes 4 j.seq ++ leBytes 4 x.fill ++ leBytes 4 x.records ++ leBytes 8 x.firstSeq ++ leBytes 8 x.firstTime
    ++ leBytes 8 x.lastTime ++ leBytes 4 x.structSeq ++ leBytes 4 (prev.getD 0xFFFFFFFF)
    ++ leBytes 4 (crc32c (memBytes s (stageAt s x.buf + 256) (x.fill - 256)))
  body ++ leBytes 4 (crc32c body) ++ leBytes 192 0

/-- PAGES of an extent (R317). -/
def extentPages (x : JExt) : Nat := ceilDiv x.fill 4096

/-- The copy of a job's data, or of its header, is posted to the mapper's Mover channel. -/
def postCopy (j : JJob) : Eff := rd fun s =>
  let a := stageAt s j.ext.buf
  let h := extentHost s j.ext
  let d : Desc := if j.header then { src := a, dst := h, len := 256, attr := copyAttr false true true false }
    else { src := a + 256, dst := h + 256, len := extentPages j.ext * 4096 - 256, attr := copyAttr false true true false }
  modChan (regFld s Reg.JRN_STAGE_CFG 13 8) fun c => { c with posts := c.posts ++ [d] }

/-- A sealed extent: its header and entry are written, and the oldest job is copied. -/
def sealJob (j : JJob) (front : Bool) : Eff := rd fun s => chain [
  setReg Reg.JRN_SEAL_SEQ (word (j.seq + 1)),
  storeBytes (stageAt s j.ext.buf) (extentHeader s j s.jrn.sealed),
  indexPut j.ext.extent (indexEntry 2 j.ext.window + b2n j.ext.gap * 2 ^ 56 + b2n j.ext.mark * 2 ^ 55
    + extentPages j.ext * 2 ^ 40 + j.seq % 2 ^ 32),
  countUp (Reg.JRN_RECORDS 1) 1,
  raise 0x0F10 0xFFFF notice j.ext.extent (j.seq % 2 ^ 32 + j.reason * 2 ^ 32),
  modJrn fun x => { x with
    sealed := some j.ext.extent, jobs := if front then j :: x.jobs.drop 1 else x.jobs ++ [j] },
  when (front || s.jrn.jobs.isEmpty) (postCopy j)]

/-- The open extent is sealed with a reason (R322). -/
def sealExtent (reason : Nat) : Eff := rd fun s => match s.jrn.ext with
  | none => skip
  | some x => chain [
      modJrn fun j => { j with ext := none },
      sealJob { ext := x, seq := (regGet s Reg.JRN_SEAL_SEQ).toNat, reason := reason } false,
      putBit Reg.JRN_CTRL 2 false]

/-- The oldest job whose extent failed takes another extent, when there is one (R324). -/
def replaceJob : Eff := rd fun s => match s.jrn.jobs, nextExtent s with
  | j :: _, some (e, w) => when (!j.placed) (chain [
      indexPut e (indexEntry 1 w),
      modJrn fun x => { x with last := some e },
      sealJob { j with
        ext := { j.ext with extent := e, window := w }, seq := (regGet s Reg.JRN_SEAL_SEQ).toNat
        retry := true, tries := 0, header := false, placed := true } true])
  | _, _ => skip

/-- The first job has ended; the next one is copied. -/
def nextJob : Eff := chain [
  modJrn fun j => { j with jobs := j.jobs.drop 1 },
  rd fun s => match s.jrn.jobs with
    | j :: _ => if j.placed then postCopy j else replaceJob
    | [] => skip]

/-- A seal notice (R326). [DEDUCED, log 75] -/
def sealNotice (j : JJob) : List Byte :=
  leBytes 4 j.ext.extent ++ leBytes 4 j.seq ++ leBytes 4 j.ext.fill ++ leBytes 1 j.reason ++ leBytes 1 (jobFlags j)
    ++ leBytes 2 j.ext.window ++ leBytes 8 j.ext.firstSeq ++ leBytes 8 j.ext.lastSeq ++ leBytes 8 j.ext.firstTime
    ++ leBytes 8 j.ext.lastTime

/-- The oldest report of the mapper's channel, when it is about the job being copied. [DEDUCED, log 75] -/
def copyReport (s : State) : Option (MovFin × JJob) :=
  match (chanOf s (regFld s Reg.JRN_STAGE_CFG 13 8)).fins, s.jrn.jobs with
  | f :: _, j :: _ => some (f, j)
  | _, _ => none

/-- A copy failed: it was halted (R371). [DEDUCED, log 75] -/
def copyFailed (f : MovFin) : Bool := f.status == 1 || f.status == 2 || f.status == 5 || f.status == 6

/-- The report is taken, and the channel is released. [DEDUCED, log 75] -/
def takeReport : Eff := rd fun s => modChan (regFld s Reg.JRN_STAGE_CFG 13 8) fun c =>
  { c with fins := c.fins.drop 1, halted := false }

/-- A copy is complete: after the data the header follows, after the header the extent is WRITTEN (R323). -/
def copyDone : Eff := rd fun s => match copyReport s with
  | none => skip
  | some (f, j) => when (!copyFailed f) (chain [
      takeReport,
      if !j.header then
        let j' := { j with header := true }
        chain [modJrn fun x => { x with jobs := j' :: x.jobs.drop 1 }, postCopy j']
      else chain [
        setExtentState j.ext.extent 3,
        bufferPacket 0x8000 { kind := 6, source := 0, payload := sealNotice j },
        nextJob]])

/-- EXTENT_COPY_DONE. -/
def execExtentCopyDone (s : State) : Host.Outcome State Fault Refusal := .next (go copyDone s)

/-- A copy failed: once more, then BAD and the next extent (R324). -/
def copyFail : Eff := rd fun s => match copyReport s with
  | none => skip
  | some (f, j) => when (copyFailed f) (chain [
      takeReport,
      countSat (Reg.JRN_RECORDS 3) 1,
      if j.tries = 0 then
        let j' := { j with tries := 1, header := false }
        chain [modJrn fun x => { x with jobs := j' :: x.jobs.drop 1 }, postCopy j']
      else chain [
        setExtentState j.ext.extent 5,
        raise 0x0F13 0xFFFF degraded j.ext.extent (extentHost s j.ext),
        modJrn fun x => { x with jobs := { j with placed := false } :: x.jobs.drop 1 },
        replaceJob]])

/-- EXTENT_COPY_FAIL. -/
def execExtentCopyFail (s : State) : Host.Outcome State Fault Refusal := .next (go copyFail s)

/-! ## Records (R319, R320) -/

/-- LEN of a record. -/
def recLen (payload : List Byte) : Nat := 32 + ceilDiv payload.length 16 * 16

/-- The bytes of a record. -/
def recordBytes (x : JRec) (rseq time : Nat) : List Byte :=
  let head := leBytes 4 (recLen x.payload) ++ leBytes 1 x.type ++ leBytes 1 x.flags ++ leBytes 2 x.source
    ++ leBytes 8 rseq ++ leBytes 8 time ++ leBytes 4 (crc32c x.payload)
  head ++ leBytes 4 (crc32c head) ++ x.payload ++ leBytes (recLen x.payload - 32 - x.payload.length) 0

/-- The open extent has room for a record. -/
def fits (s : State) (len : Nat) : Bool := match s.jrn.ext with
  | some x => decide (len ≤ 2 ^ 24 - x.fill)
  | none => false

/-- A full extent is sealed, and an extent is opened for a record. -/
def makeRoom (len : Nat) : Eff := chain [
  rd fun s => when (s.jrn.ext.isSome && !fits s len) (sealExtent 1),
  rd fun s => when s.jrn.ext.isNone tryOpen]

/-- A record is placed in the open extent. -/
def placeRecord (x : JRec) : Eff := rd fun s => match s.jrn.ext with
  | none => skip
  | some e =>
    let time := x.time.getD (timeNs s)
    let seq := s.jrn.rseq
    let len := recLen x.payload
    chain [
      storeBytes (stageAt s e.buf + e.fill) (recordBytes x seq time),
      countUp (Reg.JRN_RECORDS 0) 1,
      when (x.type == 5) (countSat (Reg.JRN_RECORDS 2) 1),
      modJrn fun j => { j with
        rseq := (seq + 1) % 2 ^ 64
        ext := some { e with
          fill := e.fill + len, records := e.records + 1
          firstSeq := if e.records = 0 then seq else e.firstSeq, lastSeq := seq
          firstTime := if e.records = 0 then time else e.firstTime, lastTime := time
          since := if e.records = 0 then s.raw else e.since
          gap := e.gap || x.type == 5, mark := e.mark || x.type == 6 } }]

/-- The records that wait are accepted, as far as extents allow. [DEDUCED, log 73] -/
def acceptWaiting : Nat → Eff
  | 0 => skip
  | n + 1 => rd fun s => match s.jrn.wait with
    | [] => skip
    | x :: rest => chain [
        makeRoom (recLen x.payload),
        rd fun s' => when (fits s' (recLen x.payload)) (chain [
          placeRecord x,
          modJrn fun j => { j with wait := rest },
          acceptWaiting n])]

/-- Every record that waits, but none between a crop and its record (R320). [DEDUCED, log 73] -/
def acceptAll : Eff := rd fun s => when s.jrn.owed.isNone (acceptWaiting s.jrn.wait.length)

/-! ## Gaps (R327, R328) -/

/-- The GAP records that a packet causes. [DEDUCED, log 73] -/
def gapsOf (p : Packet) : List JRec :=
  let b := p.payload
  let at' := fun o n => leAt b o n
  if p.kind = 1 then
    let gap := fun cause n (first : Nat × Nat) =>
      if n = 0 then [] else [gapRec cause 0 p.source n first.1 (at' 24 4) first.2]
    gap 2 (at' 28 4) p.lostAt
      ++ (if at' 18 1 % 16 = 2 then gap 3 (at' 36 4) p.missAt ++ gap 4 (at' 60 4) p.dropAt else [])
  else if p.kind = 2 ∧ at' 0 1 = 2 then
    [gapRec 1 (at' 3 1) p.source (at' 24 4) (at' 16 8) (at' 16 8 + at' 24 4 - 1) p.lostAt.2]
  else []

/-- TYPE of the record of a packet. -/
def packetType (p : Packet) : Nat :=
  if p.kind = 1 then (if leAt p.payload 18 1 % 16 = 2 then 2 else 1) else if p.kind = 2 then 3 else 4

/-- TIME_NS of the tag, record or crop that a packet carries. -/
def packetTime (p : Packet) : Nat := if p.kind = 1 then leAt p.payload 8 8 else p.time

/-- A producer hands its packets to the mapper: a JOURNAL tap, or a bar's journal side. -/
def toJournal (s : State) (k : Nat) : Bool :=
  if k < 0x400 then tapDest s k == 1 else decide (0x1100 ≤ k ∧ k < 0x1110)

/-- A producer's oldest packet may be accepted: a crop only with its record behind it, and nothing else between the two
(R320). -/
def mayAccept (s : State) (k : Nat) : Bool :=
  let x := producerOf s k
  toJournal s k && (match s.jrn.owed with
    | some o => o == k
    | none => s.jrn.wait.isEmpty) && !((x.buf.head?.any fun p => p.kind == 3) && x.buf.length == 1 && !x.spill.isEmpty)

/-- The mapper accepts the records that wait, then the oldest packet of a producer with the gaps it causes (R320, R328). -/
def recordAccept (k : Nat) : Eff := rd fun s => when (jrnOn s) (chain [
  acceptAll,
  rd fun s1 => match (producerOf s1 k).buf with
    | p :: rest => when (mayAccept s1 k) (chain [
        makeRoom (recLen p.payload),
        rd fun s2 => when (fits s2 (recLen p.payload)) (chain [
          placeRecord { type := packetType p, flags := b2n p.spilled, source := p.source, time := some (packetTime p)
                        payload := p.payload },
          takePacket k,
          checkDout p,
          modJrn fun j => { j with
            wait := gapsOf p ++ j.wait, owed := if p.kind = 3 ∧ !rest.isEmpty then some k else none },
          acceptAll])])
    | [] => skip])

/-- RECORD_ACCEPT; a producer without a packet hands over only the marks and gaps that wait. -/
def execRecordAccept (producer : BitVec 16) (s : State) : Host.Outcome State Fault Refusal :=
  .next (go (recordAccept producer.toNat) s)

/-- An extent can be opened again (R321, R324). -/
def resumeJournal : Eff := chain [
  replaceJob,
  rd fun s => when (s.jrn.full && jrnOn s && s.jrn.ext.isNone) tryOpen]

/-- JOURNAL_RESUMED. -/
def execJournalResumed (s : State) : Host.Outcome State Fault Refusal := .next (go resumeJournal s)

/-! ## Notes (R330) -/

/-- A pending note is accepted. -/
def noteAccept : Eff := chain [
  acceptAll,
  rd fun s => match s.jrn.note with
    | none => skip
    | some n => when (s.jrn.wait.isEmpty && s.jrn.owed.isNone) (chain [
        makeRoom (recLen n),
        rd fun s' => when (fits s' (recLen n)) (chain [
          placeRecord { type := 7, source := 0xFFFF, time := none, payload := n },
          modJrn fun j => { j with note := none }])])]

/-- NOTE_ACCEPT. [DESIGN CHOICE, log 5] -/
def execNoteAccept (s : State) : Host.Outcome State Fault Refusal := .next (go (rd fun s => when (jrnOn s) noteAccept) s)

/-- Why a note GO is refused; 0 when it is taken. -/
def noteRefusal (s : State) : Nat :=
  if s.jrn.note.isSome then 1 else if !jrnOn s then 2 else if s.jrn.full then 3 else 0

/-- A write of JRN_NOTE_GO. -/
def noteGo (ini : Ini) (v : Word) : Eff := writeReg ini Reg.JRN_NOTE_GO v fun _ _ => when (bit v 0) (rd fun s =>
  let why := noteRefusal s
  if why = 0 then modJrn fun j => { j with
    note := some ((upto 8).flatMap fun k => leBytes 4 (regGet s (Reg.JRN_NOTE_DATA k)).toNat), noteRefused := false }
  else chain [
    modJrn fun j => { j with noteRefused := true },
    raise 0x0F17 0xFFFF notice why (freeExtents s)])

/-- NOTE_GO. -/
def execNoteGo (ini : Ini) (v : Word) (s : State) : Host.Outcome State Fault Refusal :=
  .next (go (busWrite ini Reg.JRN_NOTE_GO v (noteGo ini v)) s)

/-! ## Control (R320, R322) -/

/-- A write of JRN_CTRL: EN set starts RSEQ again with a JOURNAL_EN mark, ahead of what still waits; EN cleared takes a pending note and seals; SEAL
seals the open extent, and has no effect without one. -/
def jrnCtrl (ini : Ini) (v : Word) : Eff := writeLevel ini Reg.JRN_CTRL v fun old new => chain [
  when (bit v 2) (rd fun s => if s.jrn.ext.isSome then sealExtent 2 else putBit Reg.JRN_CTRL 2 false),
  when (!bit old 1 && bit new 1) (chain [
    modJrn fun j => { j with rseq := 0 },
    journalMark 7 0,
    modJrn fun j => { j with wait := j.wait.drop (j.wait.length - 1) ++ j.wait.take (j.wait.length - 1) }]),
  when (bit old 1 && !bit new 1) (chain [modJrn fun j => { j with owed := none }, noteAccept, sealExtent 4])]

/-- JOURNAL_ENABLE. -/
def execJournalEnable (ini : Ini) (v : Word) (s : State) : Host.Outcome State Fault Refusal :=
  .next (go (busWrite ini Reg.JRN_CTRL v (jrnCtrl ini v)) s)

/-- JOURNAL_STOP. -/
def execJournalStop (ini : Ini) (v : Word) (s : State) : Host.Outcome State Fault Refusal :=
  .next (go (busWrite ini Reg.JRN_CTRL v (jrnCtrl ini v)) s)

/-- SEAL_WRITE. -/
def execSealWrite (ini : Ini) (v : Word) (s : State) : Host.Outcome State Fault Refusal :=
  .next (go (busWrite ini Reg.JRN_CTRL v (jrnCtrl ini v)) s)

/-! ## The operation port (R325) -/

/-- An extent is in a state that an operation takes. -/
def opTakes (op st : Nat) : Bool := if op = 0 then st == 3 else st == 4 || st == 5

/-- The first extent of a range at which an operation fails, with RESULT and FOUND. -/
def opFail (s : State) (op : Nat) : List Nat → Option (Nat × Nat × Nat)
  | [] => none
  | e :: r =>
    if jrnExtents s ≤ e then some (e, 2, 0)
    else if opTakes op (extentState s e) then opFail s op r else some (e, 1, extentState s e)

/-- The operation's outcome: a FOUND that the spec does not give is free. [DESIGN CHOICE, log 74] -/
def opEnd (result : Nat) (found : Option Nat) : Eff := match found with
  | some f => setReg Reg.JRN_OP_STATUS (word (2 ^ 30 + f * 2 ^ 8 + result))
  | none => withFree 3 fun f => setReg Reg.JRN_OP_STATUS (word (2 ^ 30 + f.toNat * 2 ^ 8 + result))

/-- An operation runs on a range: all of it or nothing. [DEDUCED, log 73] [DESIGN CHOICE, log 74] -/
def opRun (op first count : Nat) : Eff := rd fun s =>
  let fail := fun (e result found : Nat) (known : Bool) => chain [
    opEnd result (if known then some found else none),
    raise 0x0F14 0xFFFF notice e (op * 2 ^ 32 + result * 2 ^ 8 + found)]
  if op = 2 then
    if jrnExtents s ≤ first then fail first 2 0 false else opEnd 0 (some (extentState s first))
  else if count = 0 then opEnd 0 none
  else match opFail s op (upFrom first count) with
    | some (e, result, found) => fail e result found (result == 1)
    | none => chain [
        each (upFrom first count) fun e => if op = 0 then setExtentState e 4 else indexPut e 0,
        opEnd 0 none]

/-- The operation port is BUSY. [DESIGN CHOICE, log 74] -/
def opBusy (s : State) : Bool := decide (s.raw < s.jrn.opUntil)

/-- A write of JRN_OP: GO runs the operation, and the port is BUSY for a time that the spec does not state; COUNT 0 completes
at once (R12). GO while BUSY is ignored (R325). [DESIGN CHOICE, log 74] -/
def opWrite (ini : Ini) (v : Word) : Eff := rd fun s0 =>
  let busy := opBusy s0
  writeReg ini Reg.JRN_OP v fun _ new => when (bit v 31) (rd fun s =>
    let count := regFld s Reg.JRN_OP_COUNT 28 0
    chain [
      putBit Reg.JRN_OP 31 false,
      if busy then raise 0x0F15 0xFFFF notice 0 0
      else chain [
        opRun (fld new 30 28) (regFld s Reg.JRN_OP_EXT 27 0) count,
        when (fld new 30 28 == 2 || count != 0) (withFree 16 fun d => modJrn fun j =>
          { j with opUntil := s.raw + d.toNat })]])

/-- EXTENT_ACK. -/
def execExtentAck (ini : Ini) (v : Word) (s : State) : Host.Outcome State Fault Refusal :=
  .next (go (busWrite ini Reg.JRN_OP v (opWrite ini v)) s)

/-- EXTENT_FREE. -/
def execExtentFree (ini : Ini) (v : Word) (s : State) : Host.Outcome State Fault Refusal :=
  .next (go (busWrite ini Reg.JRN_OP v (opWrite ini v)) s)

/-- EXTENT_QUERY. -/
def execExtentQuery (ini : Ini) (v : Word) (s : State) : Host.Outcome State Fault Refusal :=
  .next (go (busWrite ini Reg.JRN_OP v (opWrite ini v)) s)

/-! ## Windows (R316) -/

/-- Enabling a window would make it overlap another enabled one. -/
def winOverlaps (s : State) (w : Nat) : Bool := (upto 16).any fun o =>
  o != w && (jwinEn s o || winBusy s o)
    && decide (winFirst s w < winFirst s o + winCount s o ∧ winFirst s o < winFirst s w + winCount s w)

/-- WINDOW_BUSY. -/
def windowBusy (w off : Nat) (v : Word) : Eff := raise 0x0F16 w notice off v.toNat

/-- A write of a window's register `k`: 0 CTRL, 1 FIRST, 2 COUNT, 3 and 4 BASE. -/
def winWrite (ini : Ini) (w k : Nat) (v : Word) : Eff := rd fun s =>
  let off := Reg.JRN_WIN_CTRL w + 4 * k
  if k = 0 then
    if !jwinEn s w && bit v 31 && winOverlaps s w then windowBusy w off v
    else writeReg ini off v fun old new => when (bit old 31 && !bit new 31) (rd fun s =>
      when ((s.jrn.ext.map fun x => x.window) == some w) (sealExtent 5))
  else if jwinEn s w || winBusy s w then windowBusy w off v
  else writePlain ini off v

/-- WINDOW_WRITE. -/
def execWindowWrite (ini : Ini) (w : Fin 16) (k : Fin 5) (v : Word) (s : State) : Host.Outcome State Fault Refusal :=
  .next (go (busWrite ini (Reg.JRN_WIN_CTRL w + 4 * k) v (winWrite ini w k v)) s)

/-! ## Registers of JRN (R331) -/

/-- AGE_US in force (R322): at the basic level from DURABLE_MS and the upward capacity in MB/s, at least 100.
[DEDUCED, log 75] -/
def ageUs (s : State) : Nat :=
  if atExpert s Reg.JRN_CTRL then (regGet s Reg.JRN_AGE).toNat
  else
    let cap := (regGet s Reg.HGW_CAP_UP).toNat
    if cap = 0 then 100 else max 100 (regFld s Reg.JRN_POLICY 15 0 * 1000 - 2 ^ 24 / cap)

/-- EXTENT_AGE: the open extent is sealed once AGE_US has passed since its first record (R322). -/
def execExtentAge (s : State) : Host.Outcome State Fault Refusal :=
  .next (go (rd fun s => when (s.jrn.ext.any fun x => x.records != 0 && decide (x.since + 500 * ageUs s ≤ s.raw))
    (sealExtent 3)) s)

/-- The words of JRN that are views of its state. -/
def jrnView (s : State) (off : Nat) : Option Word :=
  let j := s.jrn
  if off = Reg.JRN_STATUS then some (word (b2n (atExpert s Reg.JRN_CTRL) * 2 ^ 24 + b2n j.note.isSome * 32
    + b2n j.noteRefused * 16 + b2n j.full * 8 + b2n (j.jobs.any fun x => x.placed) * 4 + b2n j.ext.isSome * 2 + b2n (jrnOn s)))
  else if off = Reg.JRN_AGE then some (word (ageUs s))
  else if off = Reg.JRN_OPEN_EXT then some (word ((j.ext.map fun x => x.extent).getD 0xFFFFFFFF))
  else if off = Reg.JRN_RSEQ_LO then some (word j.rseq)
  else if off = Reg.JRN_RSEQ_HI then some (word (j.rseq / 2 ^ 32))
  else if off = Reg.JRN_FREE_CNT then some (word (freeExtents s))
  else if off = Reg.JRN_OP then some (setFld (regGet s off) 31 31 (b2n (opBusy s)))
  else if off = Reg.JRN_OP_STATUS then
    some (if opBusy s then word (2 ^ 31 + (regGet s off).toNat % 2 ^ 30) else regGet s off)
  else none

/-- The effect of a write on a JRN register; none where the register is an ordinary one. -/
def jrnWrite (ini : Ini) (off : Nat) (v : Word) : Option Eff :=
  let rel := off - Reg.JRN_CTRL
  if off = Reg.JRN_CTRL then some (jrnCtrl ini v)
  else if off = Reg.JRN_OP then some (opWrite ini v)
  else if off = Reg.JRN_NOTE_GO then some (noteGo ini v)
  else if 0x1000 ≤ rel ∧ rel < 0x1200 ∧ rel % 0x20 < 0x14 then some (winWrite ini ((rel - 0x1000) / 0x20) (rel % 0x20 / 4) v)
  else none

end Sys2Proof.Machine
end

