-- ==== Sys2Proof/Machine/Gateway.lean ====
section
/-!
DEFINITION. The host gateway (chapter "Host gateway and PCI Express endpoint", R333 to R357, R519): errors, function
level reset, link changes, D-states, interrupt messages, and L0p.
-/
namespace Sys2Proof.Machine

/-! ## Capacity and declared rates (R36, R352) -/

/-- SPEED codes of HGW_STATUS, and lanes. -/
def speedCode : LinkSpeed → Nat
  | .g25 => 1
  | .g50 => 2
  | .g80 => 3
  | .g160 => 4
  | .g320 => 5
  | .g640 => 6

def laneCount : LinkWidth → Nat
  | .x1 => 1
  | .x2 => 2
  | .x4 => 4
  | .x8 => 8
  | .x16 => 16

/-- Capacity per lane each way, in units of 0.5 MB/s, by SPEED code (R352). -/
def laneHalves (speed : Nat) : Nat := nthD 0 speed [0, 400, 800, 1850, 3700, 7400, 15125]

/-- Capacity of a link in MB/s, rounded down. -/
def linkCap (speed width : Nat) : Nat := laneHalves speed * width / 2

/-- The declared rates are compared with the capacity of the trained link; either rate above it is RATE_SHORT. No
comparison without a trained link or a loaded structure. -/
def rateCompare : Eff := rd fun s =>
  when (s.gw.up && s.erg.valid) (
    let up := (regGet s Reg.HGW_DECL_UP).toNat
    let down := (regGet s Reg.HGW_DECL_DOWN).toNat
    let cap := linkCap s.gw.speed s.gw.fullWidth
    let short := decide (cap < up ∨ cap < down)
    chain [
      modGw fun g => { g with rateShort := short },
      when short (raise 0x0012 0xFFFF degraded (up + down * 2 ^ 32) (cap + cap * 2 ^ 32))])

/-- The capacity registers follow the trained link. [DEDUCED, log 82] -/
def setCaps : Eff := rd fun s => chain [
  setReg Reg.HGW_CAP_UP (word (linkCap s.gw.speed s.gw.fullWidth)),
  setReg Reg.HGW_CAP_DOWN (word (linkCap s.gw.speed s.gw.fullWidth))]

/-- The trained link's speed and width, and the capacity registers. -/
def setLink (speed width : Nat) : Eff := chain [
  modGw fun g => { g with speed := speed, fullWidth := width, width := width },
  setCaps]

/-! ## Releasing what waits (R346, R350, R353) -/

/-- The waiting writes are issued in their order, then the pending messages of vectors that are no longer held. -/
def releaseUpstream : Eff := chain [
  rd fun s => when (canIssue s) (chain [
    each s.gw.waiting fun w => issueWrite w.1 w.2,
    modGw fun g => { g with waiting := [] }]),
  rd fun s => each ((upto 64).filter fun v => s.gw.pba.testBit v && !msixHeld s v) fun v => chain [
    emit (.msix v (mget 0 v s.gw.msixAddr) (mget 0#32 v s.gw.msixData)),
    modGw fun g => { g with pba := clearMask g.pba (2 ^ v) }]]

/-! ## Errors (R347) -/

/-- UNSUPPORTED_REQUEST: a memory request is refused only while the endpoint takes none. -/
def execUnsupportedRequest (mem : Bool) (dw0 : Word) (addr : BitVec 64) (s : State) :
    Host.Outcome State Fault Refusal :=
  .next (go (when (s.gw.up && (!mem || !takesRequests s)) (unsupportedWith dw0.toNat addr.toNat)) s)

/-- A TLP error is counted, reported to AER under a status bit, and raised. [DEDUCED, log 81] -/
def tlpError (bit : Nat) (dw0 : Word) : Eff := chain [
  countSat Reg.HGW_TLP_ERR 1,
  modGw fun g => { g with aer := g.aer ||| 2 ^ bit },
  raise 0x0017 0xFFFF degraded bit dw0.toNat]

/-- The read of a tag is no longer outstanding. -/
def endRead (tag : Nat) : Eff := modGw fun g => { g with reads := g.reads.filter fun r => r.tag != tag }

/-- The read of a tag ends with error at its requester: the Mover is the one block whose reads stay outstanding between
commands (R371). -/
def failRead (r : HostRead) (aer : Nat) : Eff := when (r.block == 0x10) (movReadError r.addr aer)

/-- What a received TLP error does. A bad completion status sets no AER bit; the spec states no ARG0 for it.
[DEDUCED, log 81] -/
def tlpReceive (bad : TlpBad) (dw0 : Word) : Eff := rd fun s => match bad with
  | .poisoned => tlpError 12 dw0
  | .malformed => tlpError 18 dw0
  | .ecrc => tlpError 19 dw0
  | .unexpected tag =>
    if s.gw.reads.any fun r => r.tag == tag.toNat then skip
    else if s.gw.orphans.contains tag.toNat then modGw fun g => { g with orphans := g.orphans.filter (· != tag.toNat) }
    else tlpError 16 dw0
  | .status tag => match firstWhere (fun r => r.tag == tag.toNat) s.gw.reads with
    | some r => chain [
        endRead tag.toNat,
        countSat Reg.HGW_TLP_ERR 1,
        withFree 64 fun a0 => raise 0x0017 0xFFFF degraded a0.toNat dw0.toNat,
        failRead r 0xFF]
    | none => skip

/-- TLP_RECEIVE_ERROR. -/
def execTlpReceiveError (bad : TlpBad) (dw0 : Word) (s : State) : Host.Outcome State Fault Refusal :=
  .next (go (when s.gw.up (tlpReceive bad dw0)) s)

/-- A read gets no completion in time. -/
def cplTimeout (tag : Nat) : Eff := rd fun s => match firstWhere (fun r => r.tag == tag) s.gw.reads with
  | some r => chain [
      endRead tag,
      countSat Reg.HGW_CPL_TO 1,
      modGw fun g => { g with aer := g.aer ||| 2 ^ 14 },
      raise 0x0018 0xFFFF degraded tag r.block,
      failRead r 14]
  | none => skip

/-- COMPLETION_TIMEOUT. -/
def execCompletionTimeout (tag : BitVec 10) (s : State) : Host.Outcome State Fault Refusal :=
  .next (go (cplTimeout tag.toNat) s)

/-! ## Function level reset and DOWN (R348, R349, R351) -/

/-- The steps of R348 before the reset of the host's view: reads still outstanding end with error, waiting writes are
discarded, result queues with LOC 0 are disabled at once, and the Mover stops its use of host addresses.
[DEDUCED, log 82] -/
def hostSteps (why : Nat) : Eff := chain [
  modGw fun g => { g with flrEnded := g.flrEnded + g.reads.length, reads := [], waiting := [] },
  rd fun s => each ((upto 64).filter fun q => !rqDram s q && ((rqOf s q).enNow || regBit s (Reg.MEM_RQ_CTRL q) 31))
    fun q => chain [
      putBit (Reg.MEM_RQ_CTRL q) 31 false,
      modRq q fun r => { r with enNow := false }],
  movHostStop why]

/-- Configuration space, MSI-X table, PBA and the HGW registers marked FLR take their reset values (R348, R356).
[PRESUMED, log 80] -/
def hostReset : Eff := chain [
  modGw fun g => { g with
    mse := false, bme := false, msixEn := false, fmask := false, d3 := false, pmeEn := false, pmeStatus := false
    mps := 128, mrrs := 512, tag10 := false, aspm := false, aer := 0
    msixAddr := [], msixData := [], unmasked := 0, pba := 0 },
  resetRegs (Reg.HGW_WIN_BASE_LO 0) (Reg.HGW_WIN_BASE_LO 3)]

/-- Initiate Function Level Reset. -/
def startFlr : Eff := rd fun s => when (s.gw.up && !s.gw.flr) (chain [
  countSat Reg.HGW_FLR 1,
  modGw fun g => { g with flr := true, flrFrom := s.raw, flrEnded := 0 }])

/-- FLR. -/
def execFlr (s : State) : Host.Outcome State Fault Refusal := .next (go startFlr s)

/-- The 8 ms of an FLR in which completions are still accepted have passed (R348). -/
def flrCut (s : State) : Bool := decide (s.gw.flrFrom + 4000000 ≤ s.raw)

/-- FLR_READ_CUTOFF. [DEDUCED, log 82] -/
def execFlrReadCutoff (s : State) : Host.Outcome State Fault Refusal :=
  .next (go (when (s.gw.flr && flrCut s) (hostSteps 1)) s)

/-- The end of an FLR, which waits for the reads outstanding or their cutoff; whatever its earlier steps left is done with
it. [DEDUCED, log 82] -/
def endFlr : Eff := rd fun s => when (s.gw.flr && (s.gw.reads.isEmpty || flrCut s)) (chain [
  hostSteps 1,
  hostReset,
  modGw fun g => { g with flr := false },
  rd fun t => raise 0x0019 0xFFFF notice ((t.raw - t.gw.flrFrom) / 500) t.gw.flrEnded])

/-- FLR_COMPLETE. -/
def execFlrComplete (s : State) : Host.Outcome State Fault Refusal := .next (go endFlr s)

/-- ARG0 of HOST_LINK_DOWN. -/
def downCode : DownCause → Nat
  | .linkDown => 1
  | .hotReset => 2
  | .linkDisabled => 3
  | .perst => 4

/-- The host becomes DOWN; a further cause while it is DOWN changes nothing. -/
def goDown (cause : DownCause) : Eff := rd fun s => when s.gw.up (chain [
  modGw fun g => { g with up := false, flr := false, flrEnded := 0, rateShort := false, orphans := [], held := [] },
  hostSteps 2,
  hostReset,
  setLink 0 0,
  rd fun t => raise 0x0011 0xFFFF degraded (downCode cause) t.gw.flrEnded])

/-- HOST_LINK_DOWN. -/
def execHostLinkDown (cause : DownCause) (s : State) : Host.Outcome State Fault Refusal := .next (go (goDown cause) s)

/-! ## Link up and speed (R352, R519) -/

/-- HOST_LINK_UP is raised with the link in force, and the rates are compared. -/
def announceLink : Eff := chain [
  setCaps,
  rd fun s => raise 0x0010 0xFFFF notice (s.gw.speed + s.gw.fullWidth * 2 ^ 8) (linkCap s.gw.speed s.gw.fullWidth),
  rateCompare]

/-- The link comes up. -/
def goUp (speed width : Nat) : Eff := rd fun s => when (!s.gw.up) (chain [
  modGw fun g => { g with up := true },
  setLink speed width,
  when (!s.mainReset) announceLink])

/-- HOST_LINK_UP. -/
def execHostLinkUp (speed : LinkSpeed) (width : LinkWidth) (s : State) : Host.Outcome State Fault Refusal :=
  .next (go (goUp (speedCode speed) (laneCount width)) s)

/-- A change of speed or width other than under L0p. -/
def linkChange (speed width : Nat) : Eff := rd fun s =>
  when (s.gw.up && (s.gw.speed != speed || s.gw.fullWidth != width)) (chain [
    setLink speed width,
    when (!s.mainReset) rateCompare])

/-- LINK_SPEED_CHANGE. -/
def execLinkSpeedChange (speed : LinkSpeed) (width : LinkWidth) (s : State) : Host.Outcome State Fault Refusal :=
  .next (go (linkChange (speedCode speed) (laneCount width)) s)

/-! ## D-states, messages and bus mastering (R346, R350, R353) -/

/-- D-state codes of HGW_STATUS. -/
def dCode (d3 : Bool) : Nat := if d3 then 3 else 0

/-- The host writes the power management control: the D-state, PME_En, and a w1c of PME_Status. -/
def dState (d3 pmeEn clearPme : Bool) : Eff := rd fun s => when (s.gw.up && !s.gw.flr) (chain [
  modGw fun g => { g with d3 := d3, pmeEn := pmeEn, pmeStatus := g.pmeStatus && !clearPme },
  when (d3 != s.gw.d3 && !s.mainReset) (raise 0x001A 0xFFFF notice (dCode d3) (dCode s.gw.d3)),
  releaseUpstream])

/-- DSTATE_CHANGE. -/
def execDstateChange (d3 pmeEn clearPme : Bool) (s : State) : Host.Outcome State Fault Refusal :=
  .next (go (dState d3 pmeEn clearPme) s)

/-- The host writes MSI-X state; a table entry lies in BAR4, Message Control in configuration space. -/
def msixWrite : MsixWrite → Eff
  | .entry v addr data masked => rd fun s =>
    if takesRequests s then chain [
      modGw fun g => { g with
        msixAddr := mput v.val addr.toNat g.msixAddr
        msixData := mput v.val data g.msixData
        unmasked := if masked then clearMask g.unmasked (2 ^ v.val) else g.unmasked ||| 2 ^ v.val },
      releaseUpstream]
    else when s.gw.up unsupportedMem
  | .control en fm => rd fun s => when (s.gw.up && !s.gw.flr) (chain [
      modGw fun g => { g with msixEn := en, fmask := fm },
      releaseUpstream])

/-- MSIX_UNMASK. -/
def execMsixUnmask (w : MsixWrite) (s : State) : Host.Outcome State Fault Refusal := .next (go (match w with
  | .entry _ _ _ _ => inOrder (.msix w) (msixWrite w)
  | .control _ _ => msixWrite w) s)

/-- The host writes its enables; what waited for Bus Master Enable is issued. -/
def cfgWrite (c : CfgSpace) : Eff := rd fun s => when (s.gw.up && !s.gw.flr) (chain [
  modGw fun g => { g with
    mse := c.mse, bme := c.bme, mps := 128 * 2 ^ c.mps.val, mrrs := 128 * 2 ^ c.mrrs.val
    tag10 := c.tag10, aspm := c.aspm, aer := clearMask g.aer c.aerClear.toNat },
  releaseUpstream])

/-- BUS_MASTER_ENABLE. -/
def execBusMasterEnable (c : CfgSpace) (s : State) : Host.Outcome State Fault Refusal := .next (go (cfgWrite c) s)

/-! ## L1 and L0p (R354, R355) -/

/-- L1 is requested when nothing is outstanding or waiting. -/
def enterL1 : Eff := rd fun s =>
  when (s.gw.up && s.gw.aspm && s.gw.waiting.isEmpty && s.gw.reads.isEmpty) (emit .enterL1)

/-- L1_ENTRY. -/
def execL1Entry (s : State) : Host.Outcome State Fault Refusal := .next (go enterL1 s)

/-- A change of width under L0p is requested; capacity registers and RATE_SHORT stay. [DEDUCED, log 82] -/
def setWidth (w : Nat) : Eff := rd fun s => when (w != s.gw.width) (chain [
  modGw fun g => { g with width := w },
  emit (.l0pWidth w)])

/-- One L0p decision from the rates of the two directions in MB/s, over the idle time and over the last 10 µs. At the
basic level POLICY decides, with every width allowed; at the expert level WIDTH_MIN is the narrowest width.
[DEDUCED, log 82] -/
def l0pDecide (up down upNow downNow : Nat) : Eff := chain [
  levelBoundary Reg.HGW_CTRL,
  rd fun s =>
    let expert := atExpert s Reg.HGW_CTRL
    let least := if expert then regFld s Reg.HGW_L0P_SET 4 0 else 1
    let allowed := expert || regFld s Reg.HGW_L0P_POLICY 1 0 == 1
    let decl := max (regGet s Reg.HGW_DECL_UP).toNat (regGet s Reg.HGW_DECL_DOWN).toNat
    let fits := ([1, 2, 4, 8, 16].filter fun w => decide (least ≤ w ∧ w ≤ s.gw.fullWidth))
      |>.filter fun w => decide (5 * decl ≤ 4 * linkCap s.gw.speed w)
    when s.gw.up (
      if !allowed then setWidth s.gw.fullWidth
      else
        let cap := linkCap s.gw.speed s.gw.width
        let busy := decide (s.gw.width < s.gw.fullWidth)
          && (decide (4 * cap < 5 * upNow) || decide (4 * cap < 5 * downNow))
        if busy then setWidth s.gw.fullWidth
        else match fits with
          | w :: _ => when (decide (w < s.gw.width ∧ up < linkCap s.gw.speed w ∧ down < linkCap s.gw.speed w)) (setWidth w)
          | [] => setWidth s.gw.fullWidth)]

/-- L0P_DECISION. -/
def execL0pDecision (up down upNow downNow : BitVec 32) (s : State) : Host.Outcome State Fault Refusal :=
  .next (go (l0pDecide up.toNat down.toNat upNow.toNat downNow.toNat) s)

/-! ## Views and main reset (R356, R519) -/

/-- The words of HGW that are views of its state. -/
def hgwView (s : State) (off : Nat) : Option Word :=
  if off = Reg.HGW_STATUS then
    let g := s.gw
    some (word (b2n (atExpert s Reg.HGW_CTRL) * 2 ^ 24 + g.speed * 2 ^ 20 + g.width * 2 ^ 15 + dCode g.d3 * 2 ^ 10
      + b2n (decide (g.width < g.fullWidth)) * 2 ^ 9 + b2n g.bme * 2 ^ 5 + b2n g.mse * 2 ^ 4 + b2n g.msixEn * 2 ^ 3
      + b2n (!g.up) * 2 ^ 2 + b2n g.flr * 2 + b2n g.rateShort))
  else if off = Reg.HGW_TAGS then
    some (word ((if s.gw.tag10 then 512 else 256) * 2 ^ 16 + s.gw.reads.length))
  else if off = Reg.HGW_L0P_SET && !atExpert s Reg.HGW_CTRL then
    some (word (100 * 2 ^ 16 + (if regFld s Reg.HGW_L0P_POLICY 1 0 = 1 then 1 else 16)))
  else none

/-- What a main reset does to the gateway: reads end, waiting writes are discarded, and the registers
reset, HGW_SUBSYS apart. The endpoint keeps its configuration space and link. [DEDUCED, log 82] -/
def gatewayMainReset : Eff := chain [
  modGw fun g => { g with
    orphans := g.orphans ++ g.reads.map (·.tag), reads := [], waiting := [], rateShort := false },
  act (.clearRegs 0 Reg.HGW_SUBSYS),
  act (.clearRegs (Reg.HGW_SUBSYS + 4) 0x100000)]

end Sys2Proof.Machine
end

