-- ==== Sys2Proof/Machine/Barchan.lean ====
section
/-!
DEFINITION. Barchan (chapter "Barchan repair, aging and voltage", R441 to R462): row repair, self-test, live migration,
aging and the voltage loop.
-/
namespace Sys2Proof.Machine

/-! ## The map and its record (R443, R449, R453) -/

/-- FIELD counts map rewrites. -/
def fieldCount : Eff := rd fun s => putFld Reg.BCH_MAP_STATUS 31 16 (min (regFld s Reg.BCH_MAP_STATUS 31 16 + 1) 0xFFFF)

/-- The region of a region and class as REGION_SPARES_OUT gives it. -/
def areaCode (a : Nat) : Nat := if a = 16 then 0x10F else a

/-- Logical tiles of a region and class that are still mapped. -/
def areaMapped (s : State) (a : Nat) : Nat := areaLogical a - (s.erg.gone.filter fun l => tileArea l == a).length

/-- A region has no free spare. [DEDUCED, log 116] -/
def sparesOut (a : Nat) : Eff := rd fun s => raise 0x0816 0xFFFF degraded (areaCode a) (areaMapped s a)

/-- REGION_SPARES_OUT follows a change that took the last spare. -/
def takesSpare (a : Nat) (e : Eff) : Eff := rd fun s => chain [
  e,
  rd fun t => when (areaSpares s a != 0 && areaSpares t a == 0) (sparesOut a)]

/-- A logical tile maps to another physical tile (R52). -/
def mapTile (l p : Nat) : Eff := chain [
  modErg fun e => { e with moved := mput l p e.moved, gone := e.gone.filter (· != l) },
  mapCommit,
  fieldCount]

/-- A logical tile loses its tile: VALID 0 (R449). -/
def dropTile (l : Nat) : Eff := chain [
  modErg fun e => { e with gone := if e.gone.contains l then e.gone else l :: e.gone },
  mapCommit,
  sparesOut (tileArea l)]

/-- The instance on a logical tile. -/
def instAtTile (s : State) (l : Nat) : Option (Nat × Inst) := firstWhere (fun e => instHolds e.2 l) s.erg.insts

/-- A logical tile holds a running instance. -/
def tileRuns (s : State) (l : Nat) : Bool := ((instAtTile s l).map fun e => instRuns s e.2).getD false

/-- Free logical tiles of a region and class: mapped, without an instance, a shadow build's included (R54).
[DESIGN CHOICE, log 115] -/
def freeLogical (s : State) (a : Nat) : List Nat := (upFrom (areaFirst a) (areaLogical a)).filter fun l =>
  !s.erg.gone.contains l && (instAtTile s l).isNone && !((s.bch.mig.bind fun m => m.taken) == some l)

/-- After a change of the map outside a command that carries the outcome, the routes of the tile's instance are resolved again:
each may be lengthened by up to 6 hops, or one of them does not fit; the outcome is free. SOURCE of ROUTE_STRETCH is 0xFFFF.
[DESIGN CHOICE, log 90, 129] -/
def reroute (l : Nat) (ok fail : Eff) : Eff := rd fun s => match instAtTile s l with
  | none => ok
  | some (n, _) =>
    let rs := s.erg.routes.filter fun r => r.2.src == n || r.2.dst == n
    if rs.isEmpty then ok
    else withFree (3 * rs.length + 1) fun v =>
      if v.toNat % 2 = 1 then fail
      else chain [
        ok,
        each rs.zipIdx fun r =>
          let h := bits v.toNat (3 * r.2 + 3) (3 * r.2 + 1) % 7
          when (h != 0) (raise 0x0815 0xFFFF notice r.1.1 h)]

/-- A tile that fails is retired and its logical tile, if any, remapped without a shadow run (R449); where its routes do not
fit (R53), the logical tile loses its tile. [DESIGN CHOICE, log 115, 129] -/
def retireTile (p why : Nat) : Eff := rd fun s =>
  let l := logicalAt s p
  let a := physArea p
  chain [
    raise 0x0414 p degraded (l.getD 0xFFF) why,
    match l with
    | none => takesSpare a (chain [setBad p 5, mapCommit])
    | some l => match freeSpares s a with
      | q :: _ => reroute l (takesSpare a (chain [mapTile l q, setBad p 5])) (chain [setBad p 5, dropTile l])
      | [] => chain [setBad p 5, dropTile l]]

/-- At a structure start, an instance on a logical tile without a tile takes the tile of a free logical tile; with none, or
where its routes do not fit (R53), it is lost (R449). [DESIGN CHOICE, log 115, 129] -/
def placeInst (n : Nat) : Eff := rd fun s => match mget? n s.erg.insts with
  | none => skip
  | some i => each ((upFrom i.first (instTiles i)).filter fun l => s.erg.gone.contains l) fun l => rd fun t =>
    let lose := chain [
      modInst n fun i => { i with st := 5, lost := true },
      raise 0x041E 0xFFFF faultSev n (i.owner * 2 ^ 28 + i.id)]
    match freeLogical t (tileArea l) with
    | f :: _ => reroute l (chain [
        modErg fun e => { e with moved := mput l (physOf t f) e.moved, gone := f :: e.gone.filter (· != l) },
        mapCommit]) lose
    | [] => lose

/-- Every instance is placed. -/
def placeAll : Eff := rd fun s => each (s.erg.insts.map Prod.fst) placeInst

/-! ## DRAM rows (R445) -/

/-- A write of BCH_DRAM_CTRL: GO starts the repair of the candidates. [DEDUCED, log 117] -/
def dramCtrl (ini : Ini) (v : Word) : Eff := writeReg ini Reg.BCH_DRAM_CTRL v fun _ _ => when (bit v 31) (rd fun s => chain [
  modBch fun b => { b with dramRun := b.dramRows },
  when s.bch.dramRows.isEmpty (putBit Reg.BCH_DRAM_CTRL 31 false)])

/-- DRAM_REPAIR_GO. -/
def execDramRepairGo (ini : Ini) (v : Word) (s : State) : Host.Outcome State Fault Refusal :=
  .next (go (busWrite ini Reg.BCH_DRAM_CTRL v (dramCtrl ini v)) s)

/-- One candidate is repaired; in a bank group without a spare the row stays a candidate. -/
def dramRepair (row : Nat) : Eff := rd fun s =>
  let g := Config.dramGroup row
  let left := dramSpare s g
  if left = 0 then raise 0x0418 0xFFFF degraded 1 row
  else chain [
    modBch fun b => { b with
      dramSpares := mput g (left - 1) b.dramSpares, dramRows := b.dramRows.filter (· != row)
      corrected := b.corrected.filter fun e => e.1 != row },
    rd fun t => putFld Reg.BCH_DRAM_STATUS 15 0 (min (regFld t Reg.BCH_DRAM_STATUS 15 0 + 1) 0xFFFF),
    mapCommit,
    raise 0x0417 0xFFFF notice row (left - 1)]

/-- The next candidate of the run is done; GO clears with the last. -/
def dramNext : Eff := rd fun s => match s.bch.dramRun with
  | [] => skip
  | r :: rest => chain [
      dramRepair r,
      modBch fun b => { b with dramRun := rest },
      when rest.isEmpty (putBit Reg.BCH_DRAM_CTRL 31 false)]

/-- DRAM_ROW_REPAIR. -/
def execDramRowRepair (s : State) : Host.Outcome State Fault Refusal := .next (go dramNext s)

/-- Every candidate is repaired when main reset is released. -/
def dramAll : Eff := rd fun s => each s.bch.dramRows dramRepair

/-! ## Self-test (R446 to R449) -/

/-- A physical tile is under test. -/
def underTest (s : State) (p : Nat) : Bool := s.bch.tests.any fun t => t.tiles.contains p

/-- A test starts on tiles; each shows STATE 6, a retired one its own. -/
def startTest (t : TestRun) : Eff := rd fun s => chain [
  modBch fun b => { b with tests := b.tests ++ [{ t with since := s.raw }] },
  each (t.tiles.filter fun p => (mget? p s.erg.bad).isNone) fun p => setBad p 6]

/-- A test is abandoned, which is no failure (R448). -/
def abandonTest (p : Nat) : Eff := rd fun s => when (underTest s p) (chain [endTest p, reportTests p 3])

/-- A tile may be tested on its own: good, powered, and free (R447, R448). -/
def testable (s : State) (p : Nat) : Bool :=
  (mget? p s.erg.bad).isNone && (if physArea p = 16 then oasisPowered s else mainPowered s)
    && !((instOn s p).map fun e => instRuns s e.2).getD false && !((s.bch.mig.map fun m => m.target == p).getD false)

/-- The main region longest untested. -/
def nextRegion (s : State) : Nat :=
  let last := fun r => mget 0 r s.bch.tested
  (upto 16).foldl (fun m r => if last r < last m then r else m) 0

/-- A region's test is due in the state in force (R447). -/
def regionDue (s : State) : Bool := !s.bch.regionDone && match s.ham.st with
  | .watch => regBit s Reg.BCH_TEST_SCHED 1
  | .rest => regBit s Reg.BCH_TEST_SCHED 0
  | _ => false

/-- `hours` have passed since the raw count that a list names for a tile, if it names one. -/
def paceDue (s : State) (l : List (Nat × Nat)) (k hours : Nat) : Bool :=
  ((mget? k l).map fun t => decide (t + hours * 3600 * 500000000 ≤ s.raw)).getD true

/-- A free tile may have its test: in RUN and FULL, and with IN_WATCH in WATCH an Oasis tile; once per FREE_HOURS (R447). -/
def tileDue (s : State) (p : Nat) : Bool :=
  (mainPowered s || (s.ham.st == .watch && regBit s Reg.BCH_TEST_SCHED 1 && physArea p == 16))
    && paceDue s s.bch.checked p (regFld s Reg.BCH_TEST_SCHED 23 8)

/-- The schedule starts a test, or asks for a rotation. -/
def schedule : TestPick → Eff
  | .tile p => rd fun s => when (testable s p && tileDue s p && s.bch.tests.isEmpty) (chain [
      modBch fun b => { b with checked := mput p.val s.raw b.checked },
      startTest { region := none, tiles := [p] }])
  | .region r => rd fun s => when (regionDue s && !s.ham.moving && nextRegion s == r.val) (chain [
      modBch fun b => { b with regionDone := true },
      startTest { region := some r, tiles := (areaTiles r).filter fun p => (mget? p s.erg.bad).isNone }])
  | .rotate l => rd fun s =>
      let days := regFld s Reg.BCH_TEST_SCHED 31 24
      when (days != 0 && tileRuns s l && paceDue s s.bch.rotated l (24 * days)) (chain [
        modBch fun b => { b with rotated := mput l.val s.raw b.rotated },
        queueMig ⟨2, l⟩])

/-- TEST_SCHEDULE. -/
def execTestSchedule (pick : TestPick) (s : State) : Host.Outcome State Fault Refusal := .next (go (schedule pick) s)

/-- A write of BCH_TEST_CTRL: GO tests PTILE; a tile that a running instance holds, the target of a
migration, or no such tile completes at once (R448).
[DEDUCED, log 117] -/
def testCtrl (ini : Ini) (v : Word) : Eff := rd fun s0 =>
  let busy := s0.bch.tests.any fun t => t.go
  writeReg ini Reg.BCH_TEST_CTRL v fun _ new => when (bit v 31 && !busy) (rd fun s =>
    let p := fld new 11 0
    let reject := fun (r : Nat) => chain [
      modBch fun b => { b with testDone := true, testTile := p, testResult := r },
      putBit Reg.BCH_TEST_CTRL 31 false,
      raise 0x0415 p notice r 0]
    if 2304 ≤ p then reject 4
    else if ((instOn s p).map fun e => instRuns s e.2).getD false || ((s.bch.mig.map fun m => m.target == p).getD false) then
      reject 2
    else chain [
      modBch fun b => { b with testDone := false },
      abandonTest p,
      startTest { region := none, tiles := [p], go := true }])

/-- TILE_TEST_GO. -/
def execTileTestGo (ini : Ini) (v : Word) (s : State) : Host.Outcome State Fault Refusal :=
  .next (go (busWrite ini Reg.BCH_TEST_CTRL v (testCtrl ini v)) s)

/-- The test of a tile has taken its 2 ms; a region's tiles are tested 12 at a time (R446, R447). -/
def testRipe (s : State) (p : Nat) : Bool := s.bch.tests.any fun t =>
  t.tiles.contains p && decide (t.since + (t.done / 12 + 1) * 1000000 ≤ s.raw)

/-- A tile's test completes: a tile that fails is retired, unless it was retired before (R446, R449).
[DEDUCED, log 116] -/
def testDone (p : Nat) (pass : Bool) : Eff := rd fun s => when (underTest s p && testRipe s p) (
  let good := mget? p s.erg.bad == some 6
  let run := firstWhere (fun t => t.tiles.contains p) s.bch.tests
  let failed := !pass || ((run.map fun t => t.failed).getD false)
  chain [
    endTest p,
    countUp Reg.BCH_TESTS 1,
    when (!pass) (countSat Reg.BCH_TEST_FAILS 1),
    modBch fun b =>
      { b with
        tests := b.tests.map fun t =>
          if some t == (run.map fun r => { r with tiles := r.tiles.filter (· != p) })
          then { t with done := t.done + 1, failed := failed } else t },
    when (!pass && good) (retireTile p 1),
    reportTests p (b2n failed)])

/-- TILE_TEST_DONE. -/
def execTileTestDone (p : Fin 2304) (pass : Bool) (s : State) : Host.Outcome State Fault Refusal :=
  .next (go (testDone p pass) s)

/-! ## Live migration (R451 to R455) -/

/-- A request or a migration is abandoned. -/
def abandon (tile reason inst : Nat) : Eff := chain [
  countSat Reg.BCH_MIG_ABANDONED 1,
  raise 0x0412 tile degraded reason inst]

/-- The running migration ends without a cut; its target is free again, and `test` puts it under test. -/
def abandonMig (reason : Nat) (test : Bool) : Eff := rd fun s => match s.bch.mig with
  | none => skip
  | some m => chain [
      modBch fun b => { b with mig := none },
      modErg fun e => { e with spoiled := e.spoiled.filter (· != m.target) },
      modInst m.inst fun i => { i with moving := false, st := if i.st = 3 then 1 else i.st },
      abandon m.req.tile reason m.inst,
      when test (startTest { region := none, tiles := [m.target] })]

/-- A tile is remapped at once to a free spare, and the old one is tested; without a spare the request is abandoned
(R451). -/
def remapTile (q : MigReq) : Eff := rd fun s =>
  let p := physOf s q.tile
  match (if s.erg.gone.contains q.tile then [] else freeSpares s (tileArea q.tile)) with
  | t :: _ => reroute q.tile (takesSpare (tileArea q.tile) (chain [
      mapTile q.tile t,
      startTest { region := none, tiles := [p] }])) (abandon q.tile 2 0xFFFF)
  | [] => abandon q.tile 1 0xFFFF

/-- A REQUEST for a logical tile (R451): queued for a running instance, refused for a shadow one, else done at once. -/
def migRequest (l : Nat) : Eff := rd fun s => match instAtTile s l with
  | some (n, i) =>
    if i.shadow then abandon l 6 n
    else if instRuns s i then queueMig ⟨3, l⟩ else remapTile ⟨3, l⟩
  | none => remapTile ⟨3, l⟩

/-- The queue can take a request for a tile. [DEDUCED, log 117] -/
def migRoom (s : State) (l : Nat) : Bool := s.bch.queue.length < 32 || s.bch.queue.any fun q => q.tile == l

/-- GO clears once its request is queued. [DEDUCED, log 117] -/
def migGo : Eff := rd fun s =>
  let l := regFld s Reg.BCH_MIG_CTRL 11 0
  when (regBit s Reg.BCH_MIG_CTRL 31 && migRoom s l) (chain [
    migRequest l,
    putBit Reg.BCH_MIG_CTRL 31 false])

/-- A write of BCH_MIG_CTRL. [DEDUCED, log 117] -/
def migCtrl (ini : Ini) (v : Word) : Eff := writeReg ini Reg.BCH_MIG_CTRL v fun _ _ => when (bit v 31) migGo

/-- MIGRATE_REQUEST. -/
def execMigrateRequest (ini : Ini) (v : Word) (s : State) : Host.Outcome State Fault Refusal :=
  .next (go (busWrite ini Reg.BCH_MIG_CTRL v (migCtrl ini v)) s)

/-- A request may run: its tile's instance, if any, runs. A FAULT request of a region that is off stays queued (R451,
R455). [DEDUCED, log 117] -/
def migReady (s : State) (q : MigReq) : Bool :=
  ((instAtTile s q.tile).map fun e => e.2.shadow || instRuns s e.2).getD true

/-- The request that runs next: FAULT requests first. -/
def nextMig (s : State) : Option MigReq :=
  let l := s.bch.queue.filter (migReady s)
  (firstWhere (fun q => q.reason == 1) l).orElse fun _ => l.head?

/-- Targets of a request: a free spare; for a FAULT when there is none, the tile of a free unreserved logical tile.
[DESIGN CHOICE, log 115] -/
def migTargets (s : State) (q : MigReq) : List (Nat × Option Nat) :=
  let a := tileArea q.tile
  match freeSpares s a with
  | [] => if q.reason = 1 then (freeLogical s a).map fun l => (physOf s l, some l) else []
  | ps => ps.map fun p => (p, none)

/-- Spares under test can be taken too; their test is abandoned (R448). [DESIGN CHOICE, log 115] -/
def testedSpares (s : State) (a : Nat) : List Nat :=
  (areaTiles a).filter fun p => underTest s p && mget? p s.erg.bad == some 6 && (logicalAt s p).isNone

/-- The routes' stretches are reported (R53). A route joins two instances, and the spec does not say which is SOURCE; it is
0xFFFF. [DESIGN CHOICE, log 129] -/
def stretchAll (added : List (BitVec 16 × Fin 7)) : Eff :=
  each (added.filter fun e => e.2.val != 0) fun e => raise 0x0815 0xFFFF notice e.1.toNat e.2.val

/-- The next migration starts: the target is reserved (`want`, where it may be), and routes are resolved (R452 step 1). -/
def migStart (want : Nat) (fit : RouteFit) : Eff := rd fun s0 => match s0.bch.mig, nextMig s0 with
  | none, some q => chain [
      modBch fun b => { b with queue := b.queue.filter (· != q) },
      migGo,
      rd fun s => match instAtTile s q.tile with
        | none => if q.reason = 1 then retireTile (physOf s q.tile) 2 else when (q.reason == 3) (remapTile q)
        | some (n, i) => if i.shadow then abandon q.tile 6 n else chain [
            when (freeSpares s (tileArea q.tile)).isEmpty (each ((testedSpares s (tileArea q.tile)).take 1) abandonTest),
            rd fun t =>
              let all := migTargets t q
              let pick := (firstWhere (fun e => e.1 == want) all).orElse fun _ => all.head?
              match pick with
              | none => abandon q.tile 1 n
              | some e => chain [
                  raise 0x0410 q.tile notice q.reason (physOf t q.tile + e.1 * 2 ^ 16),
                  takesSpare (tileArea q.tile) (modBch fun b => { b with
                    mig := some { req := q, inst := n, target := e.1, taken := e.2, st := 2 } }),
                  match fit with
                  | .ok added => chain [stretchAll added, modInst n fun _ => { i with st := 3 }]
                  | .fail _ => abandonMig 2 false]]]
  | _, _ => skip

/-- MIGRATE_START. -/
def execMigrateStart (target : Fin 2304) (fit : RouteFit) (s : State) : Host.Outcome State Fault Refusal :=
  .next (go (migStart target fit) s)

/-- At L0 the local memory is copied, and both tiles process every line; `poison` says that a word of no pool table was
uncorrectable (R452 steps 2 and 3). -/
def migCopy (poison : Bool) : Eff := rd fun s => match s.bch.mig with
  | some m => when (m.st == 2) (chain [
      modBch fun b => { b with mig := some { m with st := 3, since := s.raw } },
      modInst m.inst fun i => { i with moving := true },
      when poison (modErg fun e => { e with spoiled := m.target :: e.spoiled })])
  | none => skip

/-- MIGRATE_COPY. -/
def execMigrateCopy (poison : Bool) (s : State) : Host.Outcome State Fault Refusal := .next (go (migCopy poison) s)

/-- A line has been shadowed: one that leaves the old tile with CHECK_MARK is not compared; an equal one counts; one that
differs ends a ROTATE or REQUEST, and for a FAULT the quick test of the target decides (R454). -/
def migShadow (seq : Nat) (check equal quick : Bool) : Eff := rd fun s => match s.bch.mig with
  | some m => when (m.st == 3) (
      let m := { m with lines := m.lines + 1, since := s.raw }
      if check then modBch fun b => { b with mig := some m }
      else if equal then
        let n := m.equal + 1
        modBch fun b => { b with mig := some { m with
            equal := n, st := if regFld s Reg.BCH_MIG_CFG 15 0 ≤ n then 4 else 3 } }
      else if m.req.reason != 1 then chain [
        modBch fun b => { b with mig := some m },
        abandonMig 3 true]
      else if quick then chain [
        modBch fun b => { b with mig := some { m with st := 4, differs := some seq } },
        raise 0x0413 m.req.tile degraded m.inst seq]
      else chain [
        modBch fun b => { b with mig := none, queue := m.req :: b.queue },
        modErg fun e => { e with spoiled := e.spoiled.filter (· != m.target) },
        modInst m.inst fun i => { i with moving := false },
        retireTile m.target 1])
  | none => skip

/-- MIGRATE_SHADOW_LINE. -/
def execMigrateShadowLine (seq : BitVec 16) (check equal quick : Bool) (s : State) :
    Host.Outcome State Fault Refusal := .next (go (migShadow seq.toNat check equal quick) s)

/-- The cut (R452 step 4, R453): the target becomes the tile of the instance, and the old tile is retired after a FAULT and
tested otherwise. -/
def migCut (seq : Nat) : Eff := rd fun s => match s.bch.mig with
  | some m =>
    let old := physOf s m.req.tile
    chain [
      modBch fun b => { b with mig := none },
      mapTile m.req.tile m.target,
      match m.taken with
      | some l => dropTile l
      | none => skip,
      modInst m.inst fun i => { i with moving := false, last := true, st := 1, failed := s.erg.spoiled.contains m.target },
      countUp Reg.BCH_MIGRATIONS 1,
      if m.req.reason = 1 then chain [setBad old 5, raise 0x0414 old degraded m.req.tile 2]
      else startTest { region := none, tiles := [old] },
      raise 0x0411 m.req.tile notice m.inst (m.lines + seq * 2 ^ 32)]
  | none => skip

/-- MIGRATE_CUT: once enough lines were equal, or a FAULT's target has passed its quick test. -/
def execMigrateCut (seq : BitVec 16) (s : State) : Host.Outcome State Fault Refusal :=
  .next (go (when ((s.bch.mig.map fun m => m.st == 4).getD false) (migCut seq.toNat)) s)

/-- MIGRATE_IDLE_CUT: no line for IDLE_MS; there is no line L_cut to name. [DEDUCED, log 117] -/
def execMigrateIdleCut (s : State) : Host.Outcome State Fault Refusal :=
  .next (go (when ((s.bch.mig.map fun m => (m.st == 3 || m.st == 4)
      && decide (m.since + regFld s Reg.BCH_MIG_CFG 31 16 * 500000 ≤ s.raw)).getD false)
    (withFree 16 fun seq => migCut seq.toNat)) s)

/-- The regions power down: a running migration is abandoned, a FAULT request stays queued (R455). -/
def migPowerDown : Eff := rd fun s => match s.bch.mig with
  | none => skip
  | some m => when (physArea m.target != 16) (chain [
      abandonMig 5 false,
      when (m.req.reason == 1) (modBch fun b => { b with queue := m.req :: b.queue })])

/-- Before instances restart at RUN, FAULT requests that stayed queued are plain remaps (R449, R455). -/
def applyFaults : Eff := rd fun s => each (s.bch.queue.filter fun q => q.reason == 1 && tileArea q.tile != 16) fun q => chain [
  modBch fun b => { b with queue := b.queue.filter (· != q) },
  rd fun t => when (!t.erg.gone.contains q.tile) (retireTile (physOf t q.tile) 2)]

/-! ## Aging (R450) -/

/-- An aging measurement of the regions: the record keeps each highest value and the hours. [DEDUCED, log 116] -/
def ageMeasure (ppm : List Nat) : Eff := chain [
  countUp Reg.BCH_HOURS 1,
  each (upto 17) fun r => rd fun s =>
    let v := max (nthD 0 r ppm) (regFld s (Reg.BCH_REGION r) 31 16)
    let warn := regFld s Reg.BCH_AGE_WARN 15 0
    chain [
      putFld (Reg.BCH_REGION r) 31 16 v,
      when (decide (warn < v) && !s.bch.aged.contains (r, v / 1000)) (chain [
        modBch fun b => { b with aged := (r, v / 1000) :: b.aged },
        raise 0x041C r degraded v warn])],
  mapCommit]

/-- AGE_MEASURE. -/
def execAgeMeasure (ppm : List (BitVec 16)) (s : State) : Host.Outcome State Fault Refusal :=
  .next (go (ageMeasure (ppm.map BitVec.toNat)) s)

/-! ## Margins and voltage (R456 to R460) -/

/-- The device constant MARGIN_MIN, ps. -/
def marginMin : Nat := 15

/-- The monitors of the powered regions are sampled: `ms` holds each region's worst reading. -/
def marginSample (ms : List Nat) : Eff := rd fun s => when (mainPowered s && !ms.isEmpty) (
  let rs := (upto 16).filter fun r => decide (r < ms.length)
  let w := rs.foldl (fun w r => if nthD 0 r ms < nthD 0 w ms then r else w) 0
  chain [
    modBch fun b => { b with
      margin := nthD 0 w ms, worst := w
      stretched := b.stretched.filter fun r => decide (nthD 0 r ms < marginMin) },
    each rs fun r => putFld (Reg.BCH_REGION r) 15 8 (nthD 0 r ms)])

/-- MARGIN_SAMPLE. -/
def execMarginSample (m : List (BitVec 8)) (s : State) : Host.Outcome State Fault Refusal :=
  .next (go (marginSample (m.map BitVec.toNat)) s)

/-- TARGET and HYST in force (R458). -/
def avsTarget (s : State) : Nat × Nat :=
  if atExpert s Reg.BCH_CTRL then (regFld s Reg.BCH_AVS_TARGET 7 0, regFld s Reg.BCH_AVS_TARGET 15 8)
  else match regFld s Reg.BCH_AVS_POLICY 1 0 with
    | 0 => (30, 6)
    | 2 => (60, 10)
    | _ => (40, 8)

/-- LOOP_EN in force: the basic level runs the loop. -/
def avsLoop (s : State) : Bool := !atExpert s Reg.BCH_CTRL || regBit s Reg.BCH_AVS_VID 31

/-- The code the step wants (R458); it is below 0 where code 0 has margin to spare. -/
def avsWant (s : State) : Int :=
  let v : Int := s.bch.vid
  let m := s.bch.margin
  let (t, h) := avsTarget s
  if !avsLoop s then regFld s Reg.BCH_AVS_VID 5 0
  else match s.bch.vidWrite with
    | some w => w
    | none => if m < marginMin then v + 2 else if m + h < t then v + 1
        else if t + h < m ∧ 23 ≤ m then v - 1 else v

/-- One step of F_PERMIT (R459): lowered when the code may not rise, raised after 100 steps with margin, and a rise undone.
Gives F_PERMIT, the steps with margin, whether a rise may be undone, and the steps without a rise. [DEDUCED, log 118] -/
def permitStep (s : State) (lower : Bool) : Nat × Nat × Bool × Nat :=
  let b := s.bch
  let f := s.erg.permF
  let (t, h) := avsTarget s
  let good := if t + h ≤ b.margin then b.good + 1 else 0
  if b.risen && decide (b.margin < marginMin) then (max 200 (f - 50), 0, false, 10000)
  else if lower then (max 200 (f - 50), 0, false, b.ban - 1)
  else if b.throttled.isSome && decide (100 ≤ good) && b.ban == 0 then (min 1600 (f + 50), 0, true, 0)
  else (f, good, b.risen, b.ban - 1)

/-- THROTTLED follows F_PERMIT (R459). [DEDUCED, log 118] -/
def throttle (before : Nat) : Eff := rd fun s =>
  let f := s.erg.permF
  let aim := clockTarget s 200 1600 s.erg.fmin (regFld s Reg.ERG_FCLK_SET 11 0)
  match s.bch.throttled with
  | none => when (decide (f < before)) (chain [
      modBch fun b => { b with throttled := some s.raw },
      raise 0x0419 0xFFFF degraded f (s.bch.vid + regFld s Reg.BCH_AVS_BOUND 13 8 * 2 ^ 8)])
  | some t => when (decide (before < f ∧ (aim ≤ f ∨ f = 1600))) (chain [
      modBch fun b => { b with throttled := none, risen := false },
      raise 0x041A 0xFFFF notice f ((s.raw - t) / 500000)])

/-- One step of the voltage loop (R458, R459). [DEDUCED, log 118] -/
def avsStep : Eff := chain [
  levelBoundary Reg.BCH_CTRL,
  rd fun s => when (mainPowered s) (
    let v := s.bch.vid
    let m := s.bch.margin
    let floor := regFld s Reg.BCH_AVS_BOUND 5 0
    let ceil := min 40 (regFld s Reg.BCH_AVS_BOUND 13 8)
    let want := avsWant s
    let new := (clampI floor ceil want).toNat
    let guard := decide (m < marginMin + 8)
    let top := if avsLoop s then ceil else min ceil (max floor (regFld s Reg.BCH_AVS_VID 5 0))
    let lower := guard && decide (top ≤ v ∨ 40 ≤ v)
    let held := !avsLoop s || s.bch.vidWrite.isSome
    let step := if new < v then (if guard then v else if held then v - 1 else max new (v - 1)) else new
    let p := permitStep s lower
    chain [
      policyClamp 0x04 0xFFFF want new,
      modBch fun b => { b with vid := step, vidWrite := none, good := p.2.1, risen := p.2.2.1, ban := p.2.2.2 },
      modErg fun e => { e with permF := p.1 },
      throttle s.erg.permF])]

/-- AVS_STEP. -/
def execAvsStep (s : State) : Host.Outcome State Fault Refusal := .next (go avsStep s)

/-- A monitor below 5 ps stretches its region's clocks (R460). -/
def droop (r mon ps : Nat) : Eff := when (decide (ps < 5)) (chain [
  modBch fun b => { b with stretched := if b.stretched.contains r then b.stretched else r :: b.stretched },
  countSat Reg.BCH_DROOPS 1,
  raiseMerge 0x041B r notice ps mon])

/-- DROOP. -/
def execDroop (r : Fin 16) (monitor : Fin 8) (ps : BitVec 8) (s : State) : Host.Outcome State Fault Refusal :=
  .next (go (when (mainPowered s) (droop r monitor ps.toNat)) s)

/-! ## Registers -/

/-- A write of BCH_AVS_BOUND: FLOOR above CEIL is ignored. -/
def avsBound (ini : Ini) (v : Word) : Eff := when (!decide (min 40 (fld v 13 8) < fld v 5 0)) (writePlain ini Reg.BCH_AVS_BOUND v)

/-- A write of BCH_AVS_VID: a written VID wins over the step's own (R21, R458). -/
def avsVid (ini : Ini) (v : Word) : Eff := writeReg ini Reg.BCH_AVS_VID v fun _ new =>
  modBch fun b => { b with vidWrite := some (fld new 5 0) }

/-- A write of BCH_TEST_SCHED: the record holds the schedule (R442). [DEDUCED, log 116] -/
def testSched (ini : Ini) (v : Word) : Eff := writeReg ini Reg.BCH_TEST_SCHED v fun _ _ => mapCommit

/-- Writes of BCH registers with an effect beyond their fields. -/
def bchWrite (ini : Ini) (off : Nat) (v : Word) : Option Eff :=
  if off = Reg.BCH_CTRL then some (writeLevel ini off v fun _ _ => skip)
  else if off = Reg.BCH_AVS_BOUND then some (avsBound ini v)
  else if off = Reg.BCH_AVS_VID then some (avsVid ini v)
  else if off = Reg.BCH_TEST_SCHED then some (testSched ini v)
  else if off = Reg.BCH_DRAM_CTRL then some (dramCtrl ini v)
  else if off = Reg.BCH_TEST_CTRL then some (testCtrl ini v)
  else if off = Reg.BCH_MIG_CTRL then some (migCtrl ini v)
  else none

/-- The words of BCH that are views of its state (R461). -/
def bchView (s : State) (off : Nat) : Option Word :=
  let b := s.bch
  if off = Reg.BCH_STATUS then
    some (word (b2n (atExpert s Reg.BCH_CTRL) * 2 ^ 24 + b2n b.throttled.isSome * 8 + b2n (!b.dramRows.isEmpty) * 4
      + b2n (!b.tests.isEmpty) * 2 + b2n b.mig.isSome))
  else if off = Reg.BCH_AVS_TARGET then some (word ((avsTarget s).2 * 2 ^ 8 + (avsTarget s).1))
  else if off = Reg.BCH_AVS_VID then some (word (b2n (avsLoop s) * 2 ^ 31 + b.vid))
  else if off = Reg.BCH_AVS_STATUS then
    some (word (b.worst * 2 ^ 28 + s.erg.permF * 2 ^ 16 + b.margin * 2 ^ 8 + b.vid))
  else if off = Reg.BCH_POOL_SPARE then some (word (sumOf (poolSpare s) (upto 256)))
  else if off = Reg.BCH_DRAM_CTRL then
    some (word (b2n (regBit s Reg.BCH_DRAM_CTRL 31) * 2 ^ 31 + min b.dramRows.length 255))
  else if off = Reg.BCH_DRAM_STATUS then
    some (word ((Config.dramGroups - b.dramSpares.length) * 2 ^ 16 + regFld s Reg.BCH_DRAM_STATUS 15 0))
  else if off = Reg.BCH_TEST_STATUS then
    some (word (b2n (b.tests.any fun t => t.go) * 2 ^ 31 + b2n b.testDone * 2 ^ 30 + b.testTile * 2 ^ 8 + b.testResult))
  else if off = Reg.BCH_MIG_STATUS then
    some (word (((b.mig.map fun m => m.st).getD 0) * 2 ^ 28 + ((b.mig.map fun m => m.req.reason).getD 0) * 2 ^ 24
      + b.queue.length * 2 ^ 18 + ((b.mig.map fun m => m.req.tile).getD 0)))
  else none

end Sys2Proof.Machine
end

