-- ==== Sys2Proof/Machine/CoreStores.lean ====
section
/-!
DEFINITION. The state of the control cores and their stores on the way to memory: the store buffer, the data caches and
the reservations (R400, R403, R404, R407).
-/
namespace Sys2Proof.Machine

/-- One core, and changing it. -/
def coreOf (s : State) (n : Nat) : Core := mget {} n s.cco.cores
def modCore (n : Nat) (f : Core → Core) : Eff :=
  modCco fun c => { c with cores := mput n (f (mget {} n c.cores)) c.cores }

/-- A cached line with the bytes of a store from `a` in their places. -/
def patchLine (a : Nat) (bs : List Byte) (l : Nat × List Byte) : Nat × List Byte :=
  (l.1, l.2.zipIdx.map fun p => if a ≤ l.1 + p.2 then (bs[l.1 + p.2 - a]?).getD p.1 else p.1)

/-- The data caches of all cores see a core's store (R403). [DESIGN CHOICE, log 105] -/
def patchCaches (a : Nat) (bs : List Byte) : Eff := rd fun s =>
  when (s.cco.cores.any fun e => !e.2.dcache.isEmpty) (modCco fun c =>
    { c with cores := c.cores.map fun e => (e.1, { e.2 with dcache := e.2.dcache.map (patchLine a bs) }) })

/-- Bytes cut where a unit of 4 KiB ends, so that each part has one owner. -/
def unitParts (a : Nat) (bs : List Byte) : List (Nat × List Byte) :=
  let n := (a / 0x1000 + 1) * 0x1000 - a
  if bs.length ≤ n then [(a, bs)] else [(a, bs.take n), (a + n, bs.drop n)]

/-- A store of a core is performed: it reaches memory, unless a guard drops it (R294), and the data caches. It leaves the
core's own reservation. -/
def coreWrite (n a : Nat) (bs : List Byte) : Eff := rd fun s => chain [
  each (unitParts a bs) fun p => rd fun s' => chain [
    when (guardOf s' p.1 p.2.length == .none) (patchCaches p.1 p.2),
    softWrite p.1 p.2],
  when (coreOf s n).reserved.isSome (modCore n fun c => { c with reserved := (coreOf s n).reserved })]

/-- Two stores touch a common byte. -/
def storesMeet (x y : Nat × List Byte) : Bool := decide (x.1 < y.1 + y.2.length ∧ y.1 < x.1 + x.2.length)

/-- A store may be performed while the older ones `left` wait: none of them touches it, and no fence stands between. A
fence goes when nothing older waits. [DEDUCED, log 103] -/
def mayPerform (left : List (Nat × List Byte)) (e : Nat × List Byte) : Bool :=
  if e.2.isEmpty then left.isEmpty else left.all fun o => !o.2.isEmpty && !storesMeet o e

/-- The stores that `pick` performs, oldest first, and those that wait on. [DEDUCED, log 103] -/
def pickStores (pick : Nat → Bool) : Nat → List (Nat × List Byte) → List (Nat × List Byte) →
    List (Nat × List Byte) × List (Nat × List Byte)
  | _, left, [] => ([], left)
  | i, left, e :: es =>
    if mayPerform left e && (pick i || e.2.isEmpty) then
      let r := pickStores pick (i + 1) left es
      (e :: r.1, r.2)
    else pickStores pick (i + 1) (left ++ [e]) es

/-- Some stores of a core are performed. [DEDUCED, log 103] -/
def drainStores (n : Nat) (pick : Nat → Bool) : Eff := rd fun s =>
  let l := (coreOf s n).stores
  when (!l.isEmpty) (
    let r := pickStores pick 0 [] l
    chain [
      modCore n fun c => { c with stores := r.2 },
      each (r.1.filter fun e => !e.2.isEmpty) fun e => coreWrite n e.1 e.2])

/-- Every store of a core is performed. -/
def drainAll (n : Nat) : Eff := drainStores n fun _ => true

/-- Any stores of a core may be performed (R407). [DEDUCED, log 103] -/
def drainFree (n : Nat) : Eff := rd fun s =>
  when (!(coreOf s n).stores.isEmpty) (withFree 64 fun v => drainStores n fun i => v.toNat.testBit (i % 64))

/-- Time passes: any waiting stores may be performed. -/
def drainSome : Eff := each (upto 4) drainFree

end Sys2Proof.Machine
end

