-- ==== Sys2Proof/Machine/Cores.lean ====
section
/-!
DEFINITION. The control cores apart from their instructions: start, reset, watchdogs, interrupts, the host mailbox, debug
halts, and CCO's registers (R399, R403, R410 to R417).
-/
namespace Sys2Proof.Machine

/-- CCO works: it is powered, and main reset is released. -/
def ccoOn (s : State) : Bool := blockPowered s 0x03 && !s.mainReset

/-- A CSR of a core as it was last written. -/
def csrGet (c : Core) (k : Nat) : BitVec 64 := mget 0#64 k c.csr

/-! ## Reset and start (R414) -/

/-- CCO_CORE_ENTRY of a core. -/
def coreEntry (s : State) (n : Nat) : Nat :=
  regWide s (Reg.CCO_CORE_ENTRY_LO n) (Reg.CCO_CORE_ENTRY_HI n) % 2 ^ 40 / 2 * 2

/-- A core starts at an address. [DESIGN CHOICE, log 110] -/
def coreStart (n a : Nat) : Eff := rd fun s => modCore n fun _ => { st := 1, pc := a, wdgFrom := s.raw, warned := false }

/-- A core is reset: its stores are performed, its registers, CSRs, PMP entries and caches are cleared, and it starts
again or stops. [DESIGN CHOICE, log 110] -/
def coreReset (n why : Nat) : Eff := rd fun s => chain [
  drainAll n,
  if regBit s (Reg.CCO_CORE_CTRL n) 30 then coreStart n (coreEntry s n)
  else modCore n fun _ => { wdgFrom := s.raw },
  raise 0x0313 n notice (coreEntry s n) why]

/-- A write of CCO_CORE_CTRL: RESET and DINV clear when done. [DESIGN CHOICE, log 110] -/
def coreCtrl (ini : Ini) (n : Nat) (v : Word) : Eff := writeReg ini (Reg.CCO_CORE_CTRL n) v fun _ new => chain [
  setReg (Reg.CCO_CORE_CTRL n) (setFld (setFld new 31 31 0) 29 29 0),
  when (bit v 29) (modCore n fun c => { c with dcache := [] }),
  when (bit v 31) (coreReset n 1)]

/-- CORE_RESET: a write of CCO_CORE_CTRL with RESET set. -/
def execCoreReset (ini : Ini) (n : Fin 4) (v : Word) (s : State) : Host.Outcome State Fault Refusal :=
  let w := setFld v 31 31 1
  .next (go (busWrite ini (Reg.CCO_CORE_CTRL n) w (coreCtrl ini n w)) s)

/-- DINV: a write of CCO_CORE_CTRL with DINV set. -/
def execDinv (ini : Ini) (n : Fin 4) (v : Word) (s : State) : Host.Outcome State Fault Refusal :=
  let w := setFld v 29 29 1
  .next (go (busWrite ini (Reg.CCO_CORE_CTRL n) w (coreCtrl ini n w)) s)

/-! ## Watchdogs (R415) -/

/-- TIMEOUT_MS of a core's watchdog. -/
def wdgTimeout (s : State) (n : Nat) : Nat := regFld s (Reg.CCO_WDG_CTRL n) 15 0

/-- Milliseconds left to a watchdog. -/
def wdgLeft (s : State) (n : Nat) : Nat :=
  let c := coreOf s n
  if regBit s (Reg.CCO_WDG_CTRL n) 31 then wdgTimeout s n - (c.wdgHeld.getD (s.raw - c.wdgFrom)) / 500000 else 0

/-- The count of a watchdog starts again. [DESIGN CHOICE, log 110] -/
def wdgRestart (n : Nat) : Eff := rd fun s => modCore n fun c =>
  { c with wdgFrom := s.raw, wdgHeld := c.wdgHeld.map fun _ => 0 }

/-- A write of CCO_WDG_KICK. -/
def wdgKick (ini : Ini) (n : Nat) (v : Word) : Eff := writeReg ini (Reg.CCO_WDG_KICK n) v fun _ _ =>
  when (fld v 15 0 == 0x5AFE) (chain [wdgRestart n, modCore n fun c => { c with warned := false }])

/-- WDOG_KICK. -/
def execWdogKick (ini : Ini) (n : Fin 4) (v : Word) (s : State) : Host.Outcome State Fault Refusal :=
  .next (go (busWrite ini (Reg.CCO_WDG_KICK n) v (wdgKick ini n v)) s)

/-- A watchdog's count has run out: a warning, and at the second expiry a reset of the core. [DESIGN CHOICE, log 110] -/
def wdgExpire (n : Nat) : Eff := rd fun s =>
  let c := coreOf s n
  let mepc := (csrGet c 0x341).toNat
  when (ccoOn s && regBit s (Reg.CCO_WDG_CTRL n) 31 && c.st != 3 && wdgLeft s n == 0) (
    if !c.warned then chain [
      putBit (Reg.CCO_IRQ_PEND n) 4 true,
      raise 0x0311 n degraded (wdgTimeout s n) mepc,
      wdgRestart n,
      modCore n fun x => { x with warned := true }]
    else chain [
      countSat (Reg.CCO_WDG_RESETS n) 1,
      raise 0x0312 n faultSev (wdgTimeout s n) mepc,
      coreReset n 2])

/-- WDOG_EXPIRE. -/
def execWdogExpire (n : Fin 4) (s : State) : Host.Outcome State Fault Refusal := .next (go (wdgExpire n) s)

/-! ## Interrupts (R410, R412) -/

/-- MTIP: the raw counter is at or above CCO_TIMECMP. -/
def mtip (s : State) (n : Nat) : Bool :=
  decide (regWide s (Reg.CCO_TIMECMP_LO n) (Reg.CCO_TIMECMP_HI n) ≤ s.raw % 2 ^ 64)

/-- CCO_IRQ_PEND. -/
def irqPend (s : State) (n : Nat) : Nat :=
  let w := regGet s (Reg.CCO_IRQ_PEND n)
  b2n (bit w 4) * 16
    + b2n (regGet s (Reg.CCO_MOV_PEND_LO n) != 0#32 || regGet s (Reg.CCO_MOV_PEND_HI n) != 0#32) * 8
    + b2n (regGet s (Reg.CCO_RQ_PEND_LO n) != 0#32 || regGet s (Reg.CCO_RQ_PEND_HI n) != 0#32) * 4
    + b2n (s.evt.corePend.testBit n) * 2 + b2n (bit w 0)

/-- mip: MEIP, MTIP and MSIP. -/
def mipOf (s : State) (n : Nat) : Nat :=
  b2n ((irqPend s n &&& regFld s (Reg.CCO_IRQ_EN n) 4 0) != 0) * 2 ^ 11 + b2n (mtip s n) * 2 ^ 7
    + b2n (regBit s (Reg.CCO_MSIP n) 0) * 2 ^ 3

/-- Some interrupt is pending and enabled in mie. [DEDUCED, log 108] -/
def irqWaits (s : State) (n : Nat) : Bool := (mipOf s n &&& (csrGet (coreOf s n) 0x304).toNat) != 0

/-- A core in WFI resumes when an enabled interrupt is pending. [DEDUCED, log 108] -/
def wfiWake (n : Nat) : Eff := rd fun s =>
  when ((coreOf s n).st == 2 && irqWaits s n) (modCore n fun c => { c with st := 1 })

/-- MACHINE_TIMER: the raw counter is at CCO_TIMECMP, and the pending interrupt ends a WFI. [DESIGN CHOICE, log 5] -/
def execMachineTimer (n : Fin 4) (s : State) : Host.Outcome State Fault Refusal :=
  .next (go (when (ccoOn s && mtip s n) (wfiWake n)) s)

/-- MSIP_WRITE. -/
def execMsipWrite (ini : Ini) (n : Fin 4) (v : Word) (s : State) : Host.Outcome State Fault Refusal :=
  .next (go (busWrite ini (Reg.CCO_MSIP n) v (writeReg ini (Reg.CCO_MSIP n) v fun _ _ => wfiWake n)) s)

/-! ## The host mailbox (R413) -/

/-- A mailbox word that is in use keeps its value. -/
def mbxBusy (off : Nat) (v : Word) : Eff := raise 0x0314 0xFFFF notice off v.toNat

/-- A write of CCO_MBX_IN_DB: the named cores get MAILBOX pending, and the device wakes. -/
def mbxDoorbell (ini : Ini) (v : Word) : Eff := writeReg ini Reg.CCO_MBX_IN_DB v fun _ _ => when (fld v 3 0 != 0) (chain [
  each ((upto 4).filter (bit v)) fun n => chain [putBit (Reg.CCO_IRQ_PEND n) 0 true, wfiWake n],
  wake 8])

/-- MBX_DOORBELL. -/
def execMbxDoorbell (ini : Ini) (v : Word) (s : State) : Host.Outcome State Fault Refusal :=
  .next (go (busWrite ini Reg.CCO_MBX_IN_DB v (mbxDoorbell ini v)) s)

/-- A write of CCO_IRQ_PEND: MAILBOX clears the core's bit of CORES with it. -/
def irqPendWrite (ini : Ini) (n : Nat) (v : Word) : Eff := writeReg ini (Reg.CCO_IRQ_PEND n) v fun _ _ =>
  when (bit v 0) (putBit Reg.CCO_MBX_IN_DB n false)

/-- MAILBOX_CLEAR: a write of CCO_IRQ_PEND with 1 at MAILBOX. -/
def execMailboxClear (ini : Ini) (n : Fin 4) (v : Word) (s : State) : Host.Outcome State Fault Refusal :=
  let w := setFld v 0 0 1
  .next (go (busWrite ini (Reg.CCO_IRQ_PEND n) w (irqPendWrite ini n w)) s)

/-- A write of CCO_MBX_OUT_DB: ACK clears GO; GO, when it was clear, sends the message on MBX_VEC.
[DESIGN CHOICE, log 110] -/
def mbxOut (ini : Ini) (v : Word) : Eff := writeReg ini Reg.CCO_MBX_OUT_DB v fun old new => chain [
  setReg Reg.CCO_MBX_OUT_DB (setFld (setFld new 30 30 0) 31 31 (b2n (bit v 31 || (bit old 31 && !bit v 30)))),
  when (bit v 31 && (!bit old 31 || bit v 30)) (msix (fld new 5 0))]

/-- MBX_OUT_GO: a write of CCO_MBX_OUT_DB with GO set. -/
def execMbxOutGo (ini : Ini) (v : Word) (s : State) : Host.Outcome State Fault Refusal :=
  let w := setFld v 31 31 1
  .next (go (busWrite ini Reg.CCO_MBX_OUT_DB w (mbxOut ini w)) s)

/-- MBX_ACK: a write of CCO_MBX_OUT_DB with ACK set. -/
def execMbxAck (ini : Ini) (v : Word) (s : State) : Host.Outcome State Fault Refusal :=
  let w := setFld v 30 30 1
  .next (go (busWrite ini Reg.CCO_MBX_OUT_DB w (mbxOut ini w)) s)

/-! ## The debug port (R415) -/

/-- DEBUG_HALT. -/
def execDebugHalt (n : Fin 4) (s : State) : Host.Outcome State Fault Refusal :=
  let c := coreOf s n
  .next (go (when (ccoOn s && decide (c.st = 1 ∨ c.st = 2))
    (modCore n fun c => { c with st := 3, before := c.st, wdgHeld := some (s.raw - c.wdgFrom) })) s)

/-- DEBUG_RESUME. -/
def execDebugResume (n : Fin 4) (s : State) : Host.Outcome State Fault Refusal :=
  .next (go (when (ccoOn s && (coreOf s n).st == 3)
    (modCore n fun c => { c with st := c.before, wdgFrom := s.raw - c.wdgHeld.getD 0, wdgHeld := none })) s)

/-! ## Registers (R416) -/

/-- Core number and distance of an offset in the space of the cores. [DEDUCED, log 109] -/
def corePlace (off : Nat) : Nat × Nat := ((off - Reg.CCO_CORE_CTRL 0) / 0x100, (off - Reg.CCO_CORE_CTRL 0) % 0x100)

/-- Writes of CCO registers with an effect beyond their fields. [DEDUCED, log 19] -/
def ccoWrite (ini : Ini) (off : Nat) (v : Word) : Option Eff :=
  let n := (corePlace off).1
  if off = Reg.CCO_CTRL then some (writeLevel ini off v fun _ _ => skip)
  else if off = Reg.CCO_MBX_IN_DB then some (mbxDoorbell ini v)
  else if off = Reg.CCO_MBX_OUT_DB then some (mbxOut ini v)
  else if Reg.CCO_MBX_IN 0 ≤ off ∧ off < Reg.CCO_MBX_IN 8 then
    some (rd fun s => if regFld s Reg.CCO_MBX_IN_DB 3 0 != 0 then mbxBusy off v else writePlain ini off v)
  else if Reg.CCO_MBX_OUT 0 ≤ off ∧ off < Reg.CCO_MBX_OUT 8 then
    some (rd fun s => if regBit s Reg.CCO_MBX_OUT_DB 31 then mbxBusy off v else writePlain ini off v)
  else if off < Reg.CCO_CORE_CTRL 0 then none
  else match (corePlace off).2 with
    | 0x00 => some (coreCtrl ini n v)
    | 0x10 => some (irqPendWrite ini n v)
    | 0x14 => some (writeReg ini off v fun _ _ => wfiWake n)
    | 0x28 => some (writeReg ini off v fun _ _ => wfiWake n)
    | 0x34 => some (writeReg ini off v fun old new => when (!bit old 31 && bit new 31) (wdgRestart n))
    | 0x38 => some (wdgKick ini n v)
    | _ => none

/-- The words of CCO that are views of its state. -/
def ccoView (s : State) (off : Nat) : Option Word :=
  let n := (corePlace off).1
  if off = Reg.CCO_STATUS then
    some (word (b2n (atExpert s Reg.CCO_CTRL) * 2 ^ 24 + sumOf (fun k => b2n ((coreOf s k).st == 1) * 2 ^ k) (upto 4)))
  else if off = Reg.CCO_MTIME_LO then some (word s.raw)
  else if off = Reg.CCO_MTIME_HI then some (word (s.raw / 2 ^ 32))
  else if off < Reg.CCO_CORE_CTRL 0 then none
  else match (corePlace off).2 with
    | 0x04 => some (word ((coreOf s n).st * 2 ^ 28))
    | 0x10 => some (word (irqPend s n))
    | 0x3C => some (word (wdgLeft s n))
    | _ => none

end Sys2Proof.Machine
end

