-- ==== Sys2Proof/Machine/Flash.lean ====
section
/-!
DEFINITION. The configuration flash and the flash port of CFG (R383, R385).
-/
namespace Sys2Proof.Machine

/-- One byte of the flash; erased flash reads 0xFF. -/
def flashByte (s : State) (a : Nat) : Byte := mget 0xFF#8 a s.cfg.flash

/-- Bytes of the flash from an address. -/
def flashBytes (s : State) (a n : Nat) : List Byte := (upFrom a n).map (flashByte s)

/-- A flash with bytes changed from an address up; erased bytes are not listed. [PRESUMED, log 98] -/
def flashPut : Nat → List Byte → List Host.Cell → List Host.Cell
  | _, [], f => f
  | a, b :: bs, f => flashPut (a + 1) bs (if b = 0xFF#8 then mdel a f else mput a b f)

/-- Bytes of the flash take values. [PRESUMED, log 98] -/
def flashSet (a : Nat) (bs : List Byte) : Eff := modCfg fun c => { c with flash := flashPut a bs c.flash }

/-- Bytes of the flash whose value the spec leaves open after an operation that did not complete. [DEDUCED, log 99] -/
def flashSpoil (a n : Nat) : Eff := withFree (8 * n) fun v => flashSet a (leBytes n v.toNat)

/-- Capacity of the flash; a flash below 128 MiB counts as absent (R383). -/
def flashCap (s : State) : Option Nat :=
  let code := bits s.cfg.flashId 23 16
  if code < 0x1B then none else some (2 ^ code)

/-- A running operation stops: what a PROGRAM or an ERASE was changing is open (R512). [DEDUCED, log 99] -/
def flashStop : Eff := rd fun s => match s.cfg.flashOp with
  | none => skip
  | some o => chain [
      when (o.op != 0) (flashSpoil o.addr o.len),
      modCfg fun c => { c with flashOp := none }]

/-- An operation completes with its RESULT. -/
def flashEnd (op result : Nat) : Eff := chain [
  putBit Reg.CFG_FL_CTRL 31 false,
  modCfg fun c => { c with flashOp := none, flashDone := true, flashResult := result },
  raise 0x021C 0xFFFF notice op result]

/-- What stops an operation at its GO: a RESULT, or none when it runs (R385). [DEDUCED, log 99] -/
def flashCheck (s : State) (op a n : Nat) : Option Nat :=
  if s.cfg.loading && !s.cfg.hostLoad then some 4
  else if op != 0 && regBit s Reg.CFG_CTRL 31 then some 4
  else if n = 0 then some 0
  else match flashCap s with
    | none => some 5
    | some cap =>
      if op = 2 ∧ ¬ (a % 65536 = 0 ∧ n % 65536 = 0) then some 1
      else if cap < a + n then some 2 else none

/-- A write of CFG_FL_CTRL. -/
def flashCtrl (ini : Ini) (v : Word) : Eff := rd fun s =>
  if s.cfg.flashOp.isSome && bit v 31 then raise 0x021B 0xFFFF notice Reg.CFG_FL_CTRL v.toNat
  else writeReg ini Reg.CFG_FL_CTRL v fun _ new => when (bit v 31) (
    let op := fld new 30 28
    let a := (regGet s Reg.CFG_FL_ADDR).toNat
    let n := (regGet s Reg.CFG_FL_LEN).toNat
    let dev := regWide s Reg.CFG_FL_DEV_LO Reg.CFG_FL_DEV_HI % 2 ^ 40
    chain [
      modCfg fun c => { c with flashDone := false },
      match flashCheck s op a n with
      | some r => flashEnd op r
      | none => modCfg fun c => { c with flashOp := some ⟨op, a, n, dev⟩ }])

/-- FLASH_READ: a write of CFG_FL_CTRL with GO and OP READ. -/
def execFlashRead (ini : Ini) (v : Word) (s : State) : Host.Outcome State Fault Refusal :=
  let w := setFld v 31 28 8
  .next (go (busWrite ini Reg.CFG_FL_CTRL w (flashCtrl ini w)) s)

/-- FLASH_PROGRAM: a write of CFG_FL_CTRL with GO and OP PROGRAM. -/
def execFlashProgram (ini : Ini) (v : Word) (s : State) : Host.Outcome State Fault Refusal :=
  let w := setFld v 31 28 9
  .next (go (busWrite ini Reg.CFG_FL_CTRL w (flashCtrl ini w)) s)

/-- FLASH_ERASE: a write of CFG_FL_CTRL with GO and OP ERASE. -/
def execFlashErase (ini : Ini) (v : Word) (s : State) : Host.Outcome State Fault Refusal :=
  let w := setFld v 31 28 10
  .next (go (busWrite ini Reg.CFG_FL_CTRL w (flashCtrl ini w)) s)

/-- The running operation completes, or fails at the flash. A PROGRAM can only clear bits. [PRESUMED, log 98] -/
def flashFinish (err : Bool) : Eff := rd fun s => match s.cfg.flashOp with
  | none => skip
  | some o => chain [
      if o.op = 0 then
        (if err then withFree (8 * o.len) fun v => when (inMap o.dev o.len) (softWrite o.dev (leBytes o.len v.toNat))
        else when (inMap o.dev o.len) (softWrite o.dev (flashBytes s o.addr o.len)))
      else if err then flashSpoil o.addr o.len
      else if o.op = 1 then chain [
        reportPoison 0x02 (poisoned s o.dev o.len),
        flashSet o.addr (List.zipWith (fun a b => a &&& b) (flashBytes s o.addr o.len) (memBytes s o.dev o.len))]
      else flashSet o.addr (List.replicate o.len 0xFF#8),
      flashEnd o.op (if err then 3 else 0)]

/-- FLASH_DONE. -/
def execFlashDone (err : Bool) (s : State) : Host.Outcome State Fault Refusal :=
  .next (go (when (!s.mainReset) (flashFinish err)) s)

end Sys2Proof.Machine
end

