-- ==== Sys2Proof/Machine/Reset.lean ====
section
/-!
DEFINITION. The reset levels of the device: power-on reset, main reset and the REST reset (R420, R430, R431, R519).
-/
namespace Sys2Proof.Machine

/-- Registers of the non-volatile store and the fuses, which every reset keeps (R430, R441). [DEDUCED, log 111] -/
def storeRegs : List Nat :=
  [Reg.CFG_SEQ_FLOOR, Reg.CFG_FUSE, Reg.BCH_TEST_SCHED, Reg.BCH_HOURS, Reg.BCH_DRAM_STATUS, Reg.BCH_MAP_STATUS]
    ++ (upto 12).map Reg.CFG_KEY_HASH ++ (upto 17).map Reg.BCH_REGION

/-- TIM registers that the REST reset keeps (R420); RATE is the RATE of device time. [DEDUCED, log 111] -/
def timKept : List Nat :=
  [Reg.TIM_CTRL, Reg.TIM_SRC, Reg.TIM_SERVO, Reg.TIM_HOLD, Reg.TIM_SYNC, Reg.TIM_PTM, Reg.TIM_PTM_BASE_LO,
    Reg.TIM_PTM_BASE_HI, Reg.TIM_PULSE_CTRL, Reg.TIM_TP_PERIOD, Reg.TIM_TP_WIDTH, Reg.TIM_RATE_LO, Reg.TIM_RATE_HI]

/-- The words of device time, whose latches stay with it (R8, R420, R430). -/
def nowWords : List Nat := [Reg.TIM_NOW_FRAC, Reg.TIM_NOW_NS, Reg.TIM_NOW_SEC_LO, Reg.TIM_NOW_SEC_HI]

/-- CCO registers that the REST reset keeps (R420). -/
def ccoKept : List Nat :=
  [Reg.CCO_CLK, Reg.CCO_MBX_IN_DB, Reg.CCO_MBX_OUT_DB] ++ (upto 4).map Reg.CCO_DRAM_ATTR
    ++ (upto 8).map Reg.CCO_MBX_IN ++ (upto 8).map Reg.CCO_MBX_OUT
    ++ (upto 4).map Reg.CCO_CORE_ENTRY_LO ++ (upto 4).map Reg.CCO_CORE_ENTRY_HI

/-- The registers in [lo, hi) take their reset values, but for some that keep theirs. -/
def blankRegs (lo hi : Nat) (keep : List Nat) : Eff := rd fun s => chain [
  act (.clearRegs lo hi),
  each (keep.filter fun o => decide (lo ≤ o ∧ o < hi)) fun o => match mget? o s.regs with
    | some w => setReg o w
    | none => skip]

/-- The regions after CCO, TIM apart. [DEDUCED, log 114] -/
def blankRest (keep : List Nat) : Eff := chain [
  blankRegs 0x400000 0x700000 keep,
  blankRegs 0x800000 0x4000000 keep,
  each (upto 17) fun r => putFld (Reg.BCH_REGION r) 15 0 0]

/-- Tests end, the repair map stays, and the structure goes; Barchan keeps what the non-volatile store holds, and `rows`
says whether the DRAM's candidates stay. -/
def blankFabric (rows : Bool) : Eff := chain [
  rd fun s => each s.bch.tests fun t => each t.tiles endTest,
  modErg fun e => { moved := e.moved, bad := e.bad, gone := e.gone },
  modBch fun b => { poolSpares := b.poolSpares, dramSpares := b.dramSpares, dramRows := if rows then b.dramRows else [] }]

/-- The blocks whose state no reset but a narrower one keeps. -/
def blankBlocks : Eff := chain [
  act (.lne {}), act (.plk {}), act (.sei {}), act (.cmp {}), act (.nzl {}), act (.jrn {}), act (.mov {}), act (.cap {}),
  act (.taps {}),
  rd fun s => act (.per { gpio := s.per.gpio, podPins := s.per.podPins, enc := s.per.enc }),
  flashStop,
  modCfg fun c => { flash := c.flash, flashId := c.flashId, bootSel := c.bootSel },
  act (.clearFault (2 ^ 20 - 1))]

/-- Latches and marks of the registers and level units that stay. [DEDUCED, log 111] -/
def keepMarks (keep : Nat → Bool) : Eff := modAcc fun a => {
  latch := a.latch.filter fun e => keep (e.1 / 8), held := a.held.filter fun e => keep (e.1 / 8)
  once := a.once.filter keep, expert := a.expert.filter keep, ignored := a.ignored.filter fun e => keep e.1 }

/-- Main reset is asserted, for the cause with bit `b` of HAM_RESET_CAUSE (R430). Hamada's configuration, the backup domain,
device time, the non-volatile store, and the endpoint's link and configuration space stay. [DEDUCED, log 111] -/
def mainResetAll (b : Nat) : Eff := chain [
  putBit Reg.HAM_RESET_CAUSE b true,
  each (upto 8) stbCut,
  gatewayMainReset,
  putBit Reg.HAM_CTRL 31 false,
  blankFabric true,
  blankRegs 0x200000 0x400000 storeRegs,
  blankRegs 0x700000 0x800000 [Reg.TIM_RATE_LO, Reg.TIM_RATE_HI],
  blankRest storeRegs,
  blankBlocks,
  act (.cco {}),
  modStore fun m => { poison := m.poison },
  modEvt fun e => { restHeld := e.restHeld, restLost := e.restLost },
  rd fun s => modTim fun t => { base := timeNow s, rawBase := s.raw, rate := t.rate, st := if t.st = .unset then .unset else .free },
  modHam fun h => { h with
    st := .run, target := 4, later := none, moving := false, genHold := false, genWait := [], drained := false
    wakeLater := none, sclHeld := false, twb0 := none },
  keepMarks fun o => o == Reg.HAM_CTRL || o == Reg.HGW_SUBSYS || decide (0x100000 ≤ o ∧ o < 0x200000) || nowWords.contains o,
  act (.mainReset true)]

/-- RESET_N_ASSERT: RESET_N has been low for 100 microseconds. -/
def execResetNAssert (s : State) : Host.Outcome State Fault Refusal :=
  .next (go (when (s.ham.st != .off && s.ham.st != .backup) (mainResetAll 1)) s)

/-- A write of HAM_RESET. -/
def hamReset (v : Word) : Eff := when (fld v 31 16 == 0xA5C3) (mainResetAll 2)

/-- SOFTWARE_RESET: a write of HAM_RESET with the key. -/
def execSoftwareReset (ini : Ini) (v : Word) (s : State) : Host.Outcome State Fault Refusal :=
  let w := setFld v 31 16 0xA5C3
  .next (go (busWrite ini Reg.HAM_RESET w (hamReset w)) s)

/-- The REST reset (R420): the structure and every LOCK bit are cleared; HAM, HGW, device time, the discipline settings, some
CCO registers and the control SRAM stay. The TWB0 target's address and enable are latched first (R467).
[DEDUCED, log 114] -/
def restReset : Eff := chain [
  rd fun s => modHam fun h => { h with
    twb0 := if regBit s Reg.TWB_TGT_CTRL 31 then some (regFld s Reg.TWB_TGT_CTRL 6 0) else none, sclHeld := false },
  putBit Reg.HAM_RESET_CAUSE 4 true,
  each (upto 8) stbCut,
  putBit Reg.HAM_CTRL 31 false,
  putBit Reg.HGW_CTRL 31 false,
  blankFabric false,
  blankRegs 0x200000 0x300000 storeRegs,
  blankRegs 0x300000 0x400000 ccoKept,
  blankRegs 0x700000 0x800000 timKept,
  putBit Reg.TIM_CTRL 31 false,
  blankRest storeRegs,
  blankBlocks,
  act (.cco {}),
  act (.clearMem 0 0x10000000),
  act (.clearMem 0x1000000000 0x2000000000),
  modStore fun m => { poison := m.poison.filter fun a => decide (0x20000000 ≤ a ∧ a < 0x20400000) },
  modEvt fun e => { restHeld := e.restHeld, restLost := e.restLost },
  modTim fun t => { t with
    webs := [{}, {}, {}, {}], gens := [], relays := [], cycNext := none, cycNum := 0, cycles := [], caps := [] },
  keepMarks fun o => decide (o < 0x200000) || timKept.contains o || nowWords.contains o || ccoKept.contains o]

/-! ## Power-up (R429, R431, R434) -/

/-- The check word of backup words (R433). -/
def bkCheck (ws : List (Nat × Word)) : Nat := crc32c ((upto 64).flatMap fun k => leBytes 4 (mget 0#32 k ws).toNat)

/-- The coarse keeper counts `n` ticks. -/
def coarseTick (n : Nat) (h : Ham) : Ham :=
  { h with coarseSec := h.coarseSec + (h.coarseTicks + n) / 32768, coarseTicks := (h.coarseTicks + n) % 32768 }

/-- The backup check (R434): the content is valid, or it is declared lost and cleared. -/
def backupCheck : Eff := rd fun s =>
  let h := s.ham
  let good := h.check.toNat == bkCheck h.words
  if h.lost == 0 && good then modHam fun x => { x with bkValid := true }
  else
    let lost := h.lost ||| (if good then 0 else 4)
    chain [
      modHam fun x => { x with words := [], check := word (bkCheck []), bkValid := false, lost := lost },
      raise 0x0117 0xFFFF degraded lost h.check.toNat]

/-- Power-on reset: everything but the backup domain and the non-volatile store (R430). -/
def powerOn : Eff := chain [
  act .rawZero,
  blankFabric false,
  act (.clearRegs 0 0x200000),
  blankRegs 0x200000 0x4000000 storeRegs,
  blankBlocks,
  act (.cco {}), act (.store {}), act (.evt {}), act (.acc {}), act (.gw {}), act (.tim {}),
  act (.clearMem 0 0x2000000000),
  modHam fun h => {
    starting := true, words := h.words, check := h.check, lost := h.lost, coarseOk := h.coarseOk, coarseSec := h.coarseSec
    coarseTicks := h.coarseTicks },
  act (.mainReset true)]

/-- Main power comes up: the backup domain, which has counted `n` ticks on its cell, is checked, and device time set. A
domain that had no power comes out of its own power-on reset, with contents that are open until the check clears them.
[DEDUCED, log 111] -/
def powerUp (n : Nat) : Eff := rd fun s => when (!hamOn s) (chain [
  if s.ham.st == .off then withFree 32 fun w => modHam fun h =>
    { h with lost := h.lost ||| 1, coarseOk := false, check := w, words := [] }
  else when (s.ham.st == .backup) (modHam fun h => if h.coarseOk then coarseTick n h else h),
  powerOn,
  backupCheck,
  rd fun t => when (t.ham.bkValid && t.ham.coarseOk) (modTim fun x => { x with
    base := ((t.ham.coarseSec * 10 ^ 9 + t.ham.coarseTicks * 10 ^ 9 / 32768 : Nat) : Int) * 2 ^ 32, st := .coarse }),
  withFree 4 fun old => raise 0x0110 0xFFFF notice 4 (old.toNat + 4 * 2 ^ 8)])

/-- POWER_UP. -/
def execPowerUp (elapsed : BitVec 64) (s : State) : Host.Outcome State Fault Refusal := .next (go (powerUp elapsed.toNat) s)

/-- A channel of the supply monitor was outside its limits at its last conversion. -/
def supplyOut (s : State) (k : Nat) : Bool :=
  let v := (mget {} k s.ham.supplies).value
  decide (v < regFld s (Reg.HAM_MON_THR k) 11 0 ∨ regFld s (Reg.HAM_MON_THR k) 27 16 < v)

/-- Channels 0 to 8 have been within their limits for 4 scans (R429). -/
def suppliesGood (s : State) : Bool := (upto 9).all fun k => decide (4 ≤ (mget {} k s.ham.supplies).good)

/-- POWER_FAIL: 100 ms after VDDIO_18 came up, the supplies are not good; `channels` names those of channels 0 to 8 that are
outside their limits (R429). [DEDUCED, log 111] -/
def powerFail (channels : Nat) : Eff := rd fun s =>
  when (s.ham.starting && s.mainReset && hamOn s && decide (50000000 ≤ s.raw) && !suppliesGood s
      && (upto 16).all fun k => channels.testBit k == (decide (k < 9) && supplyOut s k))
    (raise 0x0116 0xFFFF faultSev channels 0)

/-- POWER_FAIL. -/
def execPowerFail (channels : BitVec 16) (s : State) : Host.Outcome State Fault Refusal :=
  .next (go (powerFail channels.toNat) s)

/-- Main power leaves its limits: the device is off, or its backup domain runs on a cell. Held backup writes are lost. -/
def powerLoss (cell : Bool) : Eff := chain [
  modHam fun h => { h with st := if cell then .backup else .off, moving := false, later := none, held := [], onVbak := cell },
  modGw fun g => { g with up := false },
  act (.mainReset true)]

/-- MAIN_POWER_LOSS. -/
def execMainPowerLoss (cell : Bool) (s : State) : Host.Outcome State Fault Refusal :=
  .next (go (when (hamOn s || (s.ham.st == .backup && !cell)) (powerLoss cell)) s)

end Sys2Proof.Machine
end

