-- ==== Sys2Proof/Machine/Power.lean ====
section
/-!
DEFINITION. The power states of Hamada: TARGET writes, the drain before WATCH, the states reached, the restart of the
instances, wakes and the thermal trip (R419 to R428, R467, R512).
-/
namespace Sys2Proof.Machine

/-- The device moves on towards its target, for a cause. [DEDUCED, log 112] -/
def moveOn (cause : Nat) : Eff := rd fun s =>
  let next := nextPower s.ham.st (powerOfCode s.ham.target)
  when (next != s.ham.st) (startMove next cause)

/-- A target is requested: at once, or when the running change ends (R422, R425). [DEDUCED, log 112] -/
def requestPower (t cause : Nat) : Eff := rd fun s =>
  if s.ham.moving then modHam fun h => { h with later := some t }
  else chain [modHam fun h => { h with target := t }, moveOn cause]

/-- A write of HAM_PWR_REQ; a value that names no state is ignored. -/
def pwrReq (ini : Ini) (v : Word) : Eff := writeReg ini Reg.HAM_PWR_REQ v fun _ _ =>
  when (decide (2 ≤ fld v 2 0 ∧ fld v 2 0 ≤ 5)) (chain [stopRegionTests, requestPower (fld v 2 0) 1])

/-- PWR_TARGET_WRITE. -/
def execPwrTargetWrite (ini : Ini) (v : Word) (s : State) : Host.Outcome State Fault Refusal :=
  .next (go (busWrite ini Reg.HAM_PWR_REQ v (pwrReq ini v)) s)

/-! ## The drain (R423) -/

/-- Lines among the items of a pipeline. -/
def itemLines (l : List CapItem) : List CapLine := l.filterMap fun i => match i with
  | .line x => some x
  | .close _ => none

/-- Lines among the items of a tap. -/
def tapLines (l : List TapItem) : Nat := (l.filter fun i => match i with
  | .line _ => true
  | .close _ => false).length

/-- A tap loses the lines inside it and the `n` lines of its pipeline: an EVIDENCE tap discards them (R27), a MONITOR tap
drops them and closes its frame (R28). -/
def drainTap (t n : Nat) : Eff := rd fun s =>
  let x := tapOf s t
  let q := pipeOf s (t / 4)
  let k := n + (itemLines (x.inq.map Prod.fst)).length + tapLines x.mid + tapLines x.outq
  when x.enNow (chain [
    if tapEvidence s t then when (k != 0) (chain [
      outCount t 2 k,
      when (!x.discardRaised) (raise 0x0A14 t degraded q.frame x.lastTag.seq),
      modTap t fun y => { y with lost := y.lost + k, discarded := true }])
    else when (k != 0 || x.frameOpen) (chain [
      outCount t 3 k,
      when (k != 0 && !x.dropping) (chain [
        raise 0x0A12 t degraded q.frame x.lastTag.seq,
        when (x.delivered != 0) (chain [
          modProducer t (dropInProducer x.lastTag),
          modTap t fun y => { y with lastTag := dropTag x.lastTag x.lastTag }])]),
      modTap t fun y => { y with dropped := y.dropped + k },
      rd fun s' => modProducer t fun y =>
        { y with buf := y.buf ++ [closePacket s' t ⟨q.frame, q.delivered, q.missing, q.check, q.dropped + n, 4, {}, q.missAt⟩] },
      outCount t 1 1]),
    modTap t fun y => { y with inq := [], mid := [], outq := [], route := [], hist := [], frameOpen := false }])

/-- A pipeline of the main fabric loses its lines. [DEDUCED, log 65] -/
def drainPipe (p : Nat) : Eff := rd fun s =>
  let q := pipeOf s p
  let ls := itemLines q.flow
  let n := ls.length + b2n q.line?.isSome
  chain [
    freeSegs p (sumOf (fun l => l.cost) ls + (q.line?.map fun l => l.cost).getD 0),
    capCount p 7 n,
    each (upFrom (4 * p) 4) fun t => drainTap t n,
    modPipe p fun x => { x with
      trigs := [], line? := none, flow := [], frameOpen := false, got := 0, delivered := 0, missing := 0, check := 0
      dropped := 0, dropping := false, fmtErr := false }]

/-- Bars and nozzle sides start again, with what their counters and settings hold (R216, R424). -/
def restartBars : Eff := chain [
  modSei fun x => { x with bars := x.bars.map fun e => (e.1, { stalls := e.2.stalls, updates := e.2.updates }) },
  modCmp fun x => { x with bars := x.bars.map fun e => (e.1, {}) },
  modNzl fun x => { x with sides := [{}, {}] }]

/-- A pipeline and its taps have emitted the closes of their frames. -/
def pipeShut (s : State) (p : Nat) : Bool :=
  !(pipeOf s p).frameOpen && (pipeOf s p).flow.isEmpty && (upFrom (4 * p) 4).all fun t => !(tapOf s t).frameOpen

/-- Every pipeline that is no watch pipeline, every bar and every nozzle side has emitted the close of its open frame (R423).
A side's frames are those of the comparator that feeds it. [DEDUCED, log 112] -/
def framesShut (s : State) : Bool :=
  ((s.cap.pipes.map Prod.fst).all fun p => s.erg.watch.contains p || pipeShut s p)
    && (s.sei.bars.all fun b => b.2.open'.rows == 0 && b.2.out.isEmpty)
    && s.cmp.bars.all fun b => b.2.fresh && b.2.rows.isEmpty

/-- DRAIN_MS have passed since the move began, or since the change of structure that it waited for ended. -/
def drainTimedOut (s : State) : Bool := decide (s.ham.drainFrom + regFld s Reg.HAM_PWR_CFG 15 0 * 500000 ≤ s.raw)

/-- Frames have closed, or DRAIN_MS has passed: the lines left are discarded, and the main domains power down. A change of
structure that runs is waited for. -/
def drain : Eff := rd fun s =>
  when (s.ham.moving && mainPowered s && s.ham.goal == .watch && !changeRuns s && !s.ham.drained
      && (framesShut s || drainTimedOut s)) (chain [
    each ((s.cap.pipes.map Prod.fst).filter fun p => !s.erg.watch.contains p) drainPipe,
    restartBars,
    modHam fun h => { h with drained := true },
    migPowerDown])

/-- DRAIN_COMPLETE. -/
def execDrainComplete (s : State) : Host.Outcome State Fault Refusal := .next (go drain s)

/-! ## The states reached (R419, R422) -/

/-- Dense octets power down, their lanes with them (R73, R74). -/
def octetsDown : Eff := chain [
  rd fun s => each (upto 14) fun o => each (octetGroups s o) fun g => gateGroup g 3,
  modLne fun l => { l with octets := l.octets.map fun e => (e.1,
    if e.1 < 14 then { e.2 with power := 0, pll := false } else e.2) }]

/-- Dense octets take the power of LNE_OCT_CTRL, and in FULL at least STANDBY. -/
def octetsUp : Eff := rd fun s => each (upto 14) fun o => chain [
  modLne fun l =>
    let c := octetOf s o
    let want := regFld s (Reg.LNE_OCT_CTRL o) 1 0
    let p := if s.ham.st == .full then max 1 want else want
    { l with octets := mput o { c with power := p, pll := c.pll && p != 0 } l.octets },
  rd fun t => when ((octetOf s o).power != 2 && (octetOf t o).power == 2)
    (each (octetGroups t o) fun g => when ((laneOf t g).st == .gated) (trainIfAble g))]

/-- EVT is powered again: the records held in REST reach it (R421). [DEDUCED, log 112] -/
def releaseHeld : Eff := rd fun s => chain [
  modEvt fun e => { e with restHeld := [] },
  each s.evt.restHeld (deliver false)]

/-- The cores that have an entry address start. [DESIGN CHOICE, log 110] -/
def coresStart : Eff := rd fun s => each ((upto 4).filter fun n => coreEntry s n != 0) fun n => coreStart n (coreEntry s n)

/-- The wake sources are armed with the state they have now (R426). -/
def armWakes : Eff := rd fun s => modHam fun h => { h with
  armGpio := ofBits ((upto 24).map (gpioPin s))
  armPods := ofBits ((upto 32).map fun k => podPin s (k / 16) (k % 16))
  armEnc := [0, 0, 0, 0] }

/-- What the domains do when a state is in force; `old` is the state before. -/
def domains (old : Power) : Eff := rd fun s => match s.ham.st with
  | .watch => if old == .rest then chain [releaseHeld, coresStart] else chain [
      octetsDown,
      modErg fun e => { e with fclk := 0 },
      modHam fun h => { h with drained := false }]
  | .run => chain [octetsUp, when (!s.erg.valid && old == .watch) bootStart]
  | .full => octetsUp
  | _ => skip

/-- The running change ends in its goal: the state is in force, and a TARGET or a wake that came meanwhile acts. -/
def stateReached : Eff := rd fun s =>
  let h := s.ham
  let down := mainPowered s && h.goal == .watch
  when (h.moving && (!down || h.drained)) (chain [
    when (h.goal == .rest) restReset,
    modHam fun x => { x with st := h.goal, moving := false, later := none, wakeLater := none, target := h.later.getD x.target },
    when (h.goal == .rest || h.goal == .watch) armWakes,
    domains h.st,
    modBch fun b => { b with regionDone := false },
    raise 0x0110 0xFFFF notice (powerCode h.goal) (powerCode h.st + h.cause * 2 ^ 8),
    match h.wakeLater with
    | some b => wakeMove b
    | none => skip,
    rd fun t => when (!t.ham.moving) (chain [
      moveOn (if h.later.isSome then 1 else h.cause),
      when h.later.isNone (modHam fun x => { x with since := h.since })])])

/-- POWER_STATE_REACHED. -/
def execPowerStateReached (s : State) : Host.Outcome State Fault Refusal := .next (go stateReached s)

/-! ## Capture-ready (R424) -/

/-- Lanes of the structure that are not READY. -/
def lanesWaiting (s : State) : Nat :=
  ((upto 128).filter fun n => groupEnabled s (groupOf s n) && (laneOf s n).st != .ready).length

/-- A lane of the structure is in the first attempt of its training (R424). -/
def firstAttempt (s : State) (n : Nat) : Bool :=
  let l := laneOf s n
  groupEnabled s (groupOf s n) && l.attempts == 1
    && (l.st == .signal || l.st == .adapt || l.st == .align || l.st == .measure)

/-- A pipeline's instances restart as at load, with the tables of its banks. -/
def restartPipe (p : Nat) : Eff := chain [
  modPipe p fun q => { banks := q.banks, switch := q.switch, reported := q.reported },
  rd fun s => copyTone p (activeBank (pipeOf s p))]

/-- The instances restart and the held generators resume, once no lane of the structure is in its first attempt; the
generators of a camera whose lane is not READY wait for it. [DEDUCED, log 112] -/
def captureReady : Eff := rd fun s => when (mainPowered s && s.erg.valid && s.ham.genHold && !s.ham.drained
    && !(s.ham.moving && s.ham.goal == .watch) && !(upto 128).any (firstAttempt s)) (chain [
  applyFaults,
  placeAll,
  each ((s.cap.pipes.map Prod.fst).filter fun p => !s.erg.watch.contains p) restartPipe,
  modTaps fun o => { taps := o.taps.map fun e => (e.1,
    if s.erg.watch.contains (e.1 / 4) then e.2 else { enNow := e.2.enNow, lost := e.2.lost }) },
  restartBars,
  each (s.cmp.bars.map Prod.fst) loadLut,
  each ((upto 1024).filter (modValid s)) fun m => resyncMod m 2,
  modTim fun t => { t with gens := t.gens.map fun e => if s.erg.watch.contains e.1 then e else (e.1, { e.2 with formed := 0 }) },
  modHam fun h => { h with
    genHold := false
    genWait := (upto 256).filter fun g => regBit s (Reg.TIM_TRG_CTRL g) 31 && !s.erg.watch.contains g
      && (laneOf s (ptLane s (regFld s (Reg.TIM_TRG_CTRL g) 27 16))).st != .ready },
  raise 0x0112 0xFFFF notice ((s.raw - s.ham.since) / 500000) (lanesWaiting s)])

/-- CAPTURE_READY. -/
def execCaptureReady (s : State) : Host.Outcome State Fault Refusal := .next (go captureReady s)

/-! ## Wakes (R426, R427, R467) -/

/-- Whole seconds of device time. -/
def secondsNow (s : State) : Int := timeNow s / (10 ^ 9 * 2 ^ 32)

/-- The alarm: SEC[31:0] has reached HAM_ALARM. -/
def alarm : Eff := rd fun s =>
  let past := wrapTo 32 (secondsNow s - (regGet s Reg.HAM_ALARM).toNat)
  when (hamOn s && regBit s Reg.HAM_ALARM_EN 0 && decide (past < 2 ^ 31)) (chain [putBit Reg.HAM_ALARM_EN 0 false, wake 7])

/-- What a wake source waits for, as far as the state holds it: a pin that has left its level, an encoder that has moved, a
match at the target, a lane that may wake (R426). [DEDUCED, log 112] -/
def wakeHolds (s : State) (b : Nat) : Bool :=
  match b with
  | 0 => s.ham.sclHeld
  | 1 => (upto 24).any fun k => regBit s Reg.HAM_WAKE_GPIO k && (gpioPin s k != s.ham.armGpio.testBit k)
  | 2 => (upto 32).any fun k => regBit s Reg.HAM_WAKE_POD k && (podPin s (k / 16) (k % 16) != s.ham.armPods.testBit k)
  | 3 => decide (regFld s Reg.HAM_WAKE_MISC 15 4 ≤ (nthD 0 (regFld s Reg.HAM_WAKE_MISC 1 0) s.ham.armEnc).natAbs)
  | 6 => (upto 128).any (laneWakes s)
  | _ => true

/-- WAKE: a source fires. The alarm is the command ALARM's, and fires with its condition. -/
def wakeSource (b : Nat) : Eff := rd fun s => if b = 7 then alarm else when (wakeHolds s b) (wake b)

/-- WAKE. -/
def execWake (src : Fin 9) (s : State) : Host.Outcome State Fault Refusal :=
  .next (go (when (hamOn s && !s.mainReset) (wakeSource src)) s)

/-- ALARM. -/
def execAlarm (s : State) : Host.Outcome State Fault Refusal := .next (go alarm s)

/-- An address on TWB0 in REST that is the latched one is acknowledged, and SCL is held. [DEDUCED, log 112] -/
def twb0Match (addr : Nat) : Eff := rd fun s => when (s.ham.st == .rest && s.ham.twb0 == some addr)
  (chain [modHam fun h => { h with sclHeld := true }, wake 0])

/-- TWB0_WAKE_MATCH. -/
def execTwb0WakeMatch (addr : BitVec 7) (s : State) : Host.Outcome State Fault Refusal :=
  .next (go (twb0Match addr.toNat) s)

/-- TWB0_WAKE_RELEASE. -/
def execTwb0WakeRelease (s : State) : Host.Outcome State Fault Refusal :=
  .next (go (modHam fun h => { h with sclHeld := false }) s)

/-! ## The thermal trip (R512) -/

/-- A die sensor reaches 125 degrees: REST at once, and a change that runs ends. The spec names no cause for the STATE_CHANGE
record. [DEDUCED, log 112] -/
def thermalTrip (k : Nat) : Eff := rd fun s => when (hamOn s) (chain [
  when (s.ham.st != .rest) restReset,
  modHam fun h => { h with st := .rest, target := 2, later := none, moving := false, genHold := false, genWait := []
                           drained := false, wakeLater := none, tripped := true },
  putBit Reg.HAM_RESET_CAUSE 4 true,
  armWakes,
  when (s.ham.st != .rest)
    (withFree 8 fun c => raise 0x0110 0xFFFF notice 2 (powerCode s.ham.st + c.toNat * 2 ^ 8)),
  raise 0x0114 (12 + k) faultSev (mget {} (12 + k) s.ham.supplies).value (regFld s (Reg.HAM_MON_THR (12 + k)) 27 16)])

/-- THERMAL_TRIP. -/
def execThermalTrip (sensor : Fin 4) (s : State) : Host.Outcome State Fault Refusal := .next (go (thermalTrip sensor) s)

/-- Every die sensor reads below 95 degrees, code 2,544, as far as the monitor converts it (R432, R512). [DEDUCED, log 112] -/
def diesCool (s : State) : Bool := (upFrom 12 4).all fun k =>
  !regBit s Reg.HAM_MON_CFG (16 + k) || decide ((mget {} k s.ham.supplies).value < 2544)

/-- THERMTRIP_RELEASE. -/
def execThermtripRelease (s : State) : Host.Outcome State Fault Refusal :=
  .next (go (when (diesCool s) (modHam fun h => { h with tripped := false })) s)

end Sys2Proof.Machine
end

