-- ==== Sys2Proof/Machine/Backup.lean ====
section
/-!
DEFINITION. Hamada's clock, supply monitor, backup domain and safety inputs, and HAM's registers (R418, R432 to R439).
-/
namespace Sys2Proof.Machine

/-! ## The always-on clock (R418) -/

/-- CLK32_XT_SWITCH: the crystal has run 1,024 stable cycles. -/
def execClk32XtSwitch (s : State) : Host.Outcome State Fault Refusal :=
  .next (go (when (hamOn s) (modHam fun h => { h with rc := false })) s)

/-- CLK32_FAIL: XT32 stops for 4 RC periods. -/
def execClk32Fail (s : State) : Host.Outcome State Fault Refusal :=
  .next (go (when (hamOn s && !s.ham.rc) (chain [
    modHam fun h => { h with rc := true },
    raise 0x0118 0xFFFF degraded 0 0])) s)

/-! ## The supply monitor (R432) -/

/-- The ACTION of a channel that left its limits, after its event. [DEDUCED, log 113] -/
def supplyAction (k : Nat) : Eff := rd fun s => match regFld s (Reg.HAM_MON_THR k) 31 30 with
  | 2 => mainResetAll 3
  | 3 => when (decide (powerRank .watch < powerRank s.ham.st)) (requestPower 3 3)
  | _ => skip

/-- One conversion of a channel. [DEDUCED, log 113] -/
def supplyConvert (k v : Nat) : Eff := rd fun s =>
  let x : Supply := mget {} k s.ham.supplies
  let thr := regGet s (Reg.HAM_MON_THR k)
  let n := regFld s Reg.HAM_MON_CFG 3 0
  let lo := fld thr 11 0
  let hi := fld thr 27 16
  let low := decide (v < lo)
  let high := decide (hi < v)
  let lows := if low then x.lows + 1 else 0
  let highs := if high then x.highs + 1 else 0
  let oks := if low || high then 0 else x.oks + 1
  let st := if n ≤ lows then 1 else if n ≤ highs then 2 else if n ≤ oks then 0 else x.st
  let sev := if fld thr 31 30 = 0 then degraded else faultSev
  chain [
    when (!s.ham.rc) (modHam (coarseTick 1)),
    when (regBit s Reg.HAM_MON_CFG (16 + k)) (chain [
      modHam fun h => { h with supplies := mput k {
        good := if low || high then 0 else min 4 (x.good + 1)
        st := st, value := v, lows := min n lows, highs := min n highs, oks := min n oks } h.supplies },
      when (st != x.st) (match st with
        | 0 => raise 0x0115 k notice v x.st
        | 1 => chain [raise 0x0113 k sev v lo, supplyAction k]
        | _ => chain [raise 0x0114 k sev v hi, supplyAction k])])]

/-- SUPPLY_CONVERSION. -/
def execSupplyConversion (k : Fin 16) (value : BitVec 12) (s : State) : Host.Outcome State Fault Refusal :=
  .next (go (when (hamOn s) (supplyConvert k value.toNat)) s)

/-! ## The backup domain (R433, R434) -/

/-- A backup word as reads return it: its held value, or the committed one. -/
def bkWord (s : State) (k : Nat) : Word := (mget? k s.ham.held).getD (mget 0#32 k s.ham.words)

/-- A held write is replaced or joins the others in order. -/
def holdWord (k : Nat) (v : Word) : List (Nat × Word) → List (Nat × Word)
  | [] => [(k, v)]
  | (j, w) :: r => if j = k then (k, v) :: r else (j, w) :: holdWord k v r

/-- A write of a backup word. -/
def bkWrite (k : Nat) (v : Word) : Eff := rd fun s =>
  if (mget? k s.ham.held).isSome || decide (s.ham.held.length < 8) then modHam fun h => { h with held := holdWord k v h.held }
  else raise 0x011D 0xFFFF degraded k v.toNat

/-- BK_WRITE. -/
def execBkWrite (ini : Ini) (k : Fin 64) (v : Word) (s : State) : Host.Outcome State Fault Refusal :=
  .next (go (busWrite ini (Reg.HAM_BK_REG k) v (bkWrite k v)) s)

/-- The oldest held write is committed, word and check word together. -/
def bkCommit : Eff := modHam fun h => match h.held with
  | [] => h
  | (k, v) :: r => { h with held := r, words := mput k v h.words, check := word (bkCheck (mput k v h.words)) }

/-- BK_COMMIT. -/
def execBkCommit (s : State) : Host.Outcome State Fault Refusal := .next (go (when (hamOn s) bkCommit) s)

/-- A write of HAM_BK_CTRL: REVALIDATE makes the content valid, and the latched losses go. -/
def bkCtrl (ini : Ini) (v : Word) : Eff := writeReg ini Reg.HAM_BK_CTRL v fun _ _ => chain [
  setReg Reg.HAM_BK_CTRL 0#32,
  when (bit v 0) (modHam fun h => { h with bkValid := true, lost := 0 })]

/-- REVALIDATE: a write of HAM_BK_CTRL with REVALIDATE set. -/
def execRevalidate (ini : Ini) (v : Word) (s : State) : Host.Outcome State Fault Refusal :=
  let w := setFld v 0 0 1
  .next (go (busWrite ini Reg.HAM_BK_CTRL w (bkCtrl ini w)) s)

/-- The coarse keeper is loaded from device time, while that is set, within the first tick of a whole second.
[DEDUCED, log 112] -/
def coarseLoad : Eff := rd fun s =>
  let ticks := (timeNow s % (10 ^ 9 * 2 ^ 32) * 32768 / (10 ^ 9 * 2 ^ 32)).toNat
  when (s.tim.st != .unset && s.tim.st != .coarse && ticks == 0) (modHam fun h => { h with
    coarseOk := true, coarseSec := (secondsNow s).toNat, coarseTicks := ticks })

/-- COARSE_LOAD. -/
def execCoarseLoad (s : State) : Host.Outcome State Fault Refusal := .next (go (when (hamOn s) coarseLoad) s)

/-- VBAK_LOW: VBAK falls below 1.9 V while the domain runs from it. -/
def execVbakLow (s : State) : Host.Outcome State Fault Refusal :=
  .next (go (when s.ham.onVbak (modHam fun h => { h with lost := h.lost ||| 2 })) s)

/-- OSC_STOP: XT32 stops while the domain runs from VBAK. -/
def execOscStop (s : State) : Host.Outcome State Fault Refusal :=
  .next (go (when s.ham.onVbak (modHam fun h => { h with lost := h.lost ||| 8, coarseOk := false })) s)

/-- VBAK_POR: a cell is applied with main power absent; the domain's contents are open. -/
def execVbakPor (s : State) : Host.Outcome State Fault Refusal :=
  .next (go (when (s.ham.st == .off) (withFree 2080 fun w => modHam fun h => { h with
    st := .backup, onVbak := true, coarseOk := false, lost := h.lost ||| 1, check := word w.toNat
    words := (upto 64).map fun k => (k, word (w.toNat / 2 ^ (32 * (k + 1)))) })) s)

/-! ## Safety inputs (R435 to R438) -/

/-- Channels A and B of an input are in demand, with their filtered levels. [DEDUCED, log 113] -/
def inDemand (s : State) (i : Nat) (a b : Bool) : Bool × Bool :=
  if regBit s (Reg.HAM_SAFE_CTRL i) 4 then (!a, b) else (!a, !b)

/-- One safety input, and changing it. -/
def safetyOf (s : State) (i : Nat) : Safety := nthD {} i s.ham.safety
def modSafety (i : Nat) (f : Safety → Safety) : Eff :=
  modHam fun h => { h with safety := setNth (f (nthD {} i h.safety)) i h.safety }

/-- Filtered levels as the records carry them. -/
def safeLevels (x : Safety) : Nat := b2n x.b * 2 + b2n x.a

/-- The demand action is released; `how` is 1 automatic, 2 SAFE_ACK. -/
def safeRelease (i how : Nat) : Eff := chain [
  modSafety i fun x => { x with demand := false, phase := 0 },
  rd fun s => raise 0x011A i notice (safeLevels (safetyOf s i)) how]

/-- The filtered levels of an input, or what its MODE makes of them, change; `was` is the demand until now. [DEDUCED, log 113] -/
def safetyTurn (i : Nat) (was : Bool × Bool) (a b : Bool) : Eff := rd fun s =>
  let x := safetyOf s i
  let d := inDemand s i a b
  let any := d.1 || d.2
  chain [
    modSafety i fun y => { y with
      a := a, b := b, now := any, demand := y.demand || any
      apart := if d.1 == d.2 then none else if was.1 != was.2 && x.now then y.apart else some s.raw
      phase := if y.phase = 1 ∧ d.1 ∧ d.2 then 2 else if y.phase = 2 ∧ ¬any then 3 else if y.phase = 3 ∧ any then 2 else y.phase },
    when (any && !x.now) (chain [
      countSat (Reg.HAM_SAFE_COUNT i) 1,
      when (regBit s (Reg.HAM_SAFE_CTRL i) 0) (each (upto 8) stbCut),
      rd fun t => raise 0x0119 i faultSev (safeLevels (safetyOf t i)) (regFld s (Reg.HAM_SAFE_CTRL i) 2 0)]),
    when (!any && x.demand && x.phase == 0 && !regBit s (Reg.HAM_SAFE_CTRL i) 5) (safeRelease i 1),
    when (x.a != a || x.b != b) (wake 4)]

/-- The filtered levels of an input change. -/
def safetyChange (i : Nat) (a b : Bool) : Eff := pinEdges (rd fun s =>
  safetyTurn i (inDemand s i (safetyOf s i).a (safetyOf s i).b) a b)

/-- SAFETY_CHANGE. -/
def execSafetyChange (i : Fin 2) (a b : Bool) (s : State) : Host.Outcome State Fault Refusal :=
  .next (go (when (hamOn s) (safetyChange i a b)) s)

/-- Ticks of disagreement that latch a discrepancy fault. -/
def discTicks (s : State) (i : Nat) : Nat := ceilDiv (regFld s (Reg.HAM_SAFE_CTRL i) 31 16 * 32768) 1000

/-- The channels have disagreed long enough that the fault may be latched: DISC_MS less 31 microseconds, and on RC less 2 per
cent of DISC_MS too (R437). -/
def discDue (s : State) (i t : Nat) : Bool :=
  decide (regFld s (Reg.HAM_SAFE_CTRL i) 31 16 * (if s.ham.rc then 490000 else 500000) ≤ s.raw - t + 15500)

/-- The channels have disagreed for N ticks, once in a disagreement. [DEDUCED, log 113] -/
def safetyDiscrepancy (i : Nat) : Eff := pinEdges (rd fun s =>
  let x := safetyOf s i
  let d := inDemand s i x.a x.b
  when (d.1 != d.2 && (x.apart.map (discDue s i)).getD false) (chain [
    modSafety i fun y => { y with phase := 1, now := true, demand := true, apart := none },
    when (!safeApplies x && regBit s (Reg.HAM_SAFE_CTRL i) 0) (each (upto 8) stbCut),
    raise 0x011B i haltSev (b2n d.2) (discTicks s i)]))

/-- SAFETY_DISCREPANCY. -/
def execSafetyDiscrepancy (i : Fin 2) (s : State) : Host.Outcome State Fault Refusal :=
  .next (go (when (hamOn s) (safetyDiscrepancy i)) s)

/-- A write of HAM_SAFE_ACK: a demand that both channels have left, or a fault in its last phase, is released.
[DEDUCED, log 113] -/
def safeAck (i : Nat) (v : Word) : Eff := pinEdges (rd fun s =>
  let x := safetyOf s i
  when (bit v 0 && !x.now && (x.phase == 3 || (x.phase == 0 && x.demand))) (safeRelease i 2))

/-- SAFE_ACK: a write of HAM_SAFE_ACK with ACK set. -/
def execSafeAck (ini : Ini) (i : Fin 2) (v : Word) (s : State) : Host.Outcome State Fault Refusal :=
  let w := setFld v 0 0 1
  .next (go (busWrite ini (Reg.HAM_SAFE_ACK i) w (safeAck i w)) s)

/-- A write of what a demand does, or of an input's MODE: actions that are now selected apply at once (R436).
[DEDUCED, log 113] -/
def safeWrite (ini : Ini) (off : Nat) (v : Word) : Eff := pinEdges (rd fun s => chain [
  writePlain ini off v,
  each (upto 2) fun i => rd fun t =>
    let x := safetyOf t i
    when (regBit s (Reg.HAM_SAFE_CTRL i) 4 != regBit t (Reg.HAM_SAFE_CTRL i) 4)
      (safetyTurn i (inDemand s i x.a x.b) x.a x.b),
  rd fun t => when ((safeActions t).testBit 0) (each (upto 8) stbCut)])

/-! ## Registers (R439) -/

/-- Writes of HAM registers with an effect beyond their fields. -/
def hamWrite (ini : Ini) (off : Nat) (v : Word) : Option Eff :=
  if off = Reg.HAM_CTRL then some (writeLevel ini off v fun _ _ => skip)
  else if off = Reg.HAM_PWR_REQ then some (pwrReq ini v)
  else if off = Reg.HAM_RESET then some (hamReset v)
  else if off = Reg.HAM_BK_CTRL then some (bkCtrl ini v)
  else if Reg.HAM_BK_REG 0 ≤ off ∧ off < Reg.HAM_BK_REG 64 then some (bkWrite ((off - Reg.HAM_BK_REG 0) / 4) v)
  else if off = Reg.HAM_SAFE_ACK 0 then some (safeAck 0 v)
  else if off = Reg.HAM_SAFE_ACK 1 then some (safeAck 1 v)
  else if off = Reg.HAM_SAFE_CTRL 0 ∨ off = Reg.HAM_SAFE_CTRL 1 ∨ off = Reg.HAM_SAFE_GPIO ∨ off = Reg.HAM_SAFE_LEVEL then
    some (safeWrite ini off v)
  else none

/-- The words of HAM that are views of its state. -/
def hamView (s : State) (off : Nat) : Option Word :=
  let h := s.ham
  if off = Reg.HAM_STATUS then
    some (word (b2n (atExpert s Reg.HAM_CTRL) * 2 ^ 24 + b2n (h.safety.any safeApplies) * 2 ^ 11 + b2n h.bkValid * 2 ^ 10
      + b2n h.rc * 2 ^ 9 + b2n h.moving * 2 ^ 8 + h.target * 2 ^ 4 + powerCode h.st))
  else if off = Reg.HAM_EVT_LOST then some (word s.evt.restLost)
  else if off = Reg.HAM_BK_STATUS then
    some (word (b2n h.bkValid * 2 ^ 31 + b2n h.coarseOk * 2 ^ 30 + h.held.length * 2 ^ 4 + h.lost))
  else if off = Reg.HAM_BK_CHECK then some h.check
  else if off = Reg.HAM_BK_SEC_LO then some (word h.coarseSec)
  else if off = Reg.HAM_BK_SEC_HI then some (word (h.coarseSec / 2 ^ 32))
  else if off = Reg.HAM_BK_TICKS then some (word h.coarseTicks)
  else if Reg.HAM_BK_REG 0 ≤ off ∧ off < Reg.HAM_BK_REG 64 then some (bkWord s ((off - Reg.HAM_BK_REG 0) / 4))
  else if Reg.HAM_MON_THR 0 ≤ off ∧ off < Reg.HAM_MON_THR 16 ∧ off % 8 = 4 then
    let x : Supply := mget {} ((off - Reg.HAM_MON_THR 0) / 8) h.supplies
    some (word (x.st * 2 ^ 16 + x.value))
  else if off = Reg.HAM_SAFE_STATUS 0 ∨ off = Reg.HAM_SAFE_STATUS 1 then
    let x := safetyOf s ((off - Reg.HAM_SAFE_STATUS 0) / 0x20)
    some (word (x.phase * 2 ^ 6 + b2n (x.phase != 0) * 2 ^ 5 + b2n x.now * 2 ^ 4 + safeLevels x))
  else none

end Sys2Proof.Machine
end

