-- ==== Sys2Proof/Machine/EventCmds.lean ====
section
/-!
DEFINITION. The commands of EVT (chapter "Events, faults and deadlines", R486 to R498).
-/
namespace Sys2Proof.Machine

/-- Normal queuing resumes once at least 16 slots are free (R490). -/
def resumeQueue : Eff := rd fun s =>
  when (s.evt.overflow && decide (16 ≤ freeSlots s)) (chain [
    modEvt fun e => { e with overflow := false, lostNow := 0 },
    raise 0x1211 0xFFFF notice s.evt.lostNow s.evt.head])

/-- The consumer advances HEAD; a value at or above SIZE or past TAIL is ignored with HEAD_ERR (R488). -/
def evtHead (v : Nat) : Eff := rd fun s =>
  let size := ringSize s
  let gone := (v + size - s.evt.head) % size
  if size ≤ v ∨ s.evt.ring.length < gone then raise 0x1212 0xFFFF notice v s.evt.tail
  else chain [
    modEvt fun e => { e with head := v, ring := e.ring.drop gone },
    resumeQueue]

/-- EVT_HEAD_WRITE. -/
def execEvtHeadWrite (ini : Ini) (v : Word) (s : State) : Host.Outcome State Fault Refusal :=
  .next (go (busWrite ini Reg.EVT_Q_HEAD v (evtHead v.toNat)) s)

/-- Summary bits are cleared; with the last HALT bit the halt action is released (R491, R492). -/
def evtFaultClear (v : Nat) : Eff := rd fun s =>
  let after := clearMask s.evtHalt v
  chain [
    act (.clearFault (v % 2 ^ 20)),
    when (s.evtHalt != 0 && after == 0)
      (raise 0x1214 0xFFFF notice s.evtHalt ((s.raw - s.evt.haltFrom) / 500000))]

/-- EVT_FAULT_CLEAR. -/
def execEvtFaultClear (ini : Ini) (v : Word) (s : State) : Host.Outcome State Fault Refusal :=
  .next (go (busWrite ini Reg.EVT_FAULT v (evtFaultClear (v.toNat % 2 ^ 20))) s)

/-- Bits of EVT_CORE_PEND are cleared (R493). -/
def evtCoreClear (v : Nat) : Eff := modEvt fun e => { e with corePend := clearMask e.corePend v }

/-- EVT_CORE_PEND_CLEAR. -/
def execEvtCorePendClear (ini : Ini) (v : Word) (s : State) : Host.Outcome State Fault Refusal :=
  .next (go (busWrite ini Reg.EVT_CORE_PEND v (evtCoreClear v.toNat)) s)

/-- EVT_INT.PEND is cleared (R493, R494). -/
def evtIntClear (v : Word) : Eff := when (bit v 0) (modEvt fun e => { e with int := false })

/-- EVT_INT_CLEAR. -/
def execEvtIntClear (ini : Ini) (v : Word) (s : State) : Host.Outcome State Fault Refusal :=
  .next (go (busWrite ini Reg.EVT_INT v (evtIntClear v)) s)

/-- DL_WINDOW_END: 2^29 ticks of the raw counter have passed. [DEDUCED, log 23] -/
def execDlWindowEnd (s : State) : Host.Outcome State Fault Refusal := .next (go rollWindow s)

/-- The words of EVT that are views of its state (R497). [DEDUCED, log 22] -/
def evtView (s : State) (off : Nat) : Option Word :=
  if off = Reg.EVT_STATUS then some (word (b2n (atExpert s Reg.EVT_CTRL) * 2 ^ 24 + s.evt.held.length * 2 ^ 8
    + b2n s.evt.overflow * 2 + b2n (s.evtHalt != 0)))
  else if off = Reg.EVT_Q_HEAD then some (word s.evt.head)
  else if off = Reg.EVT_Q_TAIL then some (word s.evt.tail)
  else if off = Reg.EVT_LOST then some (word s.evt.lost)
  else if off = Reg.EVT_SUPPRESSED then some (word s.evt.suppressed)
  else if off = Reg.EVT_FAULT then some (word s.evtFault)
  else if off = Reg.EVT_HALT then some (word s.evtHalt)
  else if off = Reg.EVT_INT then some (word (b2n s.evt.int))
  else if off = Reg.EVT_CORE_PEND then some (word s.evt.corePend)
  else none

/-- The effect of a write on an EVT register; none where the register is an ordinary one. [DEDUCED, log 22] -/
def evtWrite (ini : Ini) (off : Nat) (v : Word) : Option Eff :=
  if off = Reg.EVT_Q_HEAD then some (evtHead v.toNat)
  else if off = Reg.EVT_FAULT then some (evtFaultClear (v.toNat % 2 ^ 20))
  else if off = Reg.EVT_INT then some (evtIntClear v)
  else if off = Reg.EVT_CORE_PEND then some (evtCoreClear v.toNat)
  else if off = Reg.EVT_CTRL then some (writeLevel ini off v fun _ _ =>
    rd fun s => when (haltStrobes s) (each (upto 8) stbCut))
  else none

end Sys2Proof.Machine
end

