-- ==== Sys2Proof/Machine/RegBus.lean ====
section
/-! DEFINITION. The register bus of every block but CFG: which effect a write of a register has, and what its words read as
(R5 to R20). -/
namespace Sys2Proof.Machine

/-- The index of an offset in an array of registers. -/
def regIdx (base stride n off : Nat) : Option Nat :=
  if base ≤ off ∧ (off - base) % stride = 0 ∧ (off - base) / stride < n then some ((off - base) / stride) else none

/-! ## Views of PLK, the partner table and CVU -/

/-- The words of PLK that are views of its state. -/
def plkView (s : State) (off : Nat) : Option Word :=
  if off = Reg.PLK_STATUS then
    some (word (b2n (atExpert s Reg.PLK_CTRL) * 2 ^ 24 + (s.plk.partners.filter fun e => e.2.st == .active).length))
  else if off = Reg.PLK_TIMING ∧ !atExpert s Reg.PLK_CTRL then some (word (100 * 2 ^ 16 + 2 ^ 8))
  else none

/-- The words of a partner-table entry that are views of its state; an entry without one reads 0 (R123). -/
def ptView (s : State) (off : Nat) : Option Word :=
  let p := (off - Reg.PT_CTRL 0) / 0x100
  let r := off % 0x100
  let q := partnerOf s p
  if ptAbsent p then some 0#32
  else if r = 0x04 then some (word (q.st.code * 2 ^ 28 + q.reason * 2 ^ 24 + leAt q.desc 0 1 * 2 ^ 16))
  else if r = 0x14 then some (word (nthD 0 1 q.grants * 2 ^ 16 + nthD 0 0 q.grants))
  else if r = 0x18 then some (word (nthD 0 3 q.grants * 2 ^ 16 + nthD 0 2 q.grants))
  else if r = 0x1C then some (word (available s p 1 * 2 ^ 16 + available s p 0))
  else if r = 0x20 then some (word (available s p 3 * 2 ^ 16 + available s p 2))
  else if 0x80 ≤ r then some (word (leAt q.desc (r - 0x80) 4))
  else none

/-- The words of CVU that are views of its state. -/
def cvuView (s : State) (off : Nat) : Option Word :=
  if off = Reg.CVU_STATUS then some (word (b2n (atExpert s Reg.CVU_CTRL))) else none

/-! ## Writes -/

/-- The write effects of LNE. -/
def lneWrite (ini : Ini) (off : Nat) (v : Word) : Option Eff :=
  if off = Reg.LNE_CTRL then some (laneGlobal ini v)
  else match regIdx (Reg.LNE_OCT_CTRL 0) 0x20 16 off, regIdx (Reg.LNE_LN_CTRL 0) 0x40 128 off with
    | some o, _ => some (octetPower ini o v)
    | none, some n => some (laneCtrl ini n v)
    | none, none => none

/-- The write effects of PLK. -/
def plkWrite (ini : Ini) (off : Nat) (v : Word) : Option Eff :=
  if off = Reg.PLK_CTRL then some (plkCtrl ini v)
  else (regIdx (Reg.PLK_TUN_CTRL 0) 0x200 8 off).map fun t => tunCtrl ini t v

/-- The write effects of the partner table. [DEDUCED, log 18] -/
def ptWrite (ini : Ini) (off : Nat) (v : Word) : Option Eff :=
  let p := (off - Reg.PT_CTRL 0) / 0x100
  if ptAbsent p then some skip
  else if off = Reg.PT_CTRL p then some (ptCtrl ini p v) else none

/-- The write effects of TIM. -/
def timWrite (ini : Ini) (off : Nat) (v : Word) : Option Eff :=
  if off = Reg.TIM_ADJ_GO then some (adjWrite ini v)
  else if off = Reg.TIM_RATE_HI then some (rateWrite ini v)
  else if off = Reg.TIM_SRC then some (srcWrite ini v)
  else if off = Reg.TIM_TP_PERIOD then some (tpWrite ini v)
  else if off = Reg.TIM_JOB then some (jobWrite ini v)
  else if off = Reg.TIM_CYC_CTRL then some (cycWrite ini v)
  else match regIdx (Reg.TIM_TRG_CTRL 0) 0x20 256 off, regIdx (Reg.TIM_TRG_PERIOD 0) 0x20 256 off,
      regIdx (Reg.TIM_ENC_SCALE 0) 4 4 off with
    | some g, _, _ => some (trgWrite ini g v)
    | none, some g, _ => some (trgPeriod ini g v)
    | none, none, some e => some (encScale ini e v)
    | none, none, none => none

/-- The write effects of CAP. -/
def capWrite (ini : Ini) (off : Nat) (v : Word) : Option Eff :=
  let rel := off - Reg.CAP_CTRL 0
  let p := rel / 0x400
  if 0x40000 ≤ rel then none
  else if off = Reg.CAP_CAL_CTRL p then some (calWrite ini p v)
  else if off = Reg.CAP_SW p then some (switchWrite ini p v)
  else if off = Reg.CAP_WB_AUTO p then some (bandWrite ini off v 2 0 fun s => inBands s p)
  else if Reg.BK_TBL_LO p 0 ≤ off then some (bankWrite ini p ((off - Reg.BK_TBL_LO p 0) / 0xC0) off v)
  else none

/-- The write effects of OUT. -/
def outWrite (ini : Ini) (off : Nat) (v : Word) : Option Eff :=
  let rel := off - Reg.OUT_TAP_CTRL 0
  let t := rel / 0x100
  if 0x40000 ≤ rel then none
  else if off = Reg.OUT_TAP_CTRL t then some (tapCtrl ini t v)
  else if off = Reg.OUT_CROP t ∨ off = Reg.OUT_SCALE t then some (windowWrite ini t off v)
  else none

/-- The write effects of MEM. -/
def memRegWrite (ini : Ini) (off : Nat) (v : Word) : Option Eff :=
  match regIdx (Reg.MEM_RQ_CTRL 0) 0x40 64 off, regIdx (Reg.MEM_RQ_HEAD 0) 0x40 64 off,
      regIdx (Reg.MEM_AP_CTRL 0) 0x20 6 off with
  | some q, _, _ => some (rqCtrl ini q v)
  | none, some q, _ => some (rqHeadWrite ini q v)
  | none, none, some i => some (apCtrl ini i v)
  | none, none, none => none

/-- The write effects of CVU. -/
def cvuWrite (ini : Ini) (off : Nat) (v : Word) : Option Eff :=
  (regIdx (Reg.CVU_U_CTRL 0) 0x40 16 off).map fun u => cvuCtrl ini u v

/-- The write effects of every block but CFG, by region. [DESIGN CHOICE, log 12] -/
def ownWrite (ini : Ini) (off : Nat) (v : Word) : Option Eff :=
  match regionOf off with
  | 0x01 => hamWrite ini off v
  | 0x03 => ccoWrite ini off v
  | 0x04 => bchWrite ini off v
  | 0x05 => lneWrite ini off v
  | 0x06 => plkWrite ini off v
  | 0x07 => timWrite ini off v
  | 0x09 => capWrite ini off v
  | 0x0A => outWrite ini off v
  | 0x0B => seiWrite ini off v
  | 0x0C => cmpWrite ini off v
  | 0x0D => nzWrite ini off v
  | 0x0E => memRegWrite ini off v
  | 0x0F => jrnWrite ini off v
  | 0x10 => movRegWrite ini off v
  | 0x11 => perWrite ini off v
  | 0x12 => evtWrite ini off v
  | 0x13 => cvuWrite ini off v
  | 0x20 => ptWrite ini off v
  | 0x30 => some (ledgerWrite ini off v)
  | _ => none

/-- The effect of a 32-bit write of a register of every block but CFG: its own, or its fields alone.
[DESIGN CHOICE, log 12] -/
def blockWrite (ini : Ini) (off : Nat) (v : Word) : Eff :=
  (ownWrite ini off v).getD (writeLevel ini off v fun _ _ => skip)

/-! ## Reads -/

/-- The word of a register that is a view of a block's state, by region. -/
def blockView (s : State) (off : Nat) : Option Word :=
  match regionOf off with
  | 0x00 => hgwView s off
  | 0x01 => hamView s off
  | 0x03 => ccoView s off
  | 0x04 => bchView s off
  | 0x05 => lneView s off
  | 0x06 => plkView s off
  | 0x07 => timView s off
  | 0x08 => ergView s off
  | 0x09 => capView s off
  | 0x0A => outView s off
  | 0x0B => seiView s off
  | 0x0C => cmpView s off
  | 0x0D => nzView s off
  | 0x0E => memView s off
  | 0x0F => jrnView s off
  | 0x10 => movView s off
  | 0x11 => perView s off
  | 0x12 => evtView s off
  | 0x13 => cvuView s off
  | 0x20 => ptView s off
  | _ => none

end Sys2Proof.Machine
end

