-- ==== Sys2Proof/Machine/ImageRec.lean ====
section
/-! DEFINITION. What one record of an image does (R378, R388): the records of the LANES, PARTNERS, STRUCT, MEMORY, PARAMS and
FIRMWARE sections. -/
namespace Sys2Proof.Machine

/-- The little-endian number at byte `k` of a record, which counts from its header. -/
def recAt (r : ImgRec) (k n : Nat) : Nat := leAt r.body (k - 4) n

/-! ## STRUCT and ROUTE -/

/-- The instance of an INSTANCE record, with its number. -/
def recInst (r : ImgRec) : Nat × Inst :=
  (recAt r 4 2, { kind := recAt r 6 1, owner := recAt r 7 1, id := recAt r 8 2, first := recAt r 10 2, rate := recAt r 12 4 })

/-- The route of a ROUTE record, with its index. -/
def recRoute (r : ImgRec) : Nat × Route :=
  (recAt r 4 2, ⟨recAt r 6 2, recAt r 8 1, recAt r 9 1, recAt r 10 2, recAt r 12 1, r.body.drop 12⟩)

/-- A pipeline is EVIDENCE when any tap of it is (R166). -/
def pipeClass (p : Nat) : Eff := rd fun s => putFld (Reg.CAP_CTRL p) 25 24
  (b2n ((upFrom (4 * p) 4).any fun t => regBit s (Reg.OUT_TAP_CTRL t) 28 && regFld s (Reg.OUT_TAP_CTRL t) 25 24 == 1))

/-- A TAP record declares a stream (R188). -/
def applyTap (r : ImgRec) : Eff :=
  let t := recAt r 4 2
  chain [
    rd fun s => setReg (Reg.OUT_TAP_CTRL t)
      (setFld (setFld (setFld (regGet s (Reg.OUT_TAP_CTRL t)) 28 28 1) 27 26 (recAt r 6 1)) 25 24 (recAt r 7 1)),
    setReg (Reg.OUT_DECL_X t) (word (recAt r 10 2 * 2 ^ 16 + recAt r 8 2)),
    setReg (Reg.OUT_DECL_Y t) (word (recAt r 12 2)),
    pipeClass (t / 4)]

/-- The records of the structure beside its instances: CLOCKS, WATCH, TAP and RATES. -/
def applyStruct (r : ImgRec) : Eff :=
  match r.rtype with
  | 0x0102 => modErg fun e => { e with fmin := recAt r 4 2, omin := recAt r 6 2 }
  | 0x0103 => modErg fun e => { e with watch := ((r.body.take 8).map fun b => b.toNat).filter (· != 0xFF) }
  | 0x0104 => applyTap r
  | 0x0105 => chain [setReg Reg.HGW_DECL_UP (word (recAt r 4 4)), setReg Reg.HGW_DECL_DOWN (word (recAt r 8 4))]
  | _ => skip

/-! ## LANES and PARTNERS -/

/-- The LANE record's lane and its octet. -/
def recLane (r : ImgRec) : Nat := recAt r 4 1
def recOctet (r : ImgRec) : Nat := recLane r / 8

/-- CABLE, BOND, RATE_MAX and the transmit taps of a LANE record. [DEDUCED, log 94] -/
def applyLaneCfg (r : ImgRec) : Eff :=
  let n := recLane r
  let b := recAt r 6 1
  chain [
    putFld (Reg.LNE_LN_CTRL n) 19 16 (recAt r 5 1 % 16),
    putFld (Reg.LNE_LN_CTRL n) 11 10 (b % 4),
    putFld (Reg.LNE_LN_CTRL n) 9 8 (b / 4 % 4),
    setReg (Reg.LNE_LN_TXEQ n) (word (recAt r 9 1 * 2 ^ 8 + recAt r 8 1))]

/-- The LANE records of a section: the lanes' settings, then the octets' POWER, then the lanes' ENABLE. -/
def applyLanes (rs : List ImgRec) : Eff := chain [
  each rs applyLaneCfg,
  each ((upto 16).filter fun o => rs.any fun r => recOctet r == o) fun o =>
    each ((rs.filter fun r => recOctet r == o).take 1) fun r => octetPower .cfg o (word (recAt r 7 1)),
  each rs fun r => rd fun s =>
    laneCtrl .cfg (recLane r) (setFld (regGet s (Reg.LNE_LN_CTRL (recLane r))) 2 0 (recAt r 6 1 / 16 % 2))]

/-- A partner-table word as an image gives it: VALID, TIME_SRC, ROLE and LANE; KICK and WAKE_EN are not its own.
[DEDUCED, log 94] -/
def ptCtrlMask : Nat := 0xCF00007F

/-- The words of a PARTNER record; an entry that is not ACTIVE starts discovery, or becomes UNUSED. [DEDUCED, log 94] -/
def applyPartner (r : ImgRec) : Eff :=
  let p := recAt r 4 2
  chain [
    writePlain .cfg (Reg.PT_ALIVE p) (word (recAt r 12 4)),
    writePlain .cfg (Reg.PT_GRANT01 p) (word (recAt r 16 4)),
    writePlain .cfg (Reg.PT_GRANT23 p) (word (recAt r 20 4)),
    writePlain .cfg (Reg.PT_UID_LO p) (word (recAt r 24 4)),
    writePlain .cfg (Reg.PT_UID_HI p) (word (recAt r 28 4)),
    rd fun s => setReg (Reg.PT_CTRL p) (word ((recAt r 8 4 &&& ptCtrlMask) + regFld s (Reg.PT_CTRL p) 29 29 * 2 ^ 29)),
    rd fun s => when (!isActive s p) (if ptValid s p then toProbing p else modPartner p fun q => { q with st := .unused })]

/-- A PARTNER record changes LANE, ROLE, UID, INTERVAL or a grant (R394). -/
def partnerMoves (s : State) (r : ImgRec) : Bool :=
  let p := recAt r 4 2
  let c := regGet s (Reg.PT_CTRL p)
  recAt r 8 4 % 128 != fld c 6 0 || bits (recAt r 8 4) 27 24 != fld c 27 24
    || recAt r 12 4 % 256 != regFld s (Reg.PT_ALIVE p) 7 0
    || recAt r 16 4 != (regGet s (Reg.PT_GRANT01 p)).toNat || recAt r 20 4 != (regGet s (Reg.PT_GRANT23 p)).toNat
    || recAt r 24 8 != ptUid s p

/-- A PARTNER record for an ACTIVE entry: the partner is kicked, or keeps its association (R394). -/
def applyPartnerLive (r : ImgRec) : Eff := rd fun s =>
  let p := recAt r 4 2
  if isActive s p && partnerMoves s r then chain [
    sendBye p 12,
    raise 0x0611 p degraded 12 (partnerOf s p).st.code,
    modPartner p fun q => { q with reason := 12 },
    dropAssociation p,
    modPartner p fun q => { q with st := .waiting },
    applyPartner r]
  else applyPartner r

/-! ## MEMORY, PARAMS and FIRMWARE -/

/-- A PARTITION record as kind, first and count, and its owner. -/
def recUnits (r : ImgRec) : Nat × Nat × Nat := (recAt r 4 1, recAt r 8 4, recAt r 12 4)
def recOwner (r : ImgRec) : Nat := recAt r 6 2

/-- A partition's units take its owner (R292). -/
def applyPartition (r : ImgRec) : Eff := setOwners (recUnits r).1 (recUnits r).2.1 (recUnits r).2.2 (recOwner r)

/-- A WRITE record's register and value. -/
def recOff (r : ImgRec) : Nat := recAt r 4 4
def recVal (r : ImgRec) : Word := word (recAt r 8 4)

/-- The read-only bits whose reset value is the image's and that no other record gives: a WRITE record sets them.
[DEDUCED, log 13] -/
def imageMask (off : Nat) : Nat :=
  let rel := off % 0x100000
  match regionOf off with
  | 0x0B =>
    if 0x40100 ≤ rel ∧ rel < 0x40300 ∧ rel % 0x20 = 0 then 0x80FF0000
    else if 0x40400 ≤ rel ∧ rel < 0x40600 ∧ rel % 0x20 = 0 then 0x80FF0000
    else if rel < 0x20000 then
      let r := rel % 0x2000
      if r = 0 then 0x807F0000
      else if 0x1000 ≤ r then (if r % 0x40 = 0 then 0x80FFFFFF else if 0x18 ≤ r % 0x40 ∧ r % 0x40 < 0x28 then 0xFFFFFFFF else 0)
      else 0
    else 0
  | 0x0C =>
    if 0x20000 ≤ rel ∧ rel < 0x20800 ∧ rel % 0x100 = 0 then 0x80000000
    else if rel < 0x10000 then
      let r := rel % 0x1000
      if r = 0 then 0x8007FF00
      else if 0x800 ≤ r then (if r % 0x40 = 0 then 0x8007FFFF else if r % 0x40 = 4 then 0x7FFFF else 0) else 0
    else 0
  | 0x0D =>
    if rel = 0x1000 ∨ rel = 0x1100 then 0x80000000
    else if 0x10000 ≤ rel ∧ rel < 0x18000 ∧ rel % 0x20 = 0 then 0x80000000 else 0
  | _ => 0

/-- A register write of the configuration engine: its own block's registers have no effect beyond their fields.
[DEDUCED, log 13, 91] -/
def imageWrite (off : Nat) (v : Word) : Eff := chain [
  when (imageMask off != 0) (rd fun s =>
    setReg off (word (clearMask (regGet s off).toNat (imageMask off) + (v.toNat &&& imageMask off)))),
  if regionOf off = 0x02 then writeLevel .cfg off v fun _ _ => skip else blockWrite .cfg off v]

/-- The data of a FILL or SEGMENT record, and its address. -/
def recData (r : ImgRec) : List Byte := r.body.drop 8
def recAddr (r : ImgRec) : Nat := if r.rtype = 0x0602 then recAt r 4 5 else recAt r 8 4

/-- A record of the PARAMS section. [DEDUCED, log 91] -/
def applyParam (r : ImgRec) : Eff :=
  if r.rtype = 0x0601 then imageWrite (recOff r) (recVal r) else storeBytes (recAddr r) (recData r)

/-- A record of the FIRMWARE section: code or data into the control SRAM, or the entry addresses of the cores.
[DEDUCED, log 94] -/
def applyFirmware (r : ImgRec) : Eff :=
  if r.rtype = 0x0701 then storeBytes (recAddr r) (recData r)
  else each (upto 4) fun n => chain [
    setReg (Reg.CCO_CORE_ENTRY_LO n) (word (recAt r (4 + 4 * n) 4 / 2 * 2)),
    setReg (Reg.CCO_CORE_ENTRY_HI n) 0#32]

/-! ## Owners (R391) -/

/-- Rank and number of the owner of an instance. -/
def instOwner (i : Inst) : Nat × Nat := (ownerRank i.kind (if i.owner = 4 then 1 else i.owner), i.id)

/-- The owner a register belongs to; rank 4 where it belongs to none. -/
def regOwner (s : State) (off : Nat) : Nat × Nat :=
  let rel := off % 0x100000
  match regionOf off with
  | 0x09 => if rel < 0x40000 then (0, rel / 0x400) else (4, 0)
  | 0x0A => if rel < 0x40000 then (0, rel / 0x400) else (4, 0)
  | 0x0B => if rel < 0x20000 then (1, rel / 0x2000)
      else if 0x40400 ≤ rel then (0, regFld s (Reg.SEI_PM_CTRL ((rel - 0x40400) / 0x20)) 23 16)
      else if 0x40100 ≤ rel then (0, regFld s (Reg.SEI_WB_CTRL ((rel - 0x40100) / 0x20)) 23 16) else (4, 0)
  | 0x0C => if rel < 0x10000 then (2, rel / 0x1000) else (4, 0)
  | 0x0D => if 0x10000 ≤ rel then (3, b2n (regBit s (Reg.NZL_MOD_CTRL ((rel - 0x10000) / 0x20)) 30))
      else if 0x1000 ≤ rel ∧ rel < 0x1200 then (3, (rel - 0x1000) / 0x100) else (4, 0)
  | _ => (4, 0)

/-- The owners that a memory partition belongs to. -/
def unitOwners (o : Nat) : List (Nat × Nat) :=
  match o / 2 ^ 12 with
  | 1 => [(0, o % 2 ^ 12)]
  | 4 => if o % 2 ^ 12 < 16 then [(1, o % 2 ^ 12), (2, o % 2 ^ 12)] else []
  | 5 => [(3, o % 2 ^ 12)]
  | _ => []

/-- A partner serves an owner: the camera of a pipeline, or a module of a side. [DEDUCED, log 92] -/
def usesPartner (s : State) (p : Nat) (o : Nat × Nat) : Bool :=
  (o.1 == 0 && regFld s (Reg.CAP_CTRL o.2) 23 12 == p)
    || (o.1 == 3 && (upto 1024).any fun m => modValid s m && modSideOf s m == o.2 && modPartnerOf s m == p)

end Sys2Proof.Machine
end

