-- ==== Sys2Proof/Machine/Change.lean ====
section
/-! DEFINITION. CFG: the registers of the configuration engine, the refusal of an image, and the cuts of a live change
(R382, R387, R390 to R397). -/
namespace Sys2Proof.Machine

/-! ## Refusal (R389) -/

/-- A write that the engine ignores. -/
def cfgBusy (off : Nat) (v : Word) : Eff := raise 0x021B 0xFFFF notice off v.toNat

/-- An image is refused: REASON, the TYPE of the section and the image offset of the record. [DEDUCED, log 84] -/
def cfgRefuse (reason ty off : Nat) : Eff := rd fun s => chain [
  countSat Reg.CFG_REFUSALS 1,
  setReg Reg.CFG_REFUSE_AT (word (ty * 2 ^ 24 + off % 2 ^ 24)),
  modCfg fun c => { c with st := cfgRest s, reason := reason, loading := false, hostLoad := false, armHeld := false },
  modStore fun m => { m with image := none },
  putFld Reg.CFG_CTRL 3 2 0,
  putBit Reg.CFG_CTRL 5 false,
  raise 0x0211 0xFFFF degraded reason (ty * 2 ^ 24 + off % 2 ^ 24)]

/-! ## Cuts (R390 to R395) -/

/-- The code of an owner in an event (R398). -/
def ownerCode (o : Nat × Nat) : Nat := o.1 * 2 ^ 16 + o.2

/-- The last owner has cut. [DEDUCED, log 92] -/
def cutDone : Eff := rd fun s => match s.cfg.change with
  | none => skip
  | some c => chain [
      each (c.recs.filter fun r => r.rtype != 0x0104) applyStruct,
      each c.removed hardFree,
      modErg fun e => { e with seq := c.seq },
      modCfg fun g => { g with st := 4, change := none },
      modHam fun h => { h with drainFrom := s.raw },
      countUp Reg.CFG_CUTS 1,
      raise 0x0217 0xFFFF notice c.seq ((s.raw - c.first) / 500),
      when (c.recs.any fun r => r.rtype == 0x0105) rateCompare,
      clockShort]

/-- Writes that belong to no owner, and records of partners that no affected owner uses. [DEDUCED, log 92] -/
def cutCommon : Eff := rd fun s => match s.cfg.change with
  | none => skip
  | some c => chain [
      modCfg fun g => { g with change := g.change.map fun x => { x with first := s.raw } },
      each (c.writes.filter fun w => w.1.1 == 4) fun w => imageWrite w.2.1 w.2.2,
      each (c.partners.filter fun r => !c.owners.any (usesPartner s (recAt r 4 2))) applyPartnerLive,
      modCfg fun g => { g with change := g.change.map fun x => { x with
        partners := x.partners.filter fun r => c.owners.any (usesPartner s (recAt r 4 2)) } }]

/-- The change is ARMED: CUT_START. Without an affected owner it is done. [DEDUCED, log 95] -/
def cutStart : Eff := rd fun s => match s.cfg.change with
  | none => skip
  | some c => chain [
      modCfg fun g => { g with st := 8, armHeld := false, change := g.change.map fun x => { x with armed := s.raw } },
      putBit Reg.CFG_CTRL 5 false,
      raise 0x0215 0xFFFF notice c.seq c.owners.length,
      when c.owners.isEmpty (chain [cutCommon, cutDone])]

/-- A running instance is replaced by another one: its routes that the image does not name follow, and it goes. A migration
on it is abandoned (R456). [DEDUCED, log 93] -/
def replaceInst (new old : Nat) : Eff := rd fun s => chain [
  when ((s.bch.mig.map fun m => m.inst == old).getD false) (abandonMig 4 false),
  modErg fun e => { e with
    insts := e.insts.filter fun x => x.1 != old
    routes := e.routes.map fun x => (x.1, { x.2 with
      src := if x.2.src = old then new else x.2.src, dst := if x.2.dst = old then new else x.2.dst }) }]

/-- The instances of an owner cut over in one update (R56, R391). [DEDUCED, log 93] -/
def cutInsts (c : Change) (o : Nat × Nat) : Eff := rd fun s =>
  let mine := (s.erg.insts.filter fun e => e.2.shadow && instOwner e.2 == o)
    ++ (c.insts.filter fun e => instOwner e.2 == o)
  let ids := mine.map Prod.fst
  chain [
    modErg fun e => { e with insts := (c.insts.filter fun x => instOwner x.2 == o).foldl (fun l x => mput x.1 x.2 l) e.insts },
    each ids fun n => modInst n fun i => { i with shadow := false, st := 1 },
    each (c.pairs.filter fun p => ids.contains p.1) fun p => replaceInst p.1 p.2,
    rd fun t => each (c.routes.filter fun r => (mget? r.2.src t.erg.insts).any fun i => instOwner i == o) fun r =>
      modErg fun e => { e with routes := mput r.1 r.2 e.routes }]

/-- A pipeline that is changed in place delivers the last line of its frame marked DROP_FOLLOWS and its frame close, and
discards segments until a frame starts (R395). -/
def reloadStart (p : Nat) : Eff := rd fun s =>
  let q := pipeOf s p
  chain [
    markDrop p (newestTag q),
    when q.frameOpen (if q.got = 0 then modPipe p fun x => { x with frameOpen := false } else closeFrame p 0),
    modReloads fun l => l ++ [{ pipe := p }]]

/-- The next owner cuts over at its boundary `at'`, the LINE_SEQ or row of the boundary line. A forced cut of a pipeline
closes its open frame (R393). [DEDUCED, log 92] -/
def ownerCut (forced : Bool) (at' : Nat) : Eff := rd fun s => match s.cfg.change with
  | none => skip
  | some c => match c.owners.drop c.done with
    | [] => skip
    | o :: rest => when (s.cfg.st == 8 || s.cfg.st == 9) (chain [
        when (s.cfg.st == 8) (chain [
          modCfg fun g => { g with st := 9 },
          journalMarkSeq 2 c.seq c.seq,
          cutCommon]),
        when forced (chain [
          raise 0x0218 0xFFFF degraded (ownerCode o) (regFld s Reg.CFG_LIVE 31 16),
          when (o.1 == 0 && (pipeOf s o.2).frameOpen) (closeFrame o.2 1)]),
        when (o.1 == 0 && c.inplace.contains o.2) (reloadStart o.2),
        cutInsts c o,
        each (c.recs.filter fun r => r.rtype == 0x0104 && o.1 == 0 && recAt r 4 2 / 4 == o.2) applyTap,
        each (c.writes.filter fun w => w.1 == o) fun w => imageWrite w.2.1 w.2.2,
        rd fun t =>
          let ps := ((t.cfg.change.map fun x => x.partners).getD []).filter fun r => usesPartner t (recAt r 4 2) o
          chain [
            each ps applyPartnerLive,
            modCfg fun g => { g with change := g.change.map fun x => { x with
              done := x.done + 1, partners := x.partners.filter fun r => !ps.contains r } }],
        raise 0x0216 0xFFFF notice (ownerCode o) at',
        when rest.isEmpty cutDone])

/-- An owner is at its boundary (R391): a pipeline between two frames, or in the first line of one; a bar between two of its
frames. The row of a bar and the cycle of a side are the sender's to name. [DEDUCED, log 92] -/
def atBoundary (s : State) (o : Nat × Nat) : Bool :=
  if o.1 = 0 then !(pipeOf s o.2).frameOpen || (pipeOf s o.2).got == 0
  else if o.1 = 1 then (barOf s o.2).open'.rows == 0
  else if o.1 = 2 then (cmpOf s o.2).fresh
  else true

/-- The owner whose turn it is to cut. -/
def nextOwner (s : State) : Option (Nat × Nat) := s.cfg.change.bind fun c => (c.owners.drop c.done).head?

/-- OWNER_CUT. -/
def execOwnerCut (at' : BitVec 32) (s : State) : Host.Outcome State Fault Refusal :=
  .next (go (when (!s.mainReset && ((nextOwner s).map (atBoundary s)).getD false) (ownerCut false at'.toNat)) s)

/-- CUT_TIMEOUT_MS have passed since ARMED (R393). -/
def cutTimedOut (s : State) : Bool :=
  (s.cfg.change.map fun c => decide (c.armed + regFld s Reg.CFG_LIVE 31 16 * 500000 ≤ s.raw)).getD false

/-- CUT_FORCED. [DEDUCED, log 95] -/
def execCutForced (at' : BitVec 32) (s : State) : Host.Outcome State Fault Refusal :=
  .next (go (when (!s.mainReset && cutTimedOut s) (ownerCut true at'.toNat)) s)

/-- The shadows have run their warm frames: WARM_FRAMES whole frames of every affected owner of the lowest rank, whose input
comes first (R390). [DEDUCED, log 95] -/
def shadowsWarm (s : State) : Bool := (s.cfg.change.map fun c =>
  let low := (c.owners.map Prod.fst).foldl min 3
  c.warm.all fun w => w.1.1 != low || decide (((regFld s Reg.CFG_LIVE 7 0 : Nat) : Int) ≤ max w.2 0)).getD false

/-- ARMED: the shadows have run their warm frames, with AUTO_ARM or a held ARM. [DEDUCED, log 95] -/
def execArmed (s : State) : Host.Outcome State Fault Refusal :=
  .next (go (when (s.cfg.st == 7 && (s.cfg.armHeld || regBit s Reg.CFG_CTRL 4) && shadowsWarm s) cutStart) s)

/-! ## CFG_CTRL -/

/-- A load or a change runs. -/
def engineBusy (s : State) : Bool := s.cfg.loading || changeRuns s

/-- The image in device memory, as CFG_LD_ADDR and CFG_LD_LEN name it, is guarded (R380). [DEDUCED, log 84] -/
def guardLoad : Eff := rd fun s => modStore fun m => { m with
  image := some (regWide s Reg.CFG_LD_ADDR_LO Reg.CFG_LD_ADDR_HI, (regGet s Reg.CFG_LD_LEN).toNat) }

/-- What a write of CFG_CTRL sets: the GO bit `b` starts a load or a change, unless one runs, LOCK is set, or the length is
0 (R387, R390). [DEDUCED, log 83] -/
def goBit (b : Nat) (old v : Word) (start empty : Eff) : Eff := rd fun s =>
  if engineBusy s then chain [putBit Reg.CFG_CTRL b (bit old b), cfgBusy Reg.CFG_CTRL v]
  else if regBit s Reg.CFG_CTRL 31 then cfgRefuse 20 0 0
  else if (regGet s Reg.CFG_LD_LEN).toNat = 0 then chain [putBit Reg.CFG_CTRL b false, empty]
  else chain [guardLoad, start]

/-- LOAD_GO. [DEDUCED, log 83] -/
def loadGo (old v : Word) : Eff := goBit 2 old v
  (modCfg fun c => { c with st := 1, loading := true, hostLoad := true })
  (rd fun s => raise 0x0210 0xFFFF notice (regGet s Reg.CFG_SEQ).toNat s.cfg.bootSlot)

/-- PREP_GO; with a length of 0 its report PREPARED comes at once, with the SEQ in force and no shadow tile (R12).
[DEDUCED, log 83] -/
def prepGo (old v : Word) : Eff := goBit 3 old v (modCfg fun c => { c with st := 6 })
  (rd fun s => raise 0x0214 0xFFFF notice (regGet s Reg.CFG_SEQ).toNat 0)

/-- ARM in PREPARED arms the change; before it, the bit is held (R390). -/
def armWrite : Eff := rd fun s =>
  if s.cfg.st = 7 then cutStart
  else if s.cfg.st = 6 then modCfg fun c => { c with armHeld := true }
  else putBit Reg.CFG_CTRL 5 false

/-- ABORT before the first cut; later it is ignored (R396). -/
def abortWrite (v : Word) : Eff := rd fun s => chain [
  putBit Reg.CFG_CTRL 6 false,
  if s.cfg.st = 9 then cfgBusy Reg.CFG_CTRL v else abortChange 18]

/-- `a` is newer than `b` (R381). -/
def seqNewer (a b : Nat) : Bool := decide (1 ≤ (a + 2 ^ 32 - b) % 2 ^ 32 ∧ (a + 2 ^ 32 - b) % 2 ^ 32 < 2 ^ 31)

/-- FLOOR_COMMIT (R382). -/
def floorCommit (v : Word) : Eff := rd fun s =>
  let seq := regGet s Reg.CFG_SEQ
  chain [
    putBit Reg.CFG_CTRL 7 false,
    if s.cfg.full && !seqNewer (regGet s Reg.CFG_SEQ_FLOOR).toNat seq.toNat then setReg Reg.CFG_SEQ_FLOOR seq
    else cfgBusy Reg.CFG_CTRL v]

/-- A write of CFG_CTRL. [DEDUCED, log 83] -/
def cfgCtrl (ini : Ini) (v : Word) : Eff := writeLevel ini Reg.CFG_CTRL v fun old _ => chain [
  when (bit v 2) (loadGo old v),
  when (bit v 3) (prepGo old v),
  when (bit v 5) armWrite,
  when (bit v 6) (abortWrite v),
  when (bit v 7) (floorCommit v)]

/-- LOAD_GO: a write of CFG_CTRL with the bit. -/
def execLoadGo (ini : Ini) (v : Word) (s : State) : Host.Outcome State Fault Refusal :=
  let w := setFld v 2 2 1
  .next (go (busWrite ini Reg.CFG_CTRL w (cfgCtrl ini w)) s)

/-- PREP_GO. -/
def execPrepGo (ini : Ini) (v : Word) (s : State) : Host.Outcome State Fault Refusal :=
  let w := setFld v 3 3 1
  .next (go (busWrite ini Reg.CFG_CTRL w (cfgCtrl ini w)) s)

/-- ARM. -/
def execArm (ini : Ini) (v : Word) (s : State) : Host.Outcome State Fault Refusal :=
  let w := setFld v 5 5 1
  .next (go (busWrite ini Reg.CFG_CTRL w (cfgCtrl ini w)) s)

/-- CFG_ABORT. -/
def execCfgAbort (ini : Ini) (v : Word) (s : State) : Host.Outcome State Fault Refusal :=
  let w := setFld v 6 6 1
  .next (go (busWrite ini Reg.CFG_CTRL w (cfgCtrl ini w)) s)

/-- FLOOR_COMMIT. -/
def execFloorCommit (ini : Ini) (v : Word) (s : State) : Host.Outcome State Fault Refusal :=
  let w := setFld v 7 7 1
  .next (go (busWrite ini Reg.CFG_CTRL w (cfgCtrl ini w)) s)

/-! ## The register bus with CFG -/

/-- The words of CFG that are views of its state (R397). [DEDUCED, log 85] -/
def cfgView (s : State) (off : Nat) : Option Word :=
  let c := s.cfg
  if off = Reg.CFG_STATUS then some (word (c.st * 2 ^ 28 + b2n (atExpert s Reg.CFG_CTRL) * 2 ^ 24 + c.reason * 2 ^ 16
    + c.bootSlot * 2 ^ 8 + c.bootSel * 2 ^ 6 + b2n c.slotB * 2 ^ 5 + b2n c.slotA * 2 ^ 4
    + b2n ((c.change.map fun x => !x.inplace.isEmpty).getD false) * 2 ^ 3 + b2n c.flashOp.isSome * 2 ^ 2
    + b2n (engineBusy s) * 2 + b2n s.erg.valid))
  else if off = Reg.CFG_AFFECTED then
    some (word ((c.change.map fun x => x.owners.length * 2 ^ 16 + x.done).getD 0))
  else if off = Reg.CFG_FL_STATUS then
    some (word (b2n c.flashOp.isSome * 2 ^ 31 + b2n c.flashDone * 2 ^ 30 + c.flashResult))
  else if off = Reg.CFG_FL_ID then some (word c.flashId)
  else none

/-- The effect of a 32-bit write of any register. [DESIGN CHOICE, log 12] [DEDUCED, log 91] -/
def anyWrite (ini : Ini) (off : Nat) (v : Word) : Eff :=
  if off = Reg.CFG_CTRL then cfgCtrl ini v
  else if off = Reg.CFG_FL_CTRL then flashCtrl ini v
  else blockWrite ini off v

/-- The word of any register that is a view of its block's state. -/
def anyView (s : State) (off : Nat) : Option Word := if regionOf off = 0x02 then cfgView s off else blockView s off

end Sys2Proof.Machine
end

