-- ==== Sys2Proof/Machine/CoreFloat.lean ====
section
/-!
DEFINITION. The floating-point arithmetic of the control cores (F and D of R399): binary32 and binary64 with the five
rounding modes and the exception flags. PRESUMED: the spec names the extensions and leaves their arithmetic to the RISC-V
standard.
-/
namespace Sys2Proof.Machine

/-- A binary format: the widths of its exponent and of its fraction. -/
structure FpFmt where
  eb : Nat
  fb : Nat
  deriving DecidableEq, Repr

/-- binary32 and binary64. -/
def fmtS : FpFmt := ⟨8, 23⟩
def fmtD : FpFmt := ⟨11, 52⟩

/-- A number that is read from its bits: `fin s m e` is ±m · 2^e. -/
inductive Fp where
  | nan (signaling : Bool)
  | inf (s : Bool)
  | fin (s : Bool) (m : Nat) (e : Int)
  deriving DecidableEq, Repr

/-- Bits of a result with the exception flags it sets: 1 inexact, 2 underflow, 4 overflow, 8 division by zero, 16 invalid. -/
abbrev FpOut := Nat × Nat

/-- Exponent bias, the bits of an infinity, of the canonical NaN, and of a zero. -/
def FpFmt.bias (f : FpFmt) : Nat := 2 ^ (f.eb - 1) - 1
def FpFmt.signBit (f : FpFmt) (s : Bool) : Nat := b2n s * 2 ^ (f.eb + f.fb)
def FpFmt.infBits (f : FpFmt) (s : Bool) : Nat := f.signBit s + (2 ^ f.eb - 1) * 2 ^ f.fb
def FpFmt.nanBits (f : FpFmt) : Nat := (2 ^ f.eb - 1) * 2 ^ f.fb + 2 ^ (f.fb - 1)
def FpFmt.maxBits (f : FpFmt) (s : Bool) : Nat := f.infBits s - 1

/-- The number that bits stand for. -/
def unpackFp (f : FpFmt) (n : Nat) : Fp :=
  let s := n.testBit (f.eb + f.fb)
  let e := bits n (f.eb + f.fb - 1) f.fb
  let m := n % 2 ^ f.fb
  if e = 2 ^ f.eb - 1 then (if m = 0 then .inf s else .nan (!m.testBit (f.fb - 1)))
  else if e = 0 then .fin s m (1 - (f.bias : Int) - f.fb)
  else .fin s (m + 2 ^ f.fb) ((e : Int) - f.bias - f.fb)

/-- Whether the magnitude `q` grows by one when the part `r` of `2^k`, and a nonzero rest below it if `st`, is cut off. -/
def roundUp (rm : Nat) (s : Bool) (q r k : Nat) (st : Bool) : Bool :=
  let any := r != 0 || st
  let half := 2 ^ k
  match rm with
  | 0 => decide (half < 2 * r) || (2 * r == half && (st || q % 2 == 1))
  | 1 => false
  | 2 => s && any
  | 3 => !s && any
  | _ => decide (half ≤ 2 * r)

/-- A magnitude `m · 2^e` cut to multiples of `2^q` and rounded: the multiple, and whether it is inexact. -/
def cutTo (rm : Nat) (s : Bool) (m : Nat) (e : Int) (st : Bool) (q : Int) : Nat × Bool :=
  if q ≤ e then (m * 2 ^ (e - q).toNat, st)
  else
    let k := (q - e).toNat
    let r := m % 2 ^ k
    let n := m / 2 ^ k
    (if roundUp rm s n r k st then n + 1 else n, r != 0 || st)

/-- The value ±m · 2^e, with a nonzero rest below `m` if `st`, rounded to a format. A value with a rest must hold at least
two bits more than the format's fraction. [PRESUMED, log 100] -/
def roundFp (f : FpFmt) (rm : Nat) (s : Bool) (m : Nat) (e : Int) (st : Bool) : FpOut :=
  if m = 0 then (f.signBit s, 0)
  else
    let top : Int := e + (Nat.log2 m : Nat)
    let emin : Int := 1 - (f.bias : Int)
    let q : Int := max top emin - f.fb
    let c := cutTo rm s m e st q
    -- tininess is judged after rounding with an unbounded exponent
    let tiny := decide (top < emin)
      && !(decide (top = emin - 1) && (cutTo rm s m e st (top - f.fb)).1 == 2 ^ (f.fb + 1))
    let carry := c.1 == 2 ^ (f.fb + 1)
    let n := if carry then 2 ^ f.fb else c.1
    let qe := if carry then q + 1 else q
    let biased : Int := qe + f.fb + f.bias
    if 2 ^ f.fb ≤ n ∧ (2 ^ f.eb - 1 : Int) ≤ biased then
      (if rm = 1 ∨ (rm = 2 ∧ !s) ∨ (rm = 3 ∧ s) then f.maxBits s else f.infBits s, 5)
    else
      (f.signBit s + (if n < 2 ^ f.fb then n else biased.toNat * 2 ^ f.fb + (n - 2 ^ f.fb)),
        if c.2 then 1 + b2n tiny * 2 else 0)

/-- The canonical NaN, invalid if `bad`. -/
def nanOut (f : FpFmt) (bad : Bool) : FpOut := (f.nanBits, b2n bad * 16)

/-- A number is a NaN, or a signaling one. -/
def Fp.isNan : Fp → Bool
  | .nan _ => true
  | _ => false
def Fp.isSnan : Fp → Bool
  | .nan s => s
  | _ => false

/-- The sign of a number, and the number with another sign. -/
def Fp.sign : Fp → Bool
  | .nan _ => false
  | .inf s => s
  | .fin s _ _ => s
def Fp.neg : Fp → Fp
  | .nan s => .nan s
  | .inf s => .inf !s
  | .fin s m e => .fin (!s) m e

/-- A signed magnitude. -/
def signedNat (s : Bool) (m : Nat) : Int := if s then -(m : Int) else m

/-- Two finite numbers added exactly and rounded. An exact zero takes the common sign, or is negative in the mode towards
minus infinity. -/
def addFin (f : FpFmt) (rm : Nat) (s1 : Bool) (m1 : Nat) (e1 : Int) (s2 : Bool) (m2 : Nat) (e2 : Int) : FpOut :=
  let e := min e1 e2
  let t := signedNat s1 (m1 * 2 ^ (e1 - e).toNat) + signedNat s2 (m2 * 2 ^ (e2 - e).toNat)
  if t = 0 then (f.signBit (if s1 == s2 then s1 else rm == 2), 0)
  else roundFp f rm (decide (t < 0)) t.natAbs e false

/-- Sum. -/
def fpAdd (f : FpFmt) (rm : Nat) (a b : Fp) : FpOut :=
  match a, b with
  | .nan x, y => nanOut f (x || y.isSnan)
  | _, .nan y => nanOut f y
  | .inf s, .inf t => if s == t then (f.infBits s, 0) else nanOut f true
  | .inf s, _ => (f.infBits s, 0)
  | _, .inf t => (f.infBits t, 0)
  | .fin s1 m1 e1, .fin s2 m2 e2 => addFin f rm s1 m1 e1 s2 m2 e2

/-- Product. -/
def fpMul (f : FpFmt) (rm : Nat) (a b : Fp) : FpOut :=
  match a, b with
  | .nan x, y => nanOut f (x || y.isSnan)
  | _, .nan y => nanOut f y
  | .inf s, .inf t => (f.infBits (s != t), 0)
  | .inf s, .fin t m _ => if m = 0 then nanOut f true else (f.infBits (s != t), 0)
  | .fin s m _, .inf t => if m = 0 then nanOut f true else (f.infBits (s != t), 0)
  | .fin s1 m1 e1, .fin s2 m2 e2 => roundFp f rm (s1 != s2) (m1 * m2) (e1 + e2) false

/-- Product and sum with one rounding. -/
def fpFma (f : FpFmt) (rm : Nat) (a b c : Fp) : FpOut :=
  let bad := a.isSnan || b.isSnan || c.isSnan
  let zeroInf := match a, b with
    | .inf _, .fin _ 0 _ => true
    | .fin _ 0 _, .inf _ => true
    | _, _ => false
  if zeroInf then nanOut f true
  else if a.isNan || b.isNan || c.isNan then nanOut f bad
  else match a, b, c with
    | .fin s1 m1 e1, .fin s2 m2 e2, .fin s3 m3 e3 => addFin f rm (s1 != s2) (m1 * m2) (e1 + e2) s3 m3 e3
    | .fin _ _ _, .fin _ _ _, _ => (f.infBits c.sign, 0)
    | _, _, .inf t => if (a.sign != b.sign) == t then (f.infBits t, 0) else nanOut f true
    | _, _, _ => (f.infBits (a.sign != b.sign), 0)

/-- Quotient. -/
def fpDiv (f : FpFmt) (rm : Nat) (a b : Fp) : FpOut :=
  match a, b with
  | .nan x, y => nanOut f (x || y.isSnan)
  | _, .nan y => nanOut f y
  | .inf _, .inf _ => nanOut f true
  | .inf s, .fin t _ _ => (f.infBits (s != t), 0)
  | .fin s _ _, .inf t => (f.signBit (s != t), 0)
  | .fin s1 m1 e1, .fin s2 m2 e2 =>
    if m2 = 0 then (if m1 = 0 then nanOut f true else (f.infBits (s1 != s2), 8))
    else if m1 = 0 then (f.signBit (s1 != s2), 0)
    else
      let k := f.fb + 4 + Nat.log2 m2
      roundFp f rm (s1 != s2) (m1 * 2 ^ k / m2) (e1 - e2 - k) (m1 * 2 ^ k % m2 != 0)

/-- The integer square root, bit by bit from bit `k - 1` down. -/
def isqrt (n : Nat) : Nat → Nat → Nat
  | 0, r => r
  | k + 1, r => isqrt n k (if (r + 2 ^ k) * (r + 2 ^ k) ≤ n then r + 2 ^ k else r)

/-- Square root. -/
def fpSqrt (f : FpFmt) (rm : Nat) (a : Fp) : FpOut :=
  match a with
  | .nan s => nanOut f s
  | .inf s => if s then nanOut f true else (f.infBits false, 0)
  | .fin s m e =>
    if m = 0 then (f.signBit s, 0)
    else if s then nanOut f true
    else
      let k := 2 * (f.fb + 4) + (e % 2).toNat
      let n := m * 2 ^ k
      let r := isqrt n (Nat.log2 n / 2 + 1) 0
      roundFp f rm false r ((e - k) / 2) (r * r != n)

/-- Two finite numbers, or infinities, compared: the sign of their difference. -/
def cmpFp (a b : Fp) : Int :=
  match a, b with
  | .inf s, .inf t => if s == t then 0 else if s then -1 else 1
  | .inf s, _ => if s then -1 else 1
  | _, .inf t => if t then 1 else -1
  | .fin s1 m1 e1, .fin s2 m2 e2 =>
    let e := min e1 e2
    (signedNat s1 (m1 * 2 ^ (e1 - e).toNat) - signedNat s2 (m2 * 2 ^ (e2 - e).toNat)).sign
  | _, _ => 0

/-- Comparisons: 0 at most, 1 below, 2 equal. A NaN compares false; it is invalid for the first two, and for equality
if it signals. -/
def fpCmp (op : Nat) (a b : Fp) : FpOut :=
  if a.isNan || b.isNan then (0, b2n (op != 2 || a.isSnan || b.isSnan) * 16)
  else
    let d := cmpFp a b
    (b2n (if op = 0 then decide (d ≤ 0) else if op = 1 then decide (d < 0) else decide (d = 0)), 0)

/-- Smaller (`hi` false) or larger of two numbers, given their bits too: a NaN loses, and a negative zero lies below a
positive one. -/
def fpMinMax (f : FpFmt) (hi : Bool) (x y : Nat) : FpOut :=
  let a := unpackFp f x
  let b := unpackFp f y
  let fl := b2n (a.isSnan || b.isSnan) * 16
  if a.isNan && b.isNan then (f.nanBits, fl)
  else if a.isNan then (y, fl)
  else if b.isNan then (x, fl)
  else
    let d := cmpFp a b
    let less := decide (d < 0) || (d == 0 && a.sign && !b.sign)
    (if less != hi then x else y, fl)

/-- The class of a number, as one of ten bits. -/
def fpClass (f : FpFmt) (n : Nat) : Nat :=
  match unpackFp f n with
  | .nan s => if s then 2 ^ 8 else 2 ^ 9
  | .inf s => if s then 2 ^ 0 else 2 ^ 7
  | .fin s m _ =>
    if m = 0 then (if s then 2 ^ 3 else 2 ^ 4)
    else if m < 2 ^ f.fb then (if s then 2 ^ 2 else 2 ^ 5)
    else if s then 2 ^ 1 else 2 ^ 6

/-- A number converted to a format. -/
def fpConvert (f : FpFmt) (rm : Nat) (a : Fp) : FpOut :=
  match a with
  | .nan s => nanOut f s
  | .inf s => (f.infBits s, 0)
  | .fin s m e => roundFp f rm s m e false

/-- An integer converted to a format. -/
def fpOfInt (f : FpFmt) (rm : Nat) (i : Int) : FpOut := roundFp f rm (decide (i < 0)) i.natAbs 0 false

/-- A number converted to an integer between two bounds; out of range and NaN are invalid and give a bound. -/
def fpToInt (rm : Nat) (lo hi : Int) (a : Fp) : Int × Nat :=
  match a with
  | .nan _ => (hi, 16)
  | .inf s => (if s then lo else hi, 16)
  | .fin s m e =>
    let c := cutTo rm s m e false 0
    let i := signedNat s c.1
    if i < lo then (lo, 16) else if hi < i then (hi, 16) else (i, b2n c.2)

end Sys2Proof.Machine
end

