-- ==== Sys2Proof/Machine/CoreInt.lean ====
section
/-!
DEFINITION. Integer arithmetic of the control cores and their 16-bit encodings (I, M, C, Zba and Zbb of R399). PRESUMED:
the spec names the extensions and leaves their instructions to the RISC-V standard.
-/
namespace Sys2Proof.Machine

/-- A core register. -/
abbrev XWord := BitVec 64

/-- A 64-bit number, and the sign extension of the low `n` bits of one. -/
def xw (n : Nat) : XWord := BitVec.ofNat 64 n
def sext (n v : Nat) : XWord := BitVec.ofInt 64 (sint n v)

/-- Number of leading zeros, trailing zeros and ones in the low `n` bits. -/
def clzN (n v : Nat) : Nat := if v % 2 ^ n = 0 then n else n - 1 - Nat.log2 (v % 2 ^ n)
def ctzN (n v : Nat) : Nat := (firstWhere (fun i => v.testBit i) (upto n)).getD n
def popN (n v : Nat) : Nat := sumOf (fun i => b2n (v.testBit i)) (upto n)

/-- Rotation to the right of `n` bits. -/
def rotrN (n v k : Nat) : Nat := (v % 2 ^ n / 2 ^ (k % n) + v * 2 ^ (n - k % n)) % 2 ^ n

/-- Each byte all ones when it is not zero; bytes in reverse order. -/
def orcB (v : Nat) : Nat := leVal ((leBytes 8 v).map fun b => if b = 0#8 then b else 0xFF#8)
def rev8 (v : Nat) : Nat := leVal (leBytes 8 v).reverse

/-- Signed quotient and remainder of `n` bits, with division by zero and overflow as RISC-V gives them. -/
def sdivN (n : Nat) (a b : Int) : Int := if b = 0 then -1 else if a = -(2 : Int) ^ (n - 1) ∧ b = -1 then a else a.tdiv b
def sremN (n : Nat) (a b : Int) : Int := if b = 0 then a else if a = -(2 : Int) ^ (n - 1) ∧ b = -1 then 0 else a.tmod b
def udivN (n a b : Nat) : Nat := if b = 0 then 2 ^ n - 1 else a / b
def uremN (a b : Nat) : Nat := if b = 0 then a else a % b

/-- Register-register operations of 64 bits, by funct7 and funct3. [PRESUMED, log 100] -/
def aluOp (f7 f3 : Nat) (a b : XWord) : Option XWord :=
  let x := a.toNat
  let y := b.toNat
  let i := a.toInt
  let j := b.toInt
  match f7, f3 with
  | 0x00, 0 => some (a + b)
  | 0x20, 0 => some (a - b)
  | 0x00, 1 => some (a <<< (y % 64))
  | 0x00, 2 => some (xw (b2n (decide (i < j))))
  | 0x00, 3 => some (xw (b2n (decide (x < y))))
  | 0x00, 4 => some (a ^^^ b)
  | 0x00, 5 => some (a >>> (y % 64))
  | 0x20, 5 => some (a.sshiftRight (y % 64))
  | 0x00, 6 => some (a ||| b)
  | 0x00, 7 => some (a &&& b)
  | 0x20, 4 => some (~~~(a ^^^ b))
  | 0x20, 6 => some (a ||| ~~~b)
  | 0x20, 7 => some (a &&& ~~~b)
  | 0x01, 0 => some (a * b)
  | 0x01, 1 => some (BitVec.ofInt 64 (i * j / (2 ^ 64 : Nat)))
  | 0x01, 2 => some (BitVec.ofInt 64 (i * (y : Int) / (2 ^ 64 : Nat)))
  | 0x01, 3 => some (xw (x * y / 2 ^ 64))
  | 0x01, 4 => some (BitVec.ofInt 64 (sdivN 64 i j))
  | 0x01, 5 => some (xw (udivN 64 x y))
  | 0x01, 6 => some (BitVec.ofInt 64 (sremN 64 i j))
  | 0x01, 7 => some (xw (uremN x y))
  | 0x10, 2 => some (xw (2 * x + y))
  | 0x10, 4 => some (xw (4 * x + y))
  | 0x10, 6 => some (xw (8 * x + y))
  | 0x05, 4 => some (if i < j then a else b)
  | 0x05, 5 => some (if x < y then a else b)
  | 0x05, 6 => some (if i < j then b else a)
  | 0x05, 7 => some (if x < y then b else a)
  | 0x30, 1 => some (xw (rotrN 64 x (64 - y % 64)))
  | 0x30, 5 => some (xw (rotrN 64 x (y % 64)))
  | _, _ => none

/-- Register-register operations of 32 bits, and those of Zba on the low word; `rs2` is the number of the second source.
[PRESUMED, log 100] -/
def aluOpW (f7 f3 rs2 : Nat) (a b : XWord) : Option XWord :=
  let x := a.toNat % 2 ^ 32
  let y := b.toNat % 2 ^ 32
  let i := sint 32 x
  let j := sint 32 y
  let s := y % 32
  match f7, f3 with
  | 0x00, 0 => some (sext 32 (x + y))
  | 0x20, 0 => some (BitVec.ofInt 64 (sint 32 (wrapTo 32 (i - j))))
  | 0x00, 1 => some (sext 32 (x * 2 ^ s))
  | 0x00, 5 => some (sext 32 (x / 2 ^ s))
  | 0x20, 5 => some (BitVec.ofInt 64 (sar i s))
  | 0x01, 0 => some (sext 32 (x * y))
  | 0x01, 4 => some (BitVec.ofInt 64 (sdivN 32 i j))
  | 0x01, 5 => some (sext 32 (udivN 32 x y))
  | 0x01, 6 => some (BitVec.ofInt 64 (sremN 32 i j))
  | 0x01, 7 => some (sext 32 (uremN x y))
  | 0x04, 0 => some (xw (x + b.toNat))
  | 0x10, 2 => some (xw (2 * x + b.toNat))
  | 0x10, 4 => some (xw (4 * x + b.toNat))
  | 0x10, 6 => some (xw (8 * x + b.toNat))
  | 0x04, 4 => if rs2 = 0 then some (xw (x % 2 ^ 16)) else none
  | 0x30, 1 => some (sext 32 (rotrN 32 x (32 - s)))
  | 0x30, 5 => some (sext 32 (rotrN 32 x s))
  | _, _ => none

/-- Operations with a 12-bit immediate, 64 bits. [PRESUMED, log 100] -/
def aluImm (f3 imm : Nat) (a : XWord) : Option XWord :=
  let k := imm % 64
  let x := a.toNat
  let c := sext 12 imm
  match f3 with
  | 0 => some (a + c)
  | 2 => some (xw (b2n (decide (a.toInt < c.toInt))))
  | 3 => some (xw (b2n (decide (x < c.toNat))))
  | 4 => some (a ^^^ c)
  | 6 => some (a ||| c)
  | 7 => some (a &&& c)
  | 1 => match imm / 64 with
    | 0x00 => some (a <<< k)
    | 0x18 => match k with
      | 0 => some (xw (clzN 64 x))
      | 1 => some (xw (ctzN 64 x))
      | 2 => some (xw (popN 64 x))
      | 4 => some (sext 8 x)
      | 5 => some (sext 16 x)
      | _ => none
    | _ => none
  | _ => match imm / 64 with
    | 0x00 => some (a >>> k)
    | 0x10 => some (a.sshiftRight k)
    | 0x18 => some (xw (rotrN 64 x k))
    | _ => if imm = 0x287 then some (xw (orcB x)) else if imm = 0x6B8 then some (xw (rev8 x)) else none

/-- Operations with a 12-bit immediate, 32 bits, and SLLI.UW. [PRESUMED, log 100] -/
def aluImmW (f3 imm : Nat) (a : XWord) : Option XWord :=
  let x := a.toNat % 2 ^ 32
  let k := imm % 32
  match f3 with
  | 0 => some (sext 32 (x + (sext 12 imm).toNat))
  | 1 => match imm / 32 with
    | 0x00 => some (sext 32 (x * 2 ^ k))
    | 0x30 => match k with
      | 0 => some (xw (clzN 32 x))
      | 1 => some (xw (ctzN 32 x))
      | 2 => some (xw (popN 32 x))
      | _ => none
    | _ => if imm / 64 = 0x02 then some (xw (x * 2 ^ (imm % 64))) else none
  | 5 => match imm / 32 with
    | 0x00 => some (sext 32 (x / 2 ^ k))
    | 0x20 => some (BitVec.ofInt 64 (sar (sint 32 x) k))
    | 0x30 => some (sext 32 (rotrN 32 x k))
    | _ => none
  | _ => none

/-- Conditions of the branches. [PRESUMED, log 100] -/
def branchTaken (f3 : Nat) (a b : XWord) : Option Bool :=
  match f3 with
  | 0 => some (a == b)
  | 1 => some (a != b)
  | 4 => some (decide (a.toInt < b.toInt))
  | 5 => some (decide (b.toInt ≤ a.toInt))
  | 6 => some (decide (a.toNat < b.toNat))
  | 7 => some (decide (b.toNat ≤ a.toNat))
  | _ => none

/-! ## Immediates of the 32-bit formats -/

def immI (w : Nat) : XWord := sext 12 (bits w 31 20)
def immS (w : Nat) : XWord := sext 12 (bits w 31 25 * 32 + bits w 11 7)
def immB (w : Nat) : XWord :=
  sext 13 (bits w 31 31 * 2 ^ 12 + bits w 7 7 * 2 ^ 11 + bits w 30 25 * 32 + bits w 11 8 * 2)
def immU (w : Nat) : XWord := sext 32 (bits w 31 12 * 2 ^ 12)
def immJ (w : Nat) : XWord :=
  sext 21 (bits w 31 31 * 2 ^ 20 + bits w 19 12 * 2 ^ 12 + bits w 20 20 * 2 ^ 11 + bits w 30 21 * 2)

/-! ## 16-bit encodings -/

/-- Words of the 32-bit formats. -/
def encR (op f3 f7 rd rs1 rs2 : Nat) : Nat :=
  f7 * 2 ^ 25 + rs2 * 2 ^ 20 + rs1 * 2 ^ 15 + f3 * 2 ^ 12 + rd * 2 ^ 7 + op
def encI (op f3 rd rs1 imm : Nat) : Nat := imm % 2 ^ 12 * 2 ^ 20 + rs1 * 2 ^ 15 + f3 * 2 ^ 12 + rd * 2 ^ 7 + op
def encS (op f3 rs1 rs2 imm : Nat) : Nat := encR op f3 (bits imm 11 5) (imm % 32) rs1 rs2
def encB (f3 rs1 imm : Nat) : Nat :=
  encR 0x63 f3 (bits imm 12 12 * 64 + bits imm 10 5) (bits imm 4 1 * 2 + bits imm 11 11) rs1 0
def encJ (rd imm : Nat) : Nat :=
  (bits imm 20 20 * 2 ^ 19 + bits imm 10 1 * 2 ^ 9 + bits imm 11 11 * 2 ^ 8 + bits imm 19 12) * 2 ^ 12 + rd * 2 ^ 7 + 0x6F

/-- The 32-bit word that a 16-bit encoding of quadrant 0 stands for. -/
def expand0 (h : Nat) : Option Nat :=
  let rd := 8 + bits h 4 2
  let rs := 8 + bits h 9 7
  let w4 := bits h 12 10 * 8 + bits h 6 6 * 4 + bits h 5 5 * 64
  let w8 := bits h 12 10 * 8 + bits h 6 5 * 64
  match bits h 15 13 with
  | 0 =>
    let k := bits h 12 11 * 16 + bits h 10 7 * 64 + bits h 6 6 * 4 + bits h 5 5 * 8
    if k = 0 then none else some (encI 0x13 0 rd 2 k)
  | 1 => some (encI 0x07 3 rd rs w8)
  | 2 => some (encI 0x03 2 rd rs w4)
  | 3 => some (encI 0x03 3 rd rs w8)
  | 5 => some (encS 0x27 3 rs rd w8)
  | 6 => some (encS 0x23 2 rs rd w4)
  | 7 => some (encS 0x23 3 rs rd w8)
  | _ => none

/-- A 6-bit immediate sign-extended, as a natural number of 64 bits. -/
def imm6 (h : Nat) : Nat := (sext 6 (bits h 12 12 * 32 + bits h 6 2)).toNat

/-- Quadrant 1. -/
def expand1 (h : Nat) : Option Nat :=
  let rd := bits h 11 7
  let rp := 8 + bits h 9 7
  let rq := 8 + bits h 4 2
  let sh := bits h 12 12 * 32 + bits h 6 2
  let jmp := (sext 12 (bits h 12 12 * 2 ^ 11 + bits h 11 11 * 16 + bits h 10 9 * 256 + bits h 8 8 * 1024 + bits h 7 7 * 64
    + bits h 6 6 * 128 + bits h 5 3 * 2 + bits h 2 2 * 32)).toNat
  let br := (sext 9 (bits h 12 12 * 256 + bits h 11 10 * 8 + bits h 6 5 * 64 + bits h 4 3 * 2 + bits h 2 2 * 32)).toNat
  match bits h 15 13 with
  | 0 => some (encI 0x13 0 rd rd (imm6 h))
  | 1 => if rd = 0 then none else some (encI 0x1B 0 rd rd (imm6 h))
  | 2 => some (encI 0x13 0 rd 0 (imm6 h))
  | 3 =>
    if sh = 0 then none
    else if rd = 2 then
      some (encI 0x13 0 2 2 (sext 10 (bits h 12 12 * 512 + bits h 6 6 * 16 + bits h 5 5 * 64 + bits h 4 3 * 128
        + bits h 2 2 * 32)).toNat)
    else some (imm6 h % 2 ^ 20 * 2 ^ 12 + rd * 2 ^ 7 + 0x37)
  | 4 => match bits h 11 10 with
    | 0 => some (encI 0x13 5 rp rp sh)
    | 1 => some (encI 0x13 5 rp rp (0x400 + sh))
    | 2 => some (encI 0x13 7 rp rp (imm6 h))
    | _ => match bits h 12 12 * 4 + bits h 6 5 with
      | 0 => some (encR 0x33 0 0x20 rp rp rq)
      | 1 => some (encR 0x33 4 0 rp rp rq)
      | 2 => some (encR 0x33 6 0 rp rp rq)
      | 3 => some (encR 0x33 7 0 rp rp rq)
      | 4 => some (encR 0x3B 0 0x20 rp rp rq)
      | 5 => some (encR 0x3B 0 0 rp rp rq)
      | _ => none
  | 5 => some (encJ 0 jmp)
  | 6 => some (encB 0 rp br)
  | _ => some (encB 1 rp br)

/-- Quadrant 2. -/
def expand2 (h : Nat) : Option Nat :=
  let rd := bits h 11 7
  let rs2 := bits h 6 2
  let l8 := bits h 12 12 * 32 + bits h 6 5 * 8 + bits h 4 2 * 64
  let l4 := bits h 12 12 * 32 + bits h 6 4 * 4 + bits h 3 2 * 64
  let s8 := bits h 12 10 * 8 + bits h 9 7 * 64
  let s4 := bits h 12 9 * 4 + bits h 8 7 * 64
  match bits h 15 13 with
  | 0 => some (encI 0x13 1 rd rd (bits h 12 12 * 32 + rs2))
  | 1 => some (encI 0x07 3 rd 2 l8)
  | 2 => if rd = 0 then none else some (encI 0x03 2 rd 2 l4)
  | 3 => if rd = 0 then none else some (encI 0x03 3 rd 2 l8)
  | 4 =>
    if bits h 12 12 = 0 then
      (if rs2 = 0 then (if rd = 0 then none else some (encI 0x67 0 0 rd 0)) else some (encR 0x33 0 0 rd 0 rs2))
    else if rs2 = 0 then (if rd = 0 then some 0x00100073 else some (encI 0x67 0 1 rd 0))
    else some (encR 0x33 0 0 rd rd rs2)
  | 5 => some (encS 0x27 3 2 rs2 s8)
  | 6 => some (encS 0x23 2 2 rs2 s4)
  | _ => some (encS 0x23 3 2 rs2 s8)

/-- The 32-bit word that a 16-bit encoding stands for; none where the encoding is illegal. [PRESUMED, log 100] -/
def expandC (h : Nat) : Option Nat :=
  match h % 4 with
  | 0 => expand0 h
  | 1 => expand1 h
  | _ => expand2 h

end Sys2Proof.Machine
end

