-- ==== Sys2Proof/Machine/Crypto.lean ====
section
/-! DEFINITION. The digest and the signature of an image: SHA-384 (FIPS 180-4) and ECDSA over the curve P-384 (FIPS 186-5),
as R379 and R380 name them. -/
namespace Sys2Proof.Machine

/-! ## SHA-384 -/

/-- A 64-bit word of the hash. -/
abbrev HashWord := BitVec 64

/-- The root of degree `k` of `n`, rounded down, by its bits from position `b - 1` down; `r` holds those above. -/
def rootFloor (k n : Nat) : Nat → Nat → Nat
  | 0, r => r
  | b + 1, r => rootFloor k n b (if (r + 2 ^ b) ^ k ≤ n then r + 2 ^ b else r)

/-- The first 64 bits of the fraction of the root of degree `k` of a number below 512. -/
def rootFraction (k n : Nat) : HashWord := BitVec.ofNat 64 (rootFloor k (n * 2 ^ (64 * k)) 70 0)

/-- The primes up to 409, of which there are 80: no number from 2 to 20 but itself divides one. -/
def smallPrimes : List Nat := (upFrom 2 408).filter fun n => (upFrom 2 19).all fun d => n == d || n % d != 0

/-- The round constants of FIPS 180-4 come from the cube roots of the first 80 primes; the initial hash value of SHA-384 comes
from the square roots of the ninth to the sixteenth. -/
def shaK : List HashWord := smallPrimes.map (rootFraction 3)
def shaInit : List HashWord := ((smallPrimes.drop 8).take 8).map (rootFraction 2)

/-- The sum modulo 2 of a word rotated right by some amounts. -/
def rotSum (by' : List Nat) (x : HashWord) : HashWord := by'.foldl (fun y n => y ^^^ x.rotateRight n) 0

/-- The functions of the schedule and of the rounds. -/
def shaS0 (x : HashWord) : HashWord := rotSum [1, 8] x ^^^ (x >>> 7)
def shaS1 (x : HashWord) : HashWord := rotSum [19, 61] x ^^^ (x >>> 6)
def shaB0 : HashWord → HashWord := rotSum [28, 34, 39]
def shaB1 : HashWord → HashWord := rotSum [14, 18, 41]
def shaCh (x y z : HashWord) : HashWord := z ^^^ (x &&& (y ^^^ z))
def shaMaj (x y z : HashWord) : HashWord := (x &&& y) ||| (z &&& (x ||| y))

/-- The rounds of one block: `w` holds the next 16 words of the message schedule. -/
def shaRounds : List HashWord → List HashWord → List HashWord → List HashWord
  | [], _, h => h
  | k :: ks, w, [a, b, c, d, e, f, g, h] =>
    let w0 := nthD 0 0 w
    let next := shaS1 (nthD 0 14 w) + nthD 0 9 w + shaS0 (nthD 0 1 w) + w0
    let t1 := h + shaB1 e + shaCh e f g + k + w0
    let t2 := shaB0 a + shaMaj a b c
    shaRounds ks (w.drop 1 ++ [next]) [t1 + t2, a, b, c, d + t1, e, f, g]
  | _ :: _, _, h => h

/-- A big-endian number. -/
def beVal (bs : List Byte) : Nat := bs.foldl (fun n b => n * 256 + b.toNat) 0

/-- `n` bytes of a number, most significant first. -/
def beBytes (n v : Nat) : List Byte := (leBytes n v).reverse

/-- The hash after one block of 128 bytes. -/
def shaBlock (h : List HashWord) (blk : List Byte) : List HashWord :=
  let w := (chunks 8 16 blk).map fun c => BitVec.ofNat 64 (beVal c)
  List.zipWith (· + ·) h (shaRounds shaK w h)

/-- The padded message. -/
def shaPad (m : List Byte) : List Byte :=
  m ++ [0x80#8] ++ List.replicate ((239 - m.length % 128) % 128) 0#8 ++ beBytes 16 (8 * m.length)

/-- SHA-384 of a message. -/
def sha384 (m : List Byte) : List Byte :=
  let p := shaPad m
  (((chunks 128 (p.length / 128) p).foldl shaBlock shaInit).take 6).flatMap fun x => beBytes 8 x.toNat

/-! ## ECDSA over P-384 -/

/-- The field prime, the order of the base point, the coefficient b and the base point of P-384. -/
def p384 : Nat := 2 ^ 384 - 2 ^ 128 - 2 ^ 96 + 2 ^ 32 - 1
def n384 : Nat := 0xffffffffffffffffffffffffffffffffffffffffffffffffc7634d81f4372ddf581a0db248b0a77aecec196accc52973
def b384 : Nat := 0xb3312fa7e23ee7e4988e056be3f82d19181d9c6efe8141120314088f5013875ac656398d8a2ed19d2a85c8edd3ec2aef
def gx384 : Nat := 0xaa87ca22be8b05378eb1c71ef320ad746e1d3b628ba79b9859f741e082542a385502f25dbf55296c3a545e3872760ab7
def gy384 : Nat := 0x3617de4a96262c6f5d9e98bf9292dc29f8f41dbd289a147ce9da3113b5f0b8c00a60b1ce1d7e819d7a431d7c90ea0e5f

/-- `a` to the power of the number whose bits, lowest first, are given, modulo `m`. -/
def powBits (m : Nat) : List Bool → Nat → Nat
  | [], _ => 1 % m
  | b :: bs, a => (if b then a else 1) * powBits m bs (a * a % m) % m

/-- The lowest 384 bits of a number, lowest first. -/
def bits384 (n : Nat) : List Bool := (upto 384).map n.testBit

/-- The inverse modulo a prime. -/
def invMod (a m : Nat) : Nat := powBits m (bits384 (m - 2)) (a % m)

/-- A point of the curve; none is the point at infinity. -/
abbrev CurvePoint := Option (Nat × Nat)

/-- The sum of two points. -/
def curveAdd : CurvePoint → CurvePoint → CurvePoint
  | none, q => q
  | p, none => p
  | some (x1, y1), some (x2, y2) =>
    if x1 = x2 ∧ (y1 + y2) % p384 = 0 then none
    else
      let num := if x1 = x2 then 3 * x1 * x1 + p384 - 3 else y2 + p384 - y1
      let den := if x1 = x2 then 2 * y1 else x2 + p384 - x1
      let l := num * invMod den p384 % p384
      let x3 := (l * l + 2 * p384 - x1 - x2) % p384
      some (x3, (l * (x1 + p384 - x3) + p384 - y1) % p384)

/-- The multiple of a point by the number whose bits, highest first, are given. -/
def curveMul (p : CurvePoint) (bs : List Bool) : CurvePoint :=
  bs.foldl (fun q b => let d := curveAdd q q; if b then curveAdd d p else d) none

/-- A point lies on the curve. -/
def onCurve (x y : Nat) : Bool :=
  decide (x < p384 ∧ y < p384) && (x * x * x + (p384 - 3) * x + b384) % p384 == y * y % p384

/-- A signature (r, s) over a message hash is valid under a public key. -/
def ecdsaValid (qx qy r s e : Nat) : Bool :=
  onCurve qx qy && decide (0 < r ∧ r < n384 ∧ 0 < s ∧ s < n384) && (
    let w := invMod s n384
    let u := curveMul (some (gx384, gy384)) (bits384 (e * w % n384)).reverse
    let v := curveMul (some (qx, qy)) (bits384 (r * w % n384)).reverse
    match curveAdd u v with
    | none => false
    | some (x, _) => x % n384 == r)

end Sys2Proof.Machine
end

