-- ==== Sys2Proof/Machine/ImageCheck.lean ====
section
/-! DEFINITION. The checks of an image (R375 to R381): header, directory, CRCs, digest, signature, rollback, records, and the
rules of every chapter that refuses an image. -/
namespace Sys2Proof.Machine

/-- Why an image is refused: the reason of R389, the TYPE of the section and the image offset of the record.
[DEDUCED, log 85] -/
structure ImgBad where
  reason : Nat
  ty : Nat := 0
  off : Nat := 0
  deriving DecidableEq, Repr

/-- An entry of the section directory (R376). -/
structure Sect where
  ty : Nat
  off : Nat
  len : Nat
  crc : Nat
  /-- The entry's reserved bytes. -/
  rsvd : Nat
  deriving DecidableEq, Repr

/-- An image whose records have been read: SEQ, BASE_SEQ, its flags, and its records in order. -/
structure Image where
  seq : Nat
  base : Nat
  partial' : Bool
  inplaceOk : Bool
  recs : List ImgRec
  deriving DecidableEq, Repr

/-- The records of a section. -/
def Image.sect (i : Image) (ty : Nat) : List ImgRec := i.recs.filter fun r => r.sect == ty

/-- The records of a type. -/
def Image.ofType (i : Image) (rt : Nat) : List ImgRec := i.recs.filter fun r => r.rtype == rt

/-- The first failure of a list of checks. -/
def firstBad : List (Unit → Option ImgBad) → Option ImgBad
  | [] => none
  | c :: cs => match c () with
    | some b => some b
    | none => firstBad cs

/-- A failure under a condition. [DEDUCED, log 85] -/
def badIf (c : Bool) (reason : Nat) (ty off : Nat := 0) : Option ImgBad := if c then some ⟨reason, ty, off⟩ else none

/-- The first record for which a condition holds fails. [DEDUCED, log 85] -/
def badRec (rs : List ImgRec) (c : ImgRec → Bool) (reason : Nat) : Option ImgBad :=
  (firstWhere c rs).map fun r => ⟨reason, r.sect, r.at'⟩

/-! ## Steps 1 to 6 (R375, R376, R379, R380) -/

/-- Step 1: the header of 80 bytes. -/
def headerOk (h : List Byte) : Bool :=
  h.length == 80 && leAt h 0 4 == 0x44524C43 && leAt h 4 2 == 1
    && decide (80 ≤ leAt h 16 4 ∧ leAt h 16 4 ≤ 2 ^ 26) && decide (1 ≤ leAt h 20 4 ∧ leAt h 20 4 ≤ 8)
    && crc32c (h.take 28) == leAt h 28 4

/-- The directory of an image. -/
def directory (img : List Byte) : List Sect := (upto (leAt img 20 4)).map fun i =>
  let e := 80 + 16 * i
  ⟨leAt img e 1, leAt img (e + 4) 4, leAt img (e + 8) 4, leAt img (e + 12) 4, leAt img (e + 1) 3⟩

/-- Entries ascend without overlap from an offset on, within `total`. -/
def ascending (total : Nat) : Nat → List Sect → Bool
  | _, [] => true
  | from', e :: r =>
    decide (from' ≤ e.off) && e.off % 64 == 0 && e.len % 4 == 0 && e.rsvd == 0 && decide (e.off + e.len ≤ total)
      && ascending total (e.off + e.len) r

/-- Step 2: the directory under R376 and R377. [DEDUCED, log 86] -/
def directoryOk (img : List Byte) : Bool :=
  let d := directory img
  let total := leAt img 16 4
  let tys := d.map fun e => e.ty
  let part := (leAt img 6 2).testBit 0
  decide (80 + 16 * d.length ≤ total) && ascending total (80 + 16 * d.length) d
    && tys.all (fun t => decide (1 ≤ t ∧ t ≤ 8) && (tys.filter (· == t)).length == 1)
    && (match d.reverse with
      | e :: r => r.all (fun x => x.ty != 8) && (e.ty != 8 || (e.len == 192 && e.off + e.len == total))
      | [] => true)
    && (!(leAt img 6 2).testBit 2 || tys.contains 8)
    && (if part then !tys.contains 7 else [1, 2, 3, 4, 5].all tys.contains)

/-- The bytes of a section. -/
def sectBytes (img : List Byte) (e : Sect) : List Byte := (img.drop e.off).take e.len

/-- Offset of the SIGN section, or the end of the image. -/
def signAt (img : List Byte) : Nat :=
  ((firstWhere (fun e : Sect => e.ty == 8) (directory img)).map fun e => e.off).getD (leAt img 16 4)

/-- DIGEST as R379 computes it. -/
def digestOf (img : List Byte) : List Byte := sha384 (img.take 32 ++ (img.take (signAt img)).drop 80)

/-- The fused key hash. -/
def keyHash (s : State) : List Byte := (upto 12).flatMap fun k => leBytes 4 (regGet s (Reg.CFG_KEY_HASH k)).toNat

/-- Step 5: the SIGN section's key is the fused one, and its signature is valid over DIGEST. -/
def signatureOk (s : State) (img : List Byte) : Bool :=
  let sg := img.drop (signAt img)
  let num := fun (k : Nat) => beVal ((sg.drop (48 * k)).take 48)
  (leAt img 6 2).testBit 2 && sha384 (sg.take 96) == keyHash s
    && ecdsaValid (num 0) (num 1) (num 2) (num 3) (beVal ((img.drop 32).take 48))

/-- Steps 1 to 6. [DEDUCED, log 86] -/
def checkImage (s : State) (img : List Byte) : Option ImgBad := firstBad [
  fun _ => badIf (!headerOk (img.take 80) || decide (img.length < leAt img 16 4)) 1,
  fun _ => badIf (!directoryOk img) 2,
  fun _ => (firstWhere (fun e => crc32c (sectBytes img e) != e.crc) (directory img)).map fun e => ⟨3, e.ty, e.off⟩,
  fun _ => badIf (digestOf img != (img.drop 32).take 48) 4,
  fun _ => badIf (((leAt img 6 2).testBit 2 || regBit s Reg.CFG_FUSE 0) && !signatureOk s img) 5,
  fun _ => badIf (!(leAt img 6 2).testBit 0 && regBit s Reg.CFG_FUSE 1
    && seqNewer (regGet s Reg.CFG_SEQ_FLOOR).toNat (leAt img 8 4)) 6]

/-! ## Records (R378) -/

/-- The length of a record of a section: fixed, a ROUTE's own, or none for a type that the section does not hold.
[DEDUCED, log 87] -/
def recLenOk (ty rt len : Nat) (body : List Byte) : Bool :=
  match ty, rt with
  | 1, 0x0101 => len == 16
  | 1, 0x0102 => len == 8
  | 1, 0x0103 => len == 12
  | 1, 0x0104 => len == 16
  | 1, 0x0105 => len == 12
  | 2, 0x0201 => len == 16 + 4 * ceilDiv (leAt body 8 1) 16
  | 3, 0x0301 => len == 12
  | 4, 0x0401 => len == 32
  | 5, 0x0501 => len == 16
  | 6, 0x0601 => len == 12
  | 6, 0x0602 => decide (12 ≤ len)
  | 7, 0x0701 => decide (12 ≤ len)
  | 7, 0x0702 => len == 20
  | _, _ => false

/-- The records of a section from an image offset on; the offset of the first that is malformed. -/
def readRecs (ty : Nat) : Nat → Nat → List Byte → Except Nat (List ImgRec)
  | _, _, [] => .ok []
  | 0, at', _ => .error at'
  | fuel + 1, at', bs =>
    let len := leAt bs 2 2
    let body := (bs.take len).drop 4
    if bs.length < len ∨ len < 4 ∨ len % 4 ≠ 0 ∨ !recLenOk ty (leAt bs 0 2) len body then .error at'
    else match readRecs ty fuel (at' + len) (bs.drop len) with
      | .ok rs => .ok (⟨ty, at', leAt bs 0 2, body⟩ :: rs)
      | .error e => .error e

/-- The records of sections. -/
def readSects (img : List Byte) : List Sect → Except ImgBad (List ImgRec)
  | [] => .ok []
  | e :: es =>
    if e.ty = 8 then readSects img es
    else match readRecs e.ty (e.len / 4 + 1) e.off (sectBytes img e) with
      | .error at' => .error ⟨7, e.ty, at'⟩
      | .ok rs => match readSects img es with
        | .ok rest => .ok (rs ++ rest)
        | .error b => .error b

/-- The image with its records. -/
def readImage (img : List Byte) : Except ImgBad Image :=
  match readSects img (directory img) with
  | .error b => .error b
  | .ok rs => .ok {
      seq := leAt img 8 4, base := leAt img 12 4, partial' := (leAt img 6 2).testBit 0
      inplaceOk := (leAt img 6 2).testBit 1, recs := rs }

/-- Two records of a list have the same key; the later one is found. [DEDUCED, log 87] -/
def repeated (key : ImgRec → Nat) : List Nat → List ImgRec → Option ImgRec
  | _, [] => none
  | seen, r :: rs => if seen.contains (key r) then some r else repeated key (key r :: seen) rs

/-- A WRITE record's target is a register that WRITE records serve. -/
def writeTarget (off : Nat) : Bool := decide (off < 0x1400000) && (descAt off).isSome

/-- A WRITE record writes an invalid zero (R13). -/
def writesZero (r : ImgRec) : Bool := match descAt (recOff r) with
  | some d => d.fields.any fun f => f.zeroBad && f.acc != .ro && fld (recVal r) f.hi f.lo == 0
  | none => false

/-- The unit of an address lies in a partition of the image with an owner other than FREE, HOST and CORE.
[DEDUCED, log 93] -/
def fillUnit (parts : List ImgRec) (a : Nat) : Bool := match unitOf a with
  | none => false
  | some (k, u) => parts.any fun p =>
      (recUnits p).1 == k && decide ((recUnits p).2.1 ≤ u ∧ u < (recUnits p).2.1 + (recUnits p).2.2)
        && !([0, 6, 7].contains (recOwner p / 2 ^ 12))

/-- Every unit of a range does. -/
def fillUnits (parts : List ImgRec) : Nat → Nat → Nat → Bool
  | 0, _, _ => false
  | fuel + 1, a, n =>
    let step := if a < 0x10000000 then 0x1000 - a % 0x1000 else 0x10000 - a % 0x10000
    fillUnit parts a && (decide (n ≤ step) || fillUnits parts fuel (a + step) (n - step))

/-- An instance record names a kind of R49, an owner type, and an owner that exists. [DEDUCED, log 87] -/
def instRecOk (r : ImgRec) : Bool :=
  let i := (recInst r).2
  decide ((recInst r).1 < 2176) && kindTiles i.kind != 0
    && (match i.owner with
      | 1 => decide (i.id < 256)
      | 2 => decide (i.id < 16)
      | 3 => decide (i.id < 2)
      | 4 => decide (i.id < 256)
      | _ => false)

/-- What makes a record malformed beyond its length. [DEDUCED, log 86] -/
def recordBad (i : Image) : Option ImgBad :=
  let parts := i.sect 5
  firstBad [
    fun _ => badRec (i.ofType 0x0101) (fun r => !instRecOk r) 7,
    fun _ => (repeated (fun r => recAt r 4 2) [] (i.ofType 0x0101)).map fun r => ⟨7, 1, r.at'⟩,
    fun _ => badRec (i.ofType 0x0104) (fun r => decide (1023 < recAt r 4 2 ∨ 3 < recAt r 6 1 ∨ 1 < recAt r 7 1)) 7,
    fun _ => (repeated (fun r => recAt r 4 2) [] (i.ofType 0x0201)).map fun r => ⟨7, 2, r.at'⟩,
    fun _ => badRec (i.sect 3) (fun r => decide (127 < recLane r ∨ 2 < recAt r 7 1)
      || (i.sect 3).any fun x => recOctet x == recOctet r && recAt x 7 1 != recAt r 7 1) 7,
    fun _ => badRec (i.sect 4) (fun r => ptAbsent (recAt r 4 2) || decide (0xFFF < recAt r 4 2)) 7,
    fun _ => badRec parts (fun r => decide (1 < recAt r 4 1)) 7,
    fun _ => badRec (i.ofType 0x0601) (fun r => !writeTarget (recOff r)) 7,
    fun _ => badRec (i.ofType 0x0602) (fun r => !inMap (recAddr r) (recData r).length
      || (!(recData r).isEmpty && !fillUnits parts ((recData r).length / 0x1000 + 2) (recAddr r) (recData r).length)) 7,
    fun _ => badRec (i.ofType 0x0701) (fun r => !inMap (recAddr r) (recData r).length
      || decide (recAddr r < 0x20000000 ∨ 0x20400000 ≤ recAddr r)) 7,
    fun _ => badRec (i.ofType 0x0601) writesZero 11,
    fun _ => badRec (i.sect 4) (fun r => recAt r 12 4 % 256 == 0) 11]

/-! ## MEMORY (R292, R299) -/

/-- Units of two partitions overlap. -/
def unitsMeet (a b : Nat × Nat × Nat) : Bool :=
  a.1 == b.1 && decide (a.2.1 < b.2.1 + b.2.2 ∧ b.2.1 < a.2.1 + a.2.2)

/-- A partition overlaps a later one. -/
def partsOverlap : List ImgRec → Option ImgRec
  | [] => none
  | r :: rs => (firstWhere (fun x => unitsMeet (recUnits r) (recUnits x)) rs).orElse fun _ => partsOverlap rs

/-- Blocks of an owner. -/
def blocksOf (s : State) (o : Nat) : Nat := (s.store.blocks.filter fun e => e.2 == o).length

/-- Blocks that RESERVED 0 needs for the valid partner entries. -/
def storageNeed (s : State) : Nat := ceilDiv (sumOf (fun p => if ptValid s p then
  32 * (regFld s (Reg.PT_GRANT01 p) 15 0 + regFld s (Reg.PT_GRANT01 p) 31 16) + 16 * 288 else 0) (upto 4096)) 4096

/-- The most columns, and the most bands, that a packet of a tap can hold (R192, R193, R203). [DEDUCED, log 87] -/
def mostColumns (s : State) (t : Nat) : Nat :=
  let n := regFld s (Reg.OUT_DECL_X t) 15 0
  if tapScaled s t then ceilDiv (n * 4096) (max 1 (regFld s (Reg.OUT_DECL_X t) 31 16)) else n
def mostBands (s : State) (p : Nat) : Nat :=
  if hasInst s 0x06 1 p then ((upto 4).map fun b => regFld s (Reg.BK_CTRL p b) 6 4).foldl max 0 else inBands s p

/-- Bytes of the largest payload of a tap: a line, or a frame close (R197, R198). -/
def largestLine (s : State) (t : Nat) : Nat :=
  let code := opackCode (regFld s (Reg.OUT_PACK t) 3 0)
  let samples := mostColumns s t * min 4 (mostBands s (t / 4))
  max 64 (32 + ceilDiv (ceilDiv samples (max 1 (packGroup code)) * packBytes code) 8 * 8)

/-- Bytes of the largest payload of a bar's comparator: a record, or a crop where it has DEFECT_CROP (R259, R261). -/
def largestRecord (s : State) (b : Nat) : Nat :=
  if hasInst s 0x1D 2 b then
    let w := regGet s (Reg.CMP_BAR_CROP_MAX b)
    max 64 (32 + min (fld w 31 16) (srcWidth s (barSource s b)) * min (fld w 15 0) (regFld s (Reg.CMP_BAR_CROP_DEPTH b) 15 0)
      * barBands s b)
  else 64

/-- The payload sizes of the producers of a queue: taps, bars, marks of pipelines and of bars, and the journal's notices. -/
def payloadsOf (s : State) (q : Nat) : List Nat :=
  (((upto 1024).filter fun t => regBit s (Reg.OUT_TAP_CTRL t) 28 && queueOf s t == some q).map (largestLine s))
    ++ (((upto 16).filter fun b => regBit s (Reg.CMP_BAR_CTRL b) 31 && queueOf s (0x1000 + b) == some q).map (largestRecord s))
    ++ (if (upto 8).any (fun j => regBit s (Reg.SEI_PM_CTRL j) 31 && queueOf s (0x2000 + j) == some q)
      || (upto 16).any (fun b => regBit s (Reg.SEI_BAR_CTRL b) 31 && queueOf s (0x3000 + 64 * b) == some q) then [40] else [])
    ++ (if regFld s Reg.JRN_EXTENTS 28 0 != 0 && queueOf s 0x8000 == some q then [48] else [])

/-- A ring is smaller than twice the largest padded packet that its producers can form (R299). [DEDUCED, log 87] -/
def ringSmall (s : State) (q : Nat) : Bool :=
  match payloadsOf s q with
  | [] => false
  | l => decide (rqSize s q < 2 * padded (8 + l.foldl max 0))

/-- A result-queue ring in DRAM that breaks the size rules (R292, R299). -/
def ringBad (s : State) (q : Nat) : Bool :=
  let n := regFld s (Reg.MEM_RQ_SIZE q) 20 0
  rqDram s q && (!decide (16 ≤ n ∧ n ≤ 2 ^ 20) || ringSmall s q)

/-- The rules of the MEMORY section on the state that would result. [DEDUCED, log 87] -/
def memoryBad (i : Image) (t : State) : Option ImgBad :=
  let parts := i.sect 5
  firstBad [
    fun _ => badRec parts (fun r => decide (unitCount (recUnits r).1 < (recUnits r).2.1 + (recUnits r).2.2)) 10,
    fun _ => badRec parts (fun r => decide (9 ≤ recOwner r / 2 ^ 12) || recOwner r == 0x8003) 10,
    fun _ => (partsOverlap parts).map fun r => ⟨10, 5, r.at'⟩,
    fun _ => badIf (decide (blocksOf t 0x8000 < storageNeed t)) 10 5,
    fun _ => badIf (decide (blocksOf t 0x8001 < 64 ∨ blocksOf t 0x8002 < 64)) 10 5,
    fun _ => badIf ((upto 64).any (ringBad t)) 10 6]

/-! ## STRUCT and ROUTE (R48, R53, R55) -/

/-- The tiles of an instance lie in one region and class. -/
def oneArea (i : Inst) : Bool :=
  decide (i.first + instTiles i ≤ 2176) && tileArea i.first == tileArea (i.first + instTiles i - 1)

/-- Instances that share a logical tile. -/
def tilesMeet (a b : Inst) : Bool := decide (a.first < b.first + instTiles b ∧ b.first < a.first + instTiles a)

/-- Some instance of a list shares a tile with a later one. -/
def anyMeet : List (Nat × Inst) → Bool
  | [] => false
  | e :: r => r.any (fun x => tilesMeet e.2 x.2) || anyMeet r

/-- The declared input rate exceeds 95 % of the throughput. -/
def tooFast (s : State) (i : Inst) : Bool :=
  decide (95 * kindRate i.kind * (if tileArea i.first = 16 then s.erg.omin else s.erg.fmin) < 100 * i.rate)

/-- A watch pipeline breaks R48: a tile outside the island, or a camera on a dense lane. -/
def watchBad (s : State) (p : Nat) : Bool :=
  (s.erg.insts.any fun e => e.2.id == p && (e.2.owner == 1 || e.2.owner == 4) && tileArea e.2.first != 16)
    || (pipeDeclared s p && decide (ptLane s (regFld s (Reg.CAP_CTRL p) 23 12) < 112))

/-- The capacity rules over the instances and routes of a state. -/
def capacityBad (s : State) : Option ImgBad :=
  let is := s.erg.insts
  firstBad [
    fun _ => badIf (is.any fun e => !oneArea e.2) 8 1,
    fun _ => badIf (anyMeet is) 8 1,
    fun _ => badIf (is.any fun e => decide (32 < kindMem e.2.kind)) 8 1,
    fun _ => badIf (is.any fun e => ((kindOuts e.2.kind).any fun n =>
        decide (n < (s.erg.routes.filter fun r => r.2.src == e.1).length))
      || (kindIns e.2.kind).any fun n => decide (n < (s.erg.routes.filter fun r => r.2.dst == e.1).length)) 8 2,
    fun _ => badIf (is.any fun e => tileArea e.2.first == 16 && !kindOasis e.2.kind) 8 1,
    fun _ => badIf (s.erg.watch.any (watchBad s)) 8 1,
    fun _ => badIf (decide (1600 < s.erg.fmin ∨ 800 < s.erg.omin)) 8 1,
    fun _ => badIf (is.any fun e => tooFast s e.2) 8 1,
    fun _ => badIf (decide (80 * 26210000 < 100 * sumOf (fun e => kindPool e.2.kind * e.2.rate) is)) 8 1,
    fun _ => badIf (decide (3 < trackPeak (usedLinks s))) 8 2]

/-- A route names an instance that does not exist. [DESIGN CHOICE, log 90] -/
def routeBad (i : Image) (s : State) (fit : RouteFit) : Option ImgBad := firstBad [
  fun _ => badRec (i.sect 2) (fun r =>
    (mget? (recRoute r).2.src s.erg.insts).isNone || (mget? (recRoute r).2.dst s.erg.insts).isNone) 9,
  fun _ => match fit with
    | .ok _ => none
    | .fail n => some ⟨9, 2, ((firstWhere (fun r => recAt r 4 2 == n.toNat) (i.sect 2)).map fun r => r.at').getD 0⟩]

/-! ## The rules of the other chapters (reason 12) -/

/-- A LANE record breaks R70, R71 or the BOND rule of R75. [DEDUCED, log 88] -/
def laneBad (t : State) (r : ImgRec) : Bool :=
  let n := recLane r
  let lean := decide (112 ≤ n)
  let cable := recAt r 5 1 % 16
  let pre := sint 8 (recAt r 8 1)
  let post := sint 8 (recAt r 9 1)
  let bond := recAt r 6 1 % 4
  let w := 2 ^ bond
  decide (4 < cable) || (lean && cable != 0 && cable != 3)
    || !decide ((if lean then -8 else -12) ≤ pre ∧ pre ≤ 0) || !decide ((if lean then 0 else -24) ≤ post ∧ post ≤ 0)
    || bond == 3 || (upFrom (n / w * w) w).any fun m => regFld t (Reg.LNE_LN_CTRL m) 11 10 != bond

/-- More than 32 valid entries lie on one group (R87). -/
def groupFull (t : State) : Bool :=
  let ls := ((upto 4096).filter (ptValid t)).map (ptLane t)
  ls.any fun l => decide (32 < (ls.filter (· == l)).length)

/-- A pipeline breaks R155 or R157, or its packing is reserved. -/
def pipeBad (t : State) (p : Nat) : Bool :=
  let px := regFld t (Reg.CAP_WIDTH p) 15 0
  let act := regGet t (Reg.CAP_ACT p)
  let dark := regGet t (Reg.CAP_DARK p)
  let a0 := fld act 15 0
  let d0 := fld dark 15 0
  !pipeDeclared t p
    || (decide (4 < inBands t p) && !(hasInst t 0x06 1 p && regBit t (Reg.CAP_CTRL p) 5))
    || decide (px < a0 + fld act 31 16) || decide (px < d0 + fld dark 31 16)
    || decide (0 < fld dark 31 16 ∧ a0 < d0 + fld dark 31 16 ∧ d0 < a0 + fld act 31 16)
    || decide (4 < regFld t (Reg.CAP_FMT p) 3 0)

/-- Instances of a kind that a pipeline has, and its declared taps under a condition. -/
def pipeInsts (t : State) (p kind : Nat) : Nat :=
  (t.erg.insts.filter fun e => e.2.kind == kind && e.2.id == p && (e.2.owner == 1 || e.2.owner == 4) && !e.2.shadow).length
def pipeTaps (t : State) (p : Nat) (c : Nat → Bool) : Nat :=
  ((upFrom (4 * p) 4).filter fun k => regBit t (Reg.OUT_TAP_CTRL k) 28 && c k).length

/-- Instances of one kind at least, and of no other. -/
def onlyKind (kind : Nat) (l : List (Nat × Inst)) : Bool := !l.isEmpty && l.all fun e => e.2.kind == kind

/-- The instances ahead of the PACK instances of one tap are not CROP, or CROP and then SCALE (R189). -/
def chainBad (t : State) (packs : List (Nat × Inst)) : Bool := !(packs.all fun e => onlyKind 0x08 (feeders t e.1)
  || (onlyKind 0x09 (feeders t e.1) && (feeders t e.1).all fun f => onlyKind 0x08 (feeders t f.1)))
  || decide (2 ≤ ((feedersOf t packs).map fun e => e.2.kind).eraseDups.length)

/-- The taps of a pipeline break R189: a packing tap without CROP or PACK or with its stages in another order, a stage that
belongs to no tap, or SCALE and PACK ahead of a SEIF or CMP destination. [DEDUCED, log 88, 137] -/
def tapsBad (t : State) (p : Nat) : Bool :=
  let out := fun k => decide (tapDest t k < 2)
  (packGroups t p).length != pipeTaps t p out || (packGroups t p).any (chainBad t)
    || (ownInsts t 0x09 1 p).any (fun e => !onlyKind 0x0A (feeds t e.1))
    || (ownInsts t 0x08 1 p).any (fun e => (feeds t e.1).any (fun f => f.2.kind == 0x09 || f.2.kind == 0x0A)
      && decide (2 ≤ ((feeds t e.1).map fun f => f.2.kind).eraseDups.length))
    || decide ((tapsOf t p false).length < (routeCrops t p).length)
    || (tapsOf t p true).any (fun k => regGet t (Reg.OUT_CROP k) == 0#32
      || (tapScaled t k && regGet t (Reg.OUT_SCALE k) == 0#32))

/-- The camera of a stitched or compared pipeline runs in time mode or above 1,600 LPI (R206, R232). -/
def notStitched (t : State) (p : Nat) : Bool :=
  regBit t (Reg.TIM_TRG_CTRL p) 30 || decide (1600 < regFld t (Reg.TIM_TRG_CTRL p) 15 0)

/-- A slot breaks R206 or R209: SX outside 0.5 to 2.0, or no column covered under its nominal model. -/
def slotBad (t : State) (b k : Nat) : Bool :=
  let m := nominal t b k
  notStitched t (slotPipe t b k) || !decide (2 ^ 27 ≤ m.sx ∧ m.sx ≤ 2 ^ 29)
    || decide (coverHi m (regFld t (Reg.SEI_CAM_CTRL b k) 15 0) (widthOf t b) ≤ coverLo m)

/-- A SEIF_BLEND instance takes input from more than 3 slots. [DEDUCED, log 88] -/
def blendBad (t : State) : Bool := t.erg.insts.any fun e => e.2.kind == 0x11 && decide (3 < (t.erg.routes.filter fun r =>
  r.2.dst == e.1 && ((mget? r.2.src t.erg.insts).any fun i => i.kind == 0x10)).length)

/-- A pipeline with a SEIF tap breaks R206, whether or not a slot names it. -/
def seifTapBad (t : State) (p : Nat) : Bool := decide (0 < pipeTaps t p fun k => tapDest t k == 2) && notStitched t p

/-- A bar of Seif breaks R206 or R212. -/
def seifBad (t : State) (b : Nat) : Bool := regBit t (Reg.SEI_BAR_CTRL b) 31
  && ((barSlots t b).any (slotBad t b) || !((barSlots t b).all fun k => spanOk t b k (regGet t (Reg.SEI_CAM_LIM_Y b k))))

/-- The pipelines of a bar: of its slots, or of its CMP tap. -/
def barPipes (t : State) (b : Nat) : List Nat :=
  if regBit t (Reg.SEI_BAR_CTRL b) 31 then (barSlots t b).map (slotPipe t b)
  else ((cmpTap t b).map fun k => k / 4).toList

/-- A bar that compares breaks R232. -/
def barBad (t : State) (b : Nat) : Bool := regBit t (Reg.CMP_BAR_CTRL b) 31 && (
  let width := if regBit t (Reg.SEI_BAR_CTRL b) 31 then widthOf t b
    else ((cmpTap t b).map fun k =>
      if regGet t (Reg.OUT_CROP k) = 0#32 then actCount t (k / 4) else regFld t (Reg.OUT_CROP k) 31 16).getD 0
  let lim := regGet t (Reg.CMP_BAR_LIM b)
  let cfg := regGet t (Reg.CMP_BAR_LUT_CFG b)
  decide (7 < barSource t b) || srcWidth t (barSource t b) != width
    || (upto (barBands t b)).any (fun j => decide (fld cfg 27 24 ≤ fld cfg (4 * j + 2) (4 * j)))
    || (barPipes t b).any (fun p => barBands t b != regFld t (Reg.BK_CTRL p (regFld t (Reg.CAP_SW p) 1 0)) 6 4)
    || decide ((rngA t b - 1) * 256 < fld lim 31 16 ∨ (rngCX t b - 1) * 256 < fld lim 15 0)
    || (!regBit t (Reg.SEI_BAR_CTRL b) 31 && (barPipes t b).any (notStitched t)))

/-- A reference source breaks the ring-size rule of R239. -/
def sourceBad (t : State) (i : Nat) : Bool := regBit t (Reg.CMP_RS_CTRL i) 31 && (match srcBars t i with
  | [] => false
  | b :: bs =>
    let dist := (b :: bs).map (distOf t)
    let far := dist.foldl max (distOf t b)
    let near := dist.foldl min (distOf t b)
    let spread := ceilDiv ((far - near).toNat * cmpDpi t b) 25400
    let a := ((b :: bs).map (rngA t)).foldl max 0
    let bb := ((b :: bs).map (rngB t)).foldl max 0
    decide (ringTiles t i < ceilDiv (spread + a + bb + 1) (tileRows t i) + regFld t (Reg.CMP_RS_CTRL i) 15 8 + 1))

/-- A module breaks R264. -/
def modBad (t : State) (ms : List Nat) (m : Nat) : Bool :=
  let n := modCount t m
  let d := modSideOf t m
  let desc := (partnerOf t (modPartnerOf t m)).desc
  decide (1048576 < modBase t m + n) || n == 0 || decide (8192 < n) || n % (max 1 (stripePhases t d)) != 0
    || ms.any (fun x => x != m && decide (modBase t x < modBase t m + n ∧ modBase t m < modBase t x + modCount t x))
    || (!desc.isEmpty && leAt desc 44 4 != n)

/-- Instances of a kind that a side has. -/
def sideInsts (t : State) (d kind : Nat) : Nat :=
  (t.erg.insts.filter fun e => e.2.kind == kind && e.2.owner == 3 && e.2.id == d && !e.2.shadow).length

/-- A side breaks R264 or R286. [DEDUCED, log 88] -/
def sideBad (t : State) (d : Nat) : Bool := sideValid t d && (
  let b := sideBar t d
  let slices := (barSlices t b).length
  let f := max 1 t.erg.fmin
  let lead := ((sideMods t d).map fun m => leAt (partnerOf t (modPartnerOf t m)).desc 32 4).foldl max 0
  let budget : Int := ((regFld t Reg.TIM_CYC_CTRL 9 0 * 1000 : Nat) : Int) - (regGet t (Reg.NZL_SD_EARLY d)).toNat
    - regFld t (Reg.NZL_SD_CLOSE d) 15 0 - 250
  !regBit t (Reg.CMP_BAR_CTRL b) 29 || decide (sideInsts t d 0x20 < slices ∨ sideInsts t d 0x21 < slices)
    || decide (budget * ((8000 * f : Nat) : Int) - ((lead * 8 * f + 1000 * sideNozzles t d : Nat) : Int) < 0))

/-- One channel of the Mover is bound to two blocks (R361). [DEDUCED, log 88] -/
def boundTwice (t : State) : Bool :=
  regFld t Reg.JRN_EXTENTS 28 0 != 0 && (upto 8).any fun i =>
    regBit t (Reg.CMP_RS_CTRL i) 31 && regFld t (Reg.CMP_RS_CTRL i) 23 18 == regFld t Reg.JRN_STAGE_CFG 13 8

/-- A zero that is invalid in the mode that results (R13): HALFW in a polynomial mode, a generator's LPI or PERIOD_NS, the
job encoder's PM_PER_COUNT, a strobe's WIDTH_NS. [DESIGN CHOICE, log 15] -/
def zeroBadIn (t : State) (r : ImgRec) : Bool :=
  let off := recOff r
  if Reg.CAP_CTRL 0 ≤ off ∧ off < Reg.CAP_CTRL 256 then
    let p := (off - Reg.CAP_CTRL 0) / 0x400
    (upto 4).any fun b =>
      decide (2 ≤ regFld t (Reg.BK_CTRL p b) 3 2) && regFld t (Reg.BK_LENS_C p b) 31 16 == 0
  else match regIdx (Reg.TIM_ENC_SCALE 0) 4 4 off, regIdx (Reg.STB_WIDTH 0) 0x20 8 off with
    | some e, _ => fld (recVal r) 30 0 == 0 && regFld t Reg.TIM_JOB 1 0 == e
    | none, some k => recVal r == 0#32 && !regBit t (Reg.STB_CTRL k) 30
    | none, none =>
      if Reg.TIM_TRG_CTRL 0 ≤ off ∧ off < Reg.TIM_TRG_CTRL 256 ∧ off % 0x20 ≤ 4 then
        let c := regGet t (off / 0x20 * 0x20)
        if bit c 30 then regGet t (off / 0x20 * 0x20 + 4) == 0#32 else fld c 15 0 == 0
      else false

/-- A reserved packing code that a WRITE record writes (R160, R197). -/
def packBad (r : ImgRec) : Bool :=
  let off := recOff r
  ((regIdx (Reg.CAP_FMT 0) 0x400 256 off).isSome && decide (4 < fld (recVal r) 3 0))
    || ((regIdx (Reg.OUT_PACK 0) 0x100 1024 off).isSome && decide (3 < fld (recVal r) 3 0))

/-- Pipelines that the structure names. -/
def pipesOf (t : State) : List Nat := (upto 256).filter fun p =>
  t.erg.insts.any fun e => e.2.id == p && (e.2.owner == 1 || e.2.owner == 4) && !e.2.shadow

/-- The rules of the other chapters, on the state that would result. -/
def ruleBad (i : Image) (t : State) : Option ImgBad := firstBad [
  fun _ => badRec (i.ofType 0x0601) (zeroBadIn t) 11,
  fun _ => badRec (i.sect 3) (laneBad t) 12,
  fun _ => badIf (groupFull t) 12 4,
  fun _ => badRec (i.ofType 0x0601) packBad 12,
  fun _ => badIf ((pipesOf t).any fun p => pipeBad t p || tapsBad t p) 12 1,
  fun _ => badRec (i.ofType 0x0104) (fun r => !pipeDeclared t (recAt r 4 2 / 4)) 12,
  fun _ => badRec (i.ofType 0x0104) (fun r => seifTapBad t (recAt r 4 2 / 4)) 12,
  fun _ => badIf ((pipesOf t).any (seifTapBad t)) 12 1,
  fun _ => badIf ((upto 64).any fun q => !rqDram t q && ringSmall t q) 12 6,
  fun _ => badIf (decide (512 < tapsEnabled t)) 12 6,
  fun _ => badIf (blendBad t) 12 2,
  fun _ => badIf ((upto 16).any (seifBad t)) 12 6,
  fun _ => badIf ((upto 16).any (barBad t)) 12 6,
  fun _ => badIf ((upto 8).any (sourceBad t)) 12 6,
  fun _ => badIf (let ms := (upto 1024).filter (modValid t); ms.any (modBad t ms)) 12 6,
  fun _ => badIf ((upto 2).any (sideBad t)) 12 6,
  fun _ => badIf (boundTwice t) 12 6]

end Sys2Proof.Machine
end

