-- ==== Sys2Proof/Machine/Image.lean ====
section
/-! DEFINITION. Applying a full image, at boot or from device memory (R384, R386 to R388), and building the shadow of a live
change (R390, R394, R395). -/
namespace Sys2Proof.Machine

/-! ## A full image (R388) -/

/-- The sections of a full image in their order: MEMORY, LANES, PARTNERS, STRUCT, ROUTE, PARAMS, FIRMWARE. -/
def applyImage (i : Image) : Eff := chain [
  modStore fun m => { m with blocks := [], granules := [] },
  each (i.sect 5) applyPartition,
  applyLanes (i.sect 3),
  each (i.sect 4) applyPartner,
  modErg fun e => { e with insts := (i.ofType 0x0101).foldl (fun l r => mput (recInst r).1 (recInst r).2 l) [] },
  each (i.sect 1) applyStruct,
  modErg fun e => { e with routes := (i.sect 2).foldl (fun l r => mput (recRoute r).1 (recRoute r).2 l) [] },
  each (i.sect 6) applyParam,
  each (i.sect 7) applyFirmware]

/-- The bank that CAP_SW.BANK holds is ACTIVE, the others are FREE; TONE has its tables (R179, R181). -/
def bankStart (p : Nat) : Eff := rd fun s =>
  let b := regFld s (Reg.CAP_SW p) 1 0
  chain [
    modPipe p fun q => { q with banks := (upto 4).map fun k => if k = b then 2 else 0 },
    copyTone p b]

/-- A ledger entry at load: UNMEASURED, or its seed (R268). [DEDUCED, log 97] -/
def ledgerStart (fills : List ImgRec) (n : Nat) : Eff := rd fun s =>
  let a := ledgerAt s n
  let seeded := fills.any fun r => decide (recAddr r ≤ a ∧ a + 8 ≤ recAddr r + (recData r).length)
  let e := ledgerGet s n
  ledgerPut n (ledgerOf (if seeded then (e.st % 7) * 2 ^ 61 + b2n e.pin * 2 ^ 60 + e.corr else 0x0200))

/-- The control registers that hold the LOCK bits of the blocks, CFG's apart (R388). -/
def lockRegs : List Nat := [Reg.HGW_CTRL, Reg.HAM_CTRL, Reg.CCO_CTRL, Reg.BCH_CTRL, Reg.LNE_CTRL, Reg.PLK_CTRL, Reg.TIM_CTRL,
  Reg.ERG_CTRL, Reg.CAP_GCTRL, Reg.OUT_GCTRL, Reg.SEI_GCTRL, Reg.CMP_GCTRL, Reg.NZL_CTRL, Reg.MEM_CTRL, Reg.JRN_CTRL,
  Reg.MOV_CTRL, Reg.PER_CTRL, Reg.EVT_CTRL, Reg.CVU_CTRL]

/-- The event queue is placed in its partition: held records are written first, and QUEUE_RESUMED follows lost ones (R487).
[DEDUCED, log 97] -/
def placeQueue (parts : List ImgRec) : Eff := each ((parts.filter fun r => recOwner r == 0x8001).take 1) fun r =>
  let a := unitBase (recUnits r).1 (recUnits r).2.1
  chain [
    setReg Reg.EVT_Q_BASE_LO (word a),
    setReg Reg.EVT_Q_BASE_HI (word (a / 2 ^ 32)),
    setReg Reg.EVT_Q_SIZE (word (unitBytes (recUnits r).1 * (recUnits r).2.2 / 32)),
    rd fun s => chain [
      modEvt fun e => { e with placed := true, held := [], ring := [], head := 0, tail := 0 },
      each s.evt.held appendRec],
    resumeQueue]

/-- The channels that the reference sources and the journal bind (R361). [DEDUCED, log 78] -/
def bindChannels : Eff := rd fun s => each
  ((((upto 8).filter fun i => regBit s (Reg.CMP_RS_CTRL i) 31).map fun i => regFld s (Reg.CMP_RS_CTRL i) 23 18)
    ++ (if regFld s Reg.JRN_EXTENTS 28 0 = 0 then [] else [regFld s Reg.JRN_STAGE_CFG 13 8]))
  fun c => putBit (Reg.MOV_CH_CTRL c) 28 true

/-- What follows the sections of a full image. [DEDUCED, log 94, 95, 97] -/
def finishImage (i : Image) (slot : Nat) (added : List (BitVec 16 × Fin 7)) : Eff := chain [
  rd fun s => each (pipesOf s) bankStart,
  rd fun s => each ((upto 16).filter fun b => regBit s (Reg.CMP_BAR_CTRL b) 31) loadLut,
  rd fun s => each (((upto 1024).filter (modValid s)).flatMap fun m => upFrom (modBase s m) (modCount s m))
    (ledgerStart (i.ofType 0x0602)),
  rd fun s => when (regFld s Reg.JRN_EXTENTS 28 0 != 0)
    (act (.clearMem (indexAt s 0) (indexAt s 0 + 8 * regFld s Reg.JRN_EXTENTS 28 0))),
  bindChannels,
  stretchAll added,
  placeAll,
  each lockRegs fun r => putBit r 31 true,
  modErg fun e => { e with seq := i.seq, valid := true },
  setReg Reg.CFG_SEQ (word i.seq),
  modCfg fun c => { c with st := 4, loading := false, hostLoad := false, full := true, bootSlot := slot },
  modStore fun m => { m with image := none },
  putBit Reg.CFG_CTRL 2 false,
  placeQueue (i.sect 5),
  each (i.ofType 0x0702) fun r => each ((upto 4).filter fun n => recAt r (4 + 4 * n) 4 != 0) fun n => rd fun s =>
    coreStart n (coreEntry s n),
  countUp Reg.CFG_LOADS 1,
  raise 0x0210 0xFFFF notice i.seq slot,
  journalMarkSeq 1 i.seq i.seq,
  rateCompare,
  clockShort]

/-- The added hops of routes that resolve. [DESIGN CHOICE, log 90] -/
def fitAdded : RouteFit → List (BitVec 16 × Fin 7)
  | .ok added => added
  | .fail _ => []

/-- The check of a full image, all steps of R380; `wrong` is the reason for a partial image. [DEDUCED, log 86] -/
def checkFull (s : State) (img : List Byte) (readable : Bool) (fit : RouteFit) (wrong : Nat) : Except ImgBad Image :=
  if !readable then .error ⟨22, 0, 0⟩
  else match checkImage s img with
    | some b => .error b
    | none =>
      if (leAt img 6 2).testBit 0 then .error ⟨wrong, 0, 0⟩
      else if s.erg.valid then .error ⟨15, 0, 0⟩
      else match readImage img with
        | .error b => .error b
        | .ok i => match recordBad i with
          | some b => .error b
          | none =>
            let t := go (applyImage i) s
            match firstBad [fun _ => memoryBad i t, fun _ => routeBad i t fit, fun _ => capacityBad t,
                fun _ => ruleBad i t] with
            | some b => .error b
            | none => .ok i

/-! ## Boot and host load (R384, R386, R387) -/

/-- Flash address of a slot. -/
def slotBase (slot : Nat) : Nat := if slot = 1 then 0 else 0x4000000

/-- The header of a slot, and the image in it. -/
def slotHeader (s : State) (slot : Nat) : List Byte := flashBytes s (slotBase slot) 80
def slotImage (s : State) (slot : Nat) : List Byte := flashBytes s (slotBase slot) (leAt (slotHeader s slot) 16 4)

/-- The check of a slot. [DEDUCED, log 89] -/
def checkSlot (s : State) (slot : Nat) (c : Candidate) : Except ImgBad Image :=
  if (flashCap s).isNone then .error ⟨22, 0, 0⟩
  else if !headerOk (slotHeader s slot) then .error ⟨1, 0, 0⟩
  else checkFull s (slotImage s slot) c.readable c.fit 21

/-- A slot that passes is applied; one that fails raises BOOT_SLOT_BAD, and the next is tried. `bad` holds the reasons so
far: A in bits [7:0], B in bits [15:8]. -/
def bootSlots : List (Nat × Candidate) → Nat → Eff
  | [], bad => rd fun s => chain [
      modCfg fun c => { c with st := 5, loading := false },
      raise 0x0213 0xFFFF (if s.cfg.bootSel = 0 then faultSev else notice) s.cfg.bootSel bad]
  | (slot, c) :: rest, bad => rd fun s => match checkSlot s slot c with
    | .ok i => chain [
        modCfg fun g => { g with slotA := g.slotA || slot == 1, slotB := g.slotB || slot == 2 },
        applyImage i,
        finishImage i slot (fitAdded c.fit)]
    | .error b => chain [
        raise 0x0212 0xFFFF degraded slot b.reason,
        bootSlots rest (bad + b.reason * (if slot = 1 then 1 else 2 ^ 8))]

/-- The slots in the order of R384. [DESIGN CHOICE, log 90] -/
def bootOrder (s : State) : List Nat :=
  let a := slotHeader s 1
  let b := slotHeader s 2
  if headerOk b && (!headerOk a || seqNewer (leAt b 8 4) (leAt a 8 4)) then [2, 1] else [1, 2]

/-- The image in device memory that CFG_LD_ADDR and CFG_LD_LEN name; none where it cannot be read. [DEDUCED, log 89] -/
def loadImage (s : State) : Option (List Byte) :=
  let a := regWide s Reg.CFG_LD_ADDR_LO Reg.CFG_LD_ADDR_HI
  let n := (regGet s Reg.CFG_LD_LEN).toNat
  let len := min n (max 80 (memNat s (a + 16) 4))
  if inMap a n && memPowered s a && (poisoned s a len).isEmpty then some (memBytes s a len) else none

/-- Reading and checking of a full image completes: it is applied, or refused. -/
def imageApply (first second : Candidate) : Eff := rd fun s => when (s.cfg.loading && !s.mainReset) (
  if s.cfg.hostLoad then
    let img := (loadImage s).getD []
    match checkFull s img (first.readable && (loadImage s).isSome) first.fit 13 with
    | .ok i => chain [applyImage i, finishImage i 3 (fitAdded first.fit)]
    | .error b => cfgRefuse b.reason b.ty b.off
  else bootSlots ((bootOrder s).zip [first, second]) 0)

/-- IMAGE_APPLY. -/
def execImageApply (first second : Candidate) (s : State) : Host.Outcome State Fault Refusal :=
  .next (go (imageApply first second) s)

/-- Main reset is released (R429), after a power-up once the supplies are good: the newest valid copy of the repair record is
used, or the factory copy; BOOT_SEL and the flash's identification are read, DRAM candidates repaired, and the boot starts.
[DEDUCED, log 96] -/
def resetRelease (bootSel jedec : Nat) (record : Bool) : Eff := rd fun s =>
  when (s.mainReset && hamOn s && (!s.ham.starting || suppliesGood s)) (chain [
    act (.mainReset false),
    modHam fun h => { h with starting := false },
    when (!record) (chain [
      raise 0x041D 0xFFFF faultSev (regFld s Reg.BCH_MAP_STATUS 31 16) 0,
      modErg fun e => { e with moved := [], gone := [], bad := e.bad.filter fun x => x.2 == 4 },
      modBch fun b => { b with poolSpares := [], dramSpares := [] },
      setReg Reg.BCH_MAP_STATUS 2#32,
      setReg Reg.BCH_TEST_SCHED 0x1802#32,
      putFld Reg.BCH_DRAM_STATUS 15 0 0,
      setReg Reg.BCH_HOURS 0#32,
      each (upto 17) fun r => putFld (Reg.BCH_REGION r) 31 16 0]),
    when s.gw.up announceLink,
    dramAll,
    modCfg fun c => { c with bootSel := bootSel, flashId := jedec },
    bootStart])

/-- MAIN_RESET_RELEASE. [DEDUCED, log 3] -/
def execMainResetRelease (bootSel : BitVec 2) (jedec : BitVec 24) (record : Bool) (s : State) :
    Host.Outcome State Fault Refusal :=
  .next (go (resetRelease bootSel.toNat jedec.toNat record) s)

/-! ## The shadow build of a live change (R390, R394, R395) -/

/-- A logical tile is free for a shadow build (R54). [DEDUCED, log 93] -/
def tileFree (s : State) (l : Nat) : Bool :=
  !s.erg.gone.contains l && (instAtTile s l).isNone && !((s.bch.mig.bind fun m => m.taken) == some l)

/-- Every tile of a new instance is free, or, for a change in place, free or its own pipeline's. -/
def instFits (s : State) (i : Inst) : Bool := (upFrom i.first (instTiles i)).all (tileFree s)
def instFitsInPlace (s : State) (i : Inst) : Bool := (upFrom i.first (instTiles i)).all fun l =>
  tileFree s l || ((instAtTile s l).map fun e => instOwner e.2 == instOwner i).getD false

/-- The running instance that a new one replaces: the one at the same end of a running route whose index the image names
again, or else the only one of its kind and owner. [DEDUCED, log 93] -/
def replacedBy (s : State) (i : Image) (n : Nat) (x : Inst) (taken : List Nat) : Option Nat :=
  let old := (s.erg.insts.filter fun e => !e.2.shadow && e.2.kind == x.kind && instOwner e.2 == instOwner x
    && !taken.contains e.1).map Prod.fst
  let ends := ((i.sect 2).map recRoute).flatMap fun r => match mget? r.1 s.erg.routes with
    | some o => (if r.2.src = n then [o.src] else []) ++ (if r.2.dst = n then [o.dst] else [])
    | none => []
  (firstWhere (fun k => old.contains k) ends).orElse fun _ => match old with
    | [k] => some k
    | _ => none

/-- The pairs of new and replaced instances. -/
def pairUp (s : State) (i : Image) : List (Nat × Inst) → List (Nat × Nat) → List (Nat × Nat)
  | [], done => done
  | (n, x) :: r, done => match replacedBy s i n x (done.map Prod.snd) with
    | some k => pairUp s i r (done ++ [(n, k)])
    | none => pairUp s i r done

/-- An owner inserted in cutting order, once (R391). -/
def addOwner (o : Nat × Nat) : List (Nat × Nat) → List (Nat × Nat)
  | [] => [o]
  | p :: r => if o = p then p :: r else if decide (o.1 < p.1 ∨ (o.1 = p.1 ∧ o.2 < p.2)) then o :: p :: r else p :: addOwner o r

/-- The change that a partial image makes of a structure. [DEDUCED, log 92] -/
def planChange (s : State) (i : Image) : Change :=
  let news := (i.ofType 0x0101).map recInst
  let inplace := ((news.filter fun e => !instFits s e.2 && (instOwner e.2).1 == 0).map fun e => (instOwner e.2).2)
  let isIn := fun (x : Inst) => (instOwner x).1 == 0 && inplace.contains (instOwner x).2
  let routes := (i.sect 2).map recRoute
  let instAny := fun (n : Nat) => (mget? n news).orElse fun _ => mget? n s.erg.insts
  let parts := i.sect 5
  let writes := (i.ofType 0x0601).map fun r => (regOwner s (recOff r), (recOff r, recVal r))
  let owners := news.map (fun e => instOwner e.2)
    ++ routes.filterMap (fun r => (instAny r.2.src).map instOwner)
    ++ writes.map Prod.fst
    ++ (i.ofType 0x0104).map (fun r => (0, recAt r 4 2 / 4))
    ++ parts.flatMap fun r => unitOwners (if recOwner r = 0 then ownerOf s (recUnits r).1 (recUnits r).2.1 else recOwner r)
  { seq := i.seq
    owners := (owners.filter fun o => o.1 != 4).foldl (fun l o => addOwner o l) []
    pairs := pairUp s i news []
    insts := news.filter fun e => isIn e.2
    routes := routes
    writes := writes
    partners := (i.sect 4).filter fun r => isActive s (recAt r 4 2)
    recs := (i.sect 1).filter fun r => r.rtype != 0x0101
    units := (parts.filter fun r => recOwner r != 0).map fun r =>
      ((recUnits r).1, (recUnits r).2.1, (recUnits r).2.2, recOwner r)
    removed := (parts.filter fun r => recOwner r == 0).flatMap fun r =>
      ownerRuns s (recUnits r).1 (recUnits r).2.1 (recUnits r).2.2
    tiles := sumOf (fun e => instTiles e.2) (news.filter fun e => !isIn e.2)
    inplace := inplace.eraseDups }

/-- The shadow instances of a plan. -/
def shadowsOf (c : Change) (i : Image) : List (Nat × Inst) :=
  (((i.ofType 0x0101).map recInst).filter fun e => !c.insts.any fun x => x.1 == e.1).map fun e =>
    (e.1, { e.2 with shadow := true, st := 2 })

/-- An owner is inside a frame, or a cycle runs on its side. -/
def inFrame (s : State) (o : Nat × Nat) : Bool :=
  if o.1 = 3 then !(sideOf s o.2).runs.isEmpty
  else if o.1 = 0 then (pipeOf s o.2).frameOpen
  else !atBoundary s o

/-- The shadow build itself: instances, lanes, entries that are not ACTIVE, added partitions and their data. -/
def buildShadow (s : State) (i : Image) (c : Change) : Eff := chain [
  modErg fun e => { e with insts := (shadowsOf c i).foldl (fun l x => mput x.1 x.2 l) e.insts },
  applyLanes (i.sect 3),
  each ((i.sect 4).filter fun r => !isActive s (recAt r 4 2)) applyPartner,
  each ((i.sect 5).filter fun r => recOwner r != 0) applyPartition,
  each (i.ofType 0x0602) applyParam,
  modCfg fun g => { g with st := 7, change := some { c with
    warm := c.owners.map fun o => (o, if inFrame s o then -1 else 0) } }]

/-- The structure with the shadow build alongside it: what the capacity rules count. -/
def alongside (t : State) (c : Change) : State :=
  { t with erg := { t.erg with routes := t.erg.routes ++ c.routes.map fun r => (65536 + r.1, r.2) } }

/-- The state after every cut: what the rules of the chapters are checked against. -/
def afterCuts (t : State) (c : Change) : State :=
  go (if c.owners.isEmpty then chain [cutCommon, cutDone]
    else chain [modCfg fun g => { g with st := 8 }, each c.owners fun _ => ownerCut false 0]) t

/-- A LANE record meets a lane in use (R394). -/
def laneInUse (s : State) (r : ImgRec) : Bool :=
  let n := recLane r
  (laneOf s n).st != .gated || s.plk.partners.any fun e => e.2.st == .active && groupOf s n == ptLane s e.1

/-- The checks of a partial image's records against the running structure. [DEDUCED, log 86] -/
def changeBad (s : State) (i : Image) : Option ImgBad := firstBad [
  fun _ => badRec (i.ofType 0x0101) (fun r => (mget? (recInst r).1 s.erg.insts).isSome) 7,
  fun _ => badRec (i.sect 5) (fun r => recOwner r != 0 && (upFrom (recUnits r).2.1 (recUnits r).2.2).any fun u =>
    ownerOf s (recUnits r).1 u != 0) 10,
  fun _ => badRec (i.sect 3) (laneInUse s) 17,
  fun _ => badRec (i.ofType 0x0101) (fun r =>
    let x := (recInst r).2
    oneArea x && !instFits s x && !(i.inplaceOk && (instOwner x).1 == 0 && instFitsInPlace s x)) 14]

/-- The check of a partial image: its change, or why it is refused. [DEDUCED, log 86] -/
def checkPartial (s : State) (img : List Byte) (readable : Bool) (fit : RouteFit) : Except ImgBad (Image × Change) :=
  if !readable then .error ⟨22, 0, 0⟩
  else match checkImage s img with
    | some b => .error b
    | none =>
      if !(leAt img 6 2).testBit 0 then .error ⟨if s.erg.valid then 15 else 13, 0, 0⟩
      else if !s.erg.valid || leAt img 12 4 != s.erg.seq then .error ⟨13, 0, 0⟩
      else match readImage img with
        | .error b => .error b
        | .ok i => match recordBad i with
          | some b => .error b
          | none =>
            let c := planChange s i
            match changeBad s i with
            | some b => .error b
            | none =>
              let t := go (buildShadow s i c) s
              let named := { t with erg := { t.erg with insts := c.insts.foldl (fun l x => mput x.1 x.2 l) t.erg.insts } }
              let z := afterCuts t c
              match firstBad [fun _ => routeBad i named fit, fun _ => capacityBad (alongside t c), fun _ => capacityBad z,
                  fun _ => memoryBad i z, fun _ => ruleBad i z] with
              | some b => .error b
              | none => .ok (i, c)

/-- The shadow build completes, or the image is refused. -/
def prepared (k : Candidate) : Eff := rd fun s => when (s.cfg.st == 6 && !s.mainReset) (
  match checkPartial s ((loadImage s).getD []) (k.readable && (loadImage s).isSome) k.fit with
  | .error b => cfgRefuse b.reason b.ty b.off
  | .ok (i, c) => chain [
      buildShadow s i c,
      modStore fun m => { m with image := none },
      putBit Reg.CFG_CTRL 3 false,
      stretchAll (fitAdded k.fit),
      raise 0x0214 0xFFFF notice c.seq c.tiles,
      when (regFld s Reg.CFG_LIVE 7 0 == 0 && (s.cfg.armHeld || regBit s Reg.CFG_CTRL 4)) cutStart])

/-- PREPARED. -/
def execPrepared (c : Candidate) (s : State) : Host.Outcome State Fault Refusal := .next (go (prepared c) s)

end Sys2Proof.Machine
end

