-- ==== Sys2Proof/Machine/RegCmds.lean ====
section
/-! DEFINITION. The register access commands: a read or a write of any register, LOCK and LEVEL, and accesses to offsets
that may not be implemented (R5 to R20, R502). -/
namespace Sys2Proof.Machine

/-! ## Reads -/

/-- A word with the write-only fields of its register at 0 (R6). [DEDUCED, log 14] -/
def hideWo (d : RegDesc) (w : Word) : Word :=
  d.fields.foldl (fun x f => if f.acc == .wo then setFld x f.hi f.lo 0 else x) w

/-- The word a register reads as now. -/
def liveWord (s : State) (off : Nat) : Word :=
  let w := (anyView s off).getD (regGet s off)
  match descAt off with
  | some d => hideWo d w
  | none => w

/-- The effect of a 32-bit read of any register: device time, a capture and a caught word have effects of their own; a
quantity of several words is latched (R8). -/
def anyRead (ini : Ini) (off : Nat) : Eff := rd fun s =>
  if off = Reg.TIM_NOW_FRAC then nowRead ini
  else if regionOf off = 0x30 then ledgerRead ini off
  else match regIdx (Reg.TIM_CAP_FRAC 0) 0x20 16 off,
      firstWhere (fun k : Nat => off == Reg.POD_E_CATCH (k / 4) (k % 4)) (upto 8) with
    | some c, _ => capPop ini c
    | none, some k => catchRead ini (k / 4) (k % 4)
    | none, none => match descAt off with
      | none => readOnes ini off
      | some d =>
        if d.words ≤ 1 then emit (.read ini off (liveWord s off))
        else if d.word = 0 then
          readLow ini off (liveWord s off) ((upFrom 1 (d.words - 1)).map fun k => liveWord s (off + 4 * k))
        else readHigh ini off

/-! ## Commands -/

/-- REGISTER_WRITE: a write of any register. -/
def execRegisterWrite (ini : Ini) (off : BitVec 26) (size : Size) (v : Word) (s : State) :
    Host.Outcome State Fault Refusal :=
  .next (go (access ini off.toNat size (some v) skip (anyWrite ini off.toNat v)) s)

/-- LOCK_SET: a write of the register that holds the LOCK bit over an offset, with the bit set (R10).
[DESIGN CHOICE, log 12] -/
def execLockSet (ini : Ini) (off : BitVec 26) (v : Word) (s : State) : Host.Outcome State Fault Refusal :=
  let w := setFld v 31 31 1
  .next (go (busWrite ini (lockReg off.toNat) w (anyWrite ini (lockReg off.toNat) w)) s)

/-- LATCHED_READ: a read of any register. [DESIGN CHOICE, log 12] -/
def execLatchedRead (ini : Ini) (off : BitVec 26) (size : Size) (s : State) : Host.Outcome State Fault Refusal :=
  .next (go (access ini off.toNat size none (readOnes ini off.toNat) (anyRead ini off.toNat)) s)

/-- WIDE_WRITE_APPLY: a write of the highest word of a quantity applies the words held for its initiator (R9).
[DESIGN CHOICE, log 12] -/
def execWideWriteApply (ini : Ini) (off : BitVec 26) (v : Word) (s : State) : Host.Outcome State Fault Refusal :=
  .next (go (busWrite ini off.toNat v (anyWrite ini off.toNat v)) s)

/-- LEVEL_WRITE: a write of the control register that governs an offset (R20). [DESIGN CHOICE, log 12] -/
def execLevelWrite (ini : Ini) (off : BitVec 26) (v : Word) (s : State) : Host.Outcome State Fault Refusal :=
  .next (go (busWrite ini (levelUnit off.toNat) v (anyWrite ini (levelUnit off.toNat) v)) s)

/-- LEVEL_BOUNDARY: the boundary of the unit whose control register has the offset `unit`. [DEDUCED, log 16] -/
def execLevelBoundary (unit : BitVec 26) (s : State) : Host.Outcome State Fault Refusal :=
  .next (go (when (levelUnit unit.toNat == unit.toNat && !s.mainReset && blockPowered s (blockOf unit.toNat))
    (levelBoundary unit.toNat)) s)

/-! ## Offsets of the BARs (R16, R499, R502) -/

/-- Word `k` of entry `v` of the MSI-X table. -/
def msixWord (s : State) (v k : Nat) : Word :=
  match k with
  | 0 => word (mget 0 v s.gw.msixAddr)
  | 1 => word (mget 0 v s.gw.msixAddr / 2 ^ 32)
  | 2 => mget 0#32 v s.gw.msixData
  | _ => word (b2n (!s.gw.unmasked.testBit v))

/-- A write of word `k` of entry `v`; what an unmasked vector held is sent (R350). -/
def msixPut (v k : Nat) (w : Word) : Eff := chain [
  modGw fun g => match k with
    | 0 => { g with msixAddr := mput v (mget 0 v g.msixAddr / 2 ^ 32 * 2 ^ 32 + w.toNat) g.msixAddr }
    | 1 => { g with msixAddr := mput v (mget 0 v g.msixAddr % 2 ^ 32 + w.toNat * 2 ^ 32) g.msixAddr }
    | 2 => { g with msixData := mput v w g.msixData }
    | _ => { g with unmasked := if bit w 0 then clearMask g.unmasked (2 ^ v) else g.unmasked ||| 2 ^ v },
  releaseUpstream]

/-- A word of BAR4: the table, the PBA, or unimplemented. [DESIGN CHOICE, log 20] -/
def bar4Access (off : Nat) (write : Option Word) : Eff := rd fun s =>
  let ans := fun w => when write.isNone (emit (.window 4 off w))
  if off < 0x400 then match write with
    | some w => msixPut (off / 16) (off % 16 / 4) w
    | none => ans (msixWord s (off / 16) (off % 16 / 4))
  else if off = 0x8000 then ans (word s.gw.pba)
  else if off = 0x8004 then ans (word (s.gw.pba / 2 ^ 32))
  else chain [ans allOnes, unmapped 4 off (write.getD 0#32).toNat]

/-- A word of BAR2: an aperture or the partner window. [DESIGN CHOICE, log 20] -/
def bar2Access (off : Nat) (write : Option Word) : Eff :=
  if off < 0x30000000 then
    memAccess (.host ⟨off / 0x10000000 % 3, Nat.mod_lt _ (by decide)⟩ (BitVec.ofNat 28 off))
      (match write with
        | some w => .write ((leBytes 4 w.toNat).map some)
        | none => .read 1) []
  else windowAccess (off / 0x10000 % 0x1000) (off % 0x10000) write

/-- A host access to BAR2 or BAR4 whose turn it is. [DESIGN CHOICE, log 20] -/
def barNow (bar off : Nat) (write : Option Word) : Eff := rd fun s =>
  if takesRequests s then (if bar = 2 then bar2Access off write else bar4Access off write)
  else when s.gw.up unsupportedMem

/-- A host access to BAR2 or BAR4, behind the host's earlier ones. -/
def barAccess (ini : Ini) (bar off : Nat) (write : Option Word) : Eff :=
  when (ini == .host) (inOrder (.word bar off write) (barNow bar off write))

/-- UNMAPPED_ACCESS: a one-word access to any offset of BAR0, BAR2 or BAR4. [DESIGN CHOICE, log 12] -/
def execUnmappedAccess (ini : Ini) (bar : Fin 3) (off : BitVec 30) (write : Option Word) (s : State) :
    Host.Outcome State Fault Refusal :=
  let o := off.toNat / 4 * 4
  .next (go (match bar, write with
    | 0, some w => busWrite ini o w (anyWrite ini o w)
    | 0, none => busRead ini o (anyRead ini o)
    | 1, _ => barAccess ini 2 o write
    | 2, _ => barAccess ini 4 o write) s)

/-! ## Requests that wait in the gateway (R121, R342) -/

/-- A request of the host that waited is performed. -/
def perform : HostReq → Eff
  | .reg off size w => reach .host off size (w.getD 0#32).toNat (if w.isSome then skip else readOnes .host off)
      (match w with
        | some v => anyWrite .host off v
        | none => anyRead .host off)
  | .word bar off w => barNow bar off w
  | .mem k o op ecc => memAccess (.host k o) op ecc
  | .window p a w => windowAccess p a w
  | .msix w => msixWrite w

/-- The gateway performs what waits, oldest first, as far as a partner window access does not hold it again. -/
def performHeld : Nat → Eff
  | 0 => skip
  | n + 1 => rd fun s => match s.gw.held with
    | [] => skip
    | r :: rest => when (!gwWaits s) (chain [modGw fun g => { g with held := rest }, perform r, performHeld n])

/-- The gateway goes on (R342). [DESIGN CHOICE, log 141] -/
def gatewayGoes : Eff := rd fun s => performHeld s.gw.held.length

/-- TUNNEL_ACCEPT: a waiting request is accepted, and the gateway goes on. -/
def execTunnelAccept (p : BitVec 12) (s : State) : Host.Outcome State Fault Refusal :=
  .next (go (chain [tunAccept p.toNat, gatewayGoes]) s)

end Sys2Proof.Machine
end

