-- ==== Sys2Proof/Machine/CoreMem.lean ====
section
/-!
DEFINITION. Memory accesses of the control cores: the core address map and its attributes, PMP, caches, the I/O region,
errors in core accesses, and traps (R400 to R408, R411).
-/
namespace Sys2Proof.Machine

/-! ## Registers and traps -/

/-- Integer register `i`; x0 reads 0. -/
def getX (c : Core) (i : Nat) : XWord := if i = 0 then 0#64 else mget 0#64 i c.x
/-- Integer register `i` takes a value; x0 drops it. -/
def setX (i : Nat) (v : XWord) (c : Core) : Core := if i = 0 then c else { c with x := mput i v c.x }
/-- A CSR takes a value. -/
def setCsr (k : Nat) (v : XWord) (c : Core) : Core := { c with csr := mput k v c.csr }
/-- Field of mstatus as it was last written. -/
def mst (c : Core) (hi lo : Nat) : Nat := bits (csrGet c 0x300).toNat hi lo
/-- A field of mstatus takes a value. -/
def setMst (hi lo v : Nat) (c : Core) : Core := setCsr 0x300 (xw (setBits (csrGet c 0x300).toNat hi lo v)) c
/-- A counter of a core advances. [DESIGN CHOICE, log 102] -/
def bump (k n : Nat) (c : Core) : Core := { c with counts := setNth (nthD 0#64 k c.counts + xw n) k c.counts }

/-- A trap: mepc, mcause and mtval are written, MIE moves to MPIE and the mode to MPP, and the core goes on at mtvec in
machine mode; an interrupt adds four bytes for each cause number when mtvec is vectored. [PRESUMED, log 100] -/
def coreTrap (irq : Bool) (cause tval : Nat) (c : Core) : Core :=
  let base := (csrGet c 0x305).toNat / 4 * 4
  let vec := irq && (csrGet c 0x305).toNat % 4 == 1
  let c := setCsr 0x341 (xw c.pc) c
  let c := setCsr 0x342 (xw (b2n irq * 2 ^ 63 + cause)) c
  let c := setCsr 0x343 (xw (if !irq && Config.mtvalShows cause then tval else 0)) c
  let c := setMst 7 7 (mst c 3 3) c
  let c := setMst 3 3 0 c
  let c := setMst 12 11 (b2n c.machine * 3) c
  { c with machine := true, pc := (base + b2n vec * 4 * cause) % 2 ^ 64 }

/-- An exception of a core; access faults are counted in CCO_CORE_FAULTS. -/
def trapNow (n cause tval : Nat) : Eff := chain [
  when (cause == 1 || cause == 5 || cause == 7) (countSat (Reg.CCO_CORE_FAULTS n) 1),
  modCore n (coreTrap false cause tval)]

/-- An access of a core meets an uncorrectable word: MEM records it, the core faults, and CCO raises CORE_ECC (R411).
[DEDUCED, log 107] -/
def coreEcc (n cause a : Nat) (ws : List Nat) : Eff := rd fun s => chain [
  reportPoison 0x03 ws,
  trapNow n cause a,
  raise 0x0310 n degraded a (coreOf s n).pc]

/-! ## PMP (R400) -/

/-- Configuration byte and address word of a PMP entry. -/
def pmpCfg (c : Core) (i : Nat) : Nat := bits (csrGet c (0x3A0 + i / 8 * 2)).toNat (i % 8 * 8 + 7) (i % 8 * 8)
def pmpAddr (c : Core) (i : Nat) : Nat := (csrGet c (0x3B0 + i)).toNat

/-- The bytes from the first to the second bound that a PMP entry names. -/
def pmpRange (c : Core) (i : Nat) : Nat × Nat :=
  let a := pmpAddr c i
  match bits (pmpCfg c i) 4 3 with
  | 0 => (0, 0)
  | 1 => (if i = 0 then 0 else pmpAddr c (i - 1) * 4, a * 4)
  | 2 => (a * 4, a * 4 + 4)
  | _ =>
    let k := ctzN 54 (2 ^ 54 - 1 - a)
    (a / 2 ^ (k + 1) * 2 ^ (k + 3), (a / 2 ^ (k + 1) + 1) * 2 ^ (k + 3))

/-- PMP permits an access of `len` bytes at `a` in machine (`m`) or user mode; `perm` is 0 to read, 1 to write, 2 to
execute. The lowest entry that holds a byte of the access decides, and must hold all of them.
[PRESUMED, log 100] [DEDUCED, log 108] -/
def pmpAllows (c : Core) (m : Bool) (a len perm : Nat) : Bool :=
  match firstWhere (fun i => let r := pmpRange c i; decide (a < r.2 ∧ r.1 < a + len ∧ r.1 < r.2)) (upto 16) with
  | none => m
  | some i =>
    let r := pmpRange c i
    let cfg := pmpCfg c i
    decide (r.1 ≤ a ∧ a + len ≤ r.2) && ((m && !cfg.testBit 7) || cfg.testBit perm)

/-- Mode in which data is accessed: MPRV takes that of MPP. -/
def dataMode (c : Core) : Bool := if mst c 17 17 = 1 then mst c 12 11 == 3 else c.machine

/-! ## Core address map (R401, R402) -/

/-- Attribute of an address; `dramC` is a DRAM window set to MAIN_C. -/
inductive CoreAttr where
  | bar0 | ioMem | sram | nc | dramC
  deriving DecidableEq, Repr

/-- The attribute of one byte address, if the core address map has it. -/
def attrOf (s : State) (a : Nat) : Option CoreAttr :=
  if a < 0x4000000 then some .bar0
  else if 0x10000000 ≤ a ∧ a < 0x20000000 then some .ioMem
  else if 0x20000000 ≤ a ∧ a < 0x20400000 then some .sram
  else if 0x1000000000 ≤ a ∧ a < 0x2000000000 then
    let w := (a - 0x1000000000) / 2 ^ 30
    match regFld s (Reg.CCO_DRAM_ATTR (w / 16)) (w % 16 * 2 + 1) (w % 16 * 2) with
    | 0 => some .nc
    | 1 => some .dramC
    | _ => some .ioMem
  else none

/-- The I/O region (R405). -/
def CoreAttr.isIo : CoreAttr → Bool
  | .bar0 => true
  | .ioMem => true
  | _ => false

/-- The attribute of an access: I/O where one of its bytes is, and not cached where one of them is not. -/
def attrSpan (s : State) (a len : Nat) : Option CoreAttr :=
  match attrOf s a, attrOf s (a + len - 1) with
  | some x, some y => some (if x.isIo then x else if y.isIo || x == .dramC then y else x)
  | _, _ => none

/-- DRAM that is off in WATCH fails as out of range, and HAM raises BLOCK_OFF, whose bus address the spec leaves open for
a core (R421). [DEDUCED, log 107] -/
def watchDram (s : State) (a len : Nat) : Bool :=
  (attrSpan s a len).isSome && decide (0x1000000000 ≤ a) && !memPowered s a
/-- [DESIGN CHOICE, log 53] [DEDUCED, log 107] -/
def dramOff : Eff := rd fun s => withFree 64 fun v => raiseMerge 0x011C 0xFFFF notice v.toNat (powerCode s.ham.st)

/-! ## Caches (R403, R408) -/

/-- The bytes a core reads at `a`: memory, or the lines `cache` holds. -/
def lineByte (s : State) (cache : List (Nat × List Byte)) (a : Nat) : Byte :=
  match mget? (a / 64 * 64) cache with
  | some l => nthD 0#8 (a % 64) l
  | none => memByte s a

/-- A cache with a line read anew from memory. [DESIGN CHOICE, log 105] -/
def fillLine (s : State) (a : Nat) (cache : List (Nat × List Byte)) : List (Nat × List Byte) :=
  mput (a / 64 * 64) (memBytes s (a / 64 * 64) 64) cache

/-- A read through the instruction cache (`ins`) or the data cache. A line that is held may still be held, so that the
read returns an old copy, or may have been given up and is read anew (R403); only a line read anew can meet an error.
[DESIGN CHOICE, log 105] -/
def cachedRead (ins : Bool) (n a len : Nat) (bad : List Nat → Eff) (k : List Byte → Eff) : Eff :=
  withFree 2 fun v => rd fun s =>
    let c := coreOf s n
    let cache := if ins then c.icache else c.dcache
    let hit := fun (x : Nat) (b : Bool) => (mget? (x / 64 * 64) cache).isSome && b
    let h0 := hit a (v.getLsbD 0)
    let h1 := if (a + len - 1) / 64 = a / 64 then h0 else hit (a + len - 1) (v.getLsbD 1)
    let anew := (upFrom a len).filter fun x => !(if x / 64 = a / 64 then h0 else h1)
    let ws := s.store.poison.filter fun w => anew.any fun x => decide (w ≤ x ∧ x < w + eccBytes w)
    if !ws.isEmpty then bad ws
    else
      let cache := if h0 then cache else fillLine s a cache
      let cache := if h1 then cache else fillLine s (a + len - 1) cache
      chain [
        modCore n fun c => if ins then { c with icache := cache } else { c with dcache := cache },
        k ((upFrom a len).map (lineByte s cache))]

/-- A read that no cache holds. -/
def plainRead (a len : Nat) (bad : List Nat → Eff) (k : List Byte → Eff) : Eff := rd fun s =>
  let ws := poisoned s a len
  if !ws.isEmpty then bad ws else k (memBytes s a len)

/-- A read of MAIN memory. [DEDUCED, log 104] -/
def mainRead (ins : Bool) (n a len : Nat) (attr : CoreAttr) (bad : List Nat → Eff) (k : List Byte → Eff) : Eff :=
  if attr = .dramC then cachedRead ins n a len bad k else plainRead a len bad k

/-- The line of a MAIN_C DRAM window that a speculative load or fetch may bring into a cache: PMP must permit it, and an
error in it is reported to nobody (R400, R408). [DESIGN CHOICE, log 105] -/
def speculate (n : Nat) : Eff := withFree 40 fun v => rd fun s =>
  let c := coreOf s n
  let a := 0x1000000000 + v.toNat % 2 ^ 30 * 64
  let ok := fun perm => pmpAllows c (if perm = 0 then dataMode c else c.machine) a 64 perm
    && attrOf s a == some .dramC && memPowered s a
  when (v.getLsbD 30 && ok (b2n (v.getLsbD 31) * 2)) (modCore n fun c =>
    if v.getLsbD 31 then { c with icache := fillLine s a c.icache } else { c with dcache := fillLine s a c.dcache })

/-! ## The I/O region (R405, R406) -/

/-- The word that a register read has put on the bus. -/
def busAnswer : List Act → Word
  | [] => allOnes
  | .out (.read _ _ v) :: r => if (r.any fun x => match x with
      | .out (.read _ _ _) => true
      | _ => false) then busAnswer r else v
  | _ :: r => busAnswer r

/-- A 32-bit read of a register; what the bus answers is the word. [DEDUCED, log 108] -/
def ioReadReg (n off : Nat) (k : Word → Eff) : Eff :=
  if h : n < 4 then fun s =>
    let l := busRead (.core ⟨n, h⟩) off (anyRead (.core ⟨n, h⟩) off) s
    l ++ k (busAnswer l) (run l s)
  else skip

/-- A 32-bit I/O read, counted. [DESIGN CHOICE, log 102] -/
def ioRead (n a : Nat) (attr : CoreAttr) (ecc : List EccFind) (k : Word → Eff) : Eff := chain [
  modCore n (bump 4 1),
  if attr = .bar0 then ioReadReg n a k
  else chain [
    eccIn a 4 ecc,
    plainRead a 4 (coreEcc n 5 a) fun bs => k (word (leVal bs))]]

/-- A 32-bit I/O write, counted. -/
def ioWrite (n a : Nat) (attr : CoreAttr) (v : Word) : Eff := chain [
  modCore n (bump 4 1),
  if attr = .bar0 then (if h : n < 4 then busWrite (.core ⟨n, h⟩) a v (anyWrite (.core ⟨n, h⟩) a v) else skip)
  else coreWrite n a (leBytes 4 v.toNat)]

/-- An I/O access has a size the region takes: aligned, of 4 or 8 bytes. -/
def ioSize (a len : Nat) : Bool := decide (4 ≤ len) && a % len == 0

/-! ## Loads and stores -/

/-- Bytes with those of waiting stores of the core in their places. -/
def withStores (c : Core) (a : Nat) (bs : List Byte) : List Byte :=
  (c.stores.foldl (fun l e => patchLine e.1 e.2 l) (a, bs)).2

/-- Whether an access of `len` bytes by a core is refused before it is performed (R400, R401, R406).
[DEDUCED, log 107] -/
def refused (s : State) (c : Core) (a len perm : Nat) : Bool :=
  match attrSpan s a len with
  | none => true
  | some t => watchDram s a len || (t.isIo && !ioSize a len) || !pmpAllows c (dataMode c) a len perm

/-- A refused access: its exception is `cause`. [DEDUCED, log 107] -/
def refuse (n cause a len : Nat) : Eff := rd fun s => chain [
  when (watchDram s a len) dramOff,
  trapNow n cause a]

/-- A load of `len` bytes; `k` gets their value. An error is the exception `cause` (R411). [DEDUCED, log 104] -/
def coreLoad (n a len cause : Nat) (ecc : List EccFind) (k : Nat → Eff) : Eff := rd fun s =>
  let c := coreOf s n
  if refused s c a len 0 then refuse n cause a len
  else match attrSpan s a len with
    | none => skip
    | some t =>
      if t.isIo then chain [
        drainAll n,
        ioRead n a t ecc fun lo => if len = 4 then k lo.toNat
          else ioRead n (a + 4) t ecc fun hi => k (lo.toNat + hi.toNat * 2 ^ 32)]
      else chain [
        eccIn a len ecc,
        mainRead false n a len t (coreEcc n cause a) fun bs => rd fun s' =>
          k (leVal (withStores (coreOf s' n) a bs))]

/-- The poisoned words of the control SRAM that a store would write in part. [DEDUCED, log 107] -/
def partPoison (s : State) (a len : Nat) : List Nat :=
  (poisoned s a len).filter fun w => decide (w < 0x1000000000 ∧ ¬(a ≤ w ∧ w + 8 ≤ a + len))

/-- A store of the bytes `bs`, after `k` has moved the core on: into the store buffer, or at once in the I/O region. A
store into part of a poisoned word of the control SRAM faults (R411). -/
def coreStore (n a : Nat) (bs : List Byte) (ecc : List EccFind) (k : Eff) : Eff := rd fun s =>
  let c := coreOf s n
  let len := bs.length
  if refused s c a len 1 then refuse n 7 a len
  else match attrSpan s a len with
    | none => skip
    | some t =>
      if t.isIo then chain [
        drainAll n,
        k,
        ioWrite n a t (word (leVal bs)),
        when (len == 8) (ioWrite n (a + 4) t (word (leVal bs / 2 ^ 32)))]
      else chain [
        when (decide (len < 8 ∨ a % 8 ≠ 0)) (eccIn a len (ecc.filter fun e => decide (e.addr.toNat < 0x1000000000))),
        rd fun s' =>
          if !(partPoison s' a len).isEmpty then trapNow n 7 a
          else chain [modCore n fun c => { c with stores := c.stores ++ [(a, bs)] }, k]]

/-! ## Fetch -/

/-- 16 bits of an instruction at `a`, only in MAIN regions (R402). -/
def fetchHalf (n a : Nat) (ecc : List EccFind) (k : Nat → Eff) : Eff := rd fun s =>
  let c := coreOf s n
  match attrSpan s a 2 with
  | none => trapNow n 1 a
  | some t =>
    if t.isIo || watchDram s a 2 || !pmpAllows c c.machine a 2 2 then chain [
      when (!t.isIo && watchDram s a 2) dramOff,
      trapNow n 1 a]
    else chain [
      eccIn a 2 ecc,
      mainRead true n a 2 t (coreEcc n 1 a) fun bs => k (leVal bs)]

/-- An instruction: the word that executes, its length, and its bits as they were fetched. [DESIGN CHOICE, log 105] -/
def coreFetch (n : Nat) (ecc : List EccFind) (k : Nat → Nat → Nat → Eff) : Eff := rd fun s =>
  let pc := (coreOf s n).pc
  fetchHalf n pc ecc fun lo =>
    if lo % 4 = 3 then fetchHalf n ((pc + 2) % 2 ^ 64) ecc fun hi => k (lo + hi * 2 ^ 16) 4 (lo + hi * 2 ^ 16)
    else match expandC lo with
      | some w => k w 2 lo
      | none => trapNow n 2 lo

end Sys2Proof.Machine
end

