-- ==== Sys2Proof/Machine/CoreExec.lean ====
section
/-!
DEFINITION. CORE_INSTRUCTION: a control core takes a pending interrupt, or fetches and executes one instruction of
RV64IMAFDC with Zicsr, Zifencei, Zba and Zbb (R399 to R412). PRESUMED: what an instruction computes and how a trap is
taken are those of the RISC-V standard, which the spec names and does not restate.
-/
namespace Sys2Proof.Machine

/-! ## CSRs -/

/-- mstatus as it reads: UXL is 2, and SD sums FS up. -/
def mstatusView (c : Core) : XWord :=
  csrGet c 0x300 ||| xw (2 ^ 33) ||| xw (b2n (mst c 14 13 == 3) * 2 ^ 63)

/-- The place in `counts` of a counter CSR, by its low five bits: clocks, retired instructions, and mhpmcounter3 to 6.
[PRESUMED, log 101] -/
def counterPlace (k : Nat) : Option Nat :=
  match k with
  | 0 => some 0
  | 2 => some 1
  | 3 => some 2
  | 4 => some 3
  | 5 => some 4
  | 6 => some 5
  | _ => none

/-- A counter as it reads: time is the raw counter (R410), and a counter beyond mhpmcounter6 reads 0.
[PRESUMED, log 101] -/
def counterView (s : State) (c : Core) (k : Nat) : XWord :=
  if k = 1 then xw s.raw else match counterPlace k with
    | some i => nthD 0#64 i c.counts
    | none => 0#64

/-- What a CSR reads as; none where the core has no such CSR. [PRESUMED, log 100, 101] -/
def csrRead (s : State) (n k : Nat) : Option XWord :=
  let c := coreOf s n
  let fs := mst c 14 13 != 0
  if k = 0x001 then (if fs then some (csrGet c 0x003 &&& 31#64) else none)
  else if k = 0x002 then (if fs then some (csrGet c 0x003 >>> 5) else none)
  else if k = 0x003 then (if fs then some (csrGet c 0x003) else none)
  else if 0xC00 ≤ k ∧ k < 0xC20 then
    (if c.machine || (csrGet c 0x306).toNat.testBit (k % 32) then some (counterView s c (k % 32)) else none)
  else if 0xB00 ≤ k ∧ k < 0xB20 then (if k = 0xB01 then none else some (counterView s c (k % 32)))
  else if k = 0xF11 ∨ k = 0xF12 ∨ k = 0xF15 then some 0#64
  else if k = 0xF13 then some (xw 0x0144A000)
  else if k = 0xF14 then some (xw n)
  else if k = 0x300 then some (mstatusView c)
  else if k = 0x301 then some (xw 0x800000000010112D)
  else if k = 0x304 ∨ k = 0x305 ∨ k = 0x306 ∨ k = 0x30A then some (csrGet c k)
  else if k = 0x320 then some 0#64
  else if 0x323 ≤ k ∧ k < 0x340 then some (if k < 0x327 then Config.hpmEvent (k - 0x320) else 0#64)
  else if 0x340 ≤ k ∧ k < 0x344 then some (csrGet c k)
  else if k = 0x344 then some (xw (mipOf s n))
  else if k = 0x3A0 ∨ k = 0x3A2 then some (csrGet c k)
  else if 0x3B0 ≤ k ∧ k < 0x3C0 then some (csrGet c k)
  else none

/-- A PMP entry is locked: by itself, or as the base of a locked TOR entry. -/
def pmpLocked (c : Core) (i : Nat) : Bool :=
  (pmpCfg c i).testBit 7 || (decide (i < 15) && (pmpCfg c (i + 1)).testBit 7 && bits (pmpCfg c (i + 1)) 4 3 == 1)

/-- The configuration byte of entry `i` after a write of `v`: a locked entry keeps it, and W without R, which is reserved,
is dropped. -/
def pmpCfgNew (c : Core) (i v : Nat) : Nat :=
  let old := pmpCfg c i
  if old.testBit 7 then old
  else bits v 7 7 * 128 + bits v 4 3 * 8 + bits v 2 2 * 4 + (if v % 2 = 1 then v % 4 else 0)

/-- The eight entries of a pmpcfg CSR after a write. -/
def pmpCfgWord (c : Core) (first v : Nat) : XWord :=
  xw (sumOf (fun j => pmpCfgNew c (first + j) (bits v (8 * j + 7) (8 * j)) * 2 ^ (8 * j)) (upto 8))

/-- A write of mstatus: MIE, MPIE, FS, MPRV and TW, and MPP where it names a mode the core has. -/
def mstatusPut (v : Nat) (c : Core) : Core :=
  let old := (csrGet c 0x300).toNat
  let mpp := if bits v 12 11 = 0 ∨ bits v 12 11 = 3 then bits v 12 11 else bits old 12 11
  setCsr 0x300 (xw (bits v 3 3 * 8 + bits v 7 7 * 128 + mpp * 2 ^ 11 + bits v 14 13 * 2 ^ 13 + bits v 17 17 * 2 ^ 17
    + bits v 21 21 * 2 ^ 21)) c

/-- A CSR after a write; a read-only one keeps its value. [PRESUMED, log 100] -/
def csrPut (k v : Nat) (c : Core) : Core :=
  let fp := fun (w : Nat) => setMst 14 13 3 (setCsr 0x003 (xw (w % 256)) c)
  if k = 0x001 then fp ((csrGet c 0x003).toNat / 32 * 32 + v % 32)
  else if k = 0x002 then fp ((csrGet c 0x003).toNat % 32 + v % 8 * 32)
  else if k = 0x003 then fp v
  else if 0xB00 ≤ k ∧ k < 0xB20 then (match counterPlace (k % 32) with
    | some i => { c with counts := setNth (xw v) i c.counts }
    | none => c)
  else if k = 0x300 then mstatusPut v c
  else if k = 0x304 then setCsr k (xw (v &&& 0x888)) c
  else if k = 0x305 then setCsr k (xw (v / 4 * 4 + (if v % 4 < 2 then v % 4 else (csrGet c k).toNat % 4))) c
  else if k = 0x306 then setCsr k (xw (v % 128)) c
  else if k = 0x30A then setCsr k (xw (v % 2)) c
  else if k = 0x340 ∨ k = 0x342 ∨ k = 0x343 then setCsr k (xw v) c
  else if k = 0x341 then setCsr k (xw (v / 2 * 2)) c
  else if k = 0x3A0 then setCsr k (pmpCfgWord c 0 v) c
  else if k = 0x3A2 then setCsr k (pmpCfgWord c 8 v) c
  else if 0x3B0 ≤ k ∧ k < 0x3C0 then (if pmpLocked c (k - 0x3B0) then c else setCsr k (xw (v % 2 ^ 54)) c)
  else c

/-! ## Ends of an instruction -/

/-- An instruction of `len` bytes retires, and its result is `f`. -/
def retire (n len : Nat) (f : Core → Core) : Eff := modCore n fun c =>
  f (bump 1 1 { c with pc := (c.pc + len) % 2 ^ 64 })

/-- An instruction that the core does not have, or may not execute: its bits are `raw`. -/
def illegal (n raw : Nat) : Eff := trapNow n 2 raw

/-- A result for an integer register, or an illegal instruction. -/
def retireX (n len raw rd : Nat) (v : Option XWord) : Eff :=
  match v with
  | some x => retire n len (setX rd x)
  | none => illegal n raw

/-- A jump retires. -/
def retireTo (n target : Nat) (f : Core → Core) : Eff := retire n 0 fun c => { f c with pc := target % 2 ^ 64 }

/-! ## Atomics (A, R404) -/

/-- The value an AMO stores. -/
def amoValue (f5 len old src : Nat) : Option Nat :=
  let b := 8 * len
  let o := old % 2 ^ b
  let x := src % 2 ^ b
  let less := decide (sint b o < sint b x)
  match f5 with
  | 0x00 => some ((o + x) % 2 ^ b)
  | 0x01 => some x
  | 0x04 => some (o ^^^ x)
  | 0x08 => some (o ||| x)
  | 0x0C => some (o &&& x)
  | 0x10 => some (if less then o else x)
  | 0x14 => some (if less then x else o)
  | 0x18 => some (min o x)
  | 0x1C => some (max o x)
  | _ => none

/-- LR, SC and the AMOs. They are performed in order with all accesses of the core. In the I/O region they fault.
[DEDUCED, log 103, 106] -/
def coreAtomic (n w len raw : Nat) (ecc : List EccFind) : Eff := rd fun s =>
  let c := coreOf s n
  let size := if bits w 14 12 = 2 then 4 else 8
  let f5 := bits w 31 27
  let a := (getX c (bits w 19 15)).toNat
  let src := (getX c (bits w 24 20)).toNat
  let lr := f5 == 2
  let sc := f5 == 3
  if bits w 14 12 ≠ 2 ∧ bits w 14 12 ≠ 3 then illegal n raw
  else if (lr && bits w 24 20 != 0) || (!lr && !sc && (amoValue f5 size 0 0).isNone) then illegal n raw
  else match attrSpan s a size with
    | none => refuse n (if lr then 5 else 7) a size
    | some t =>
      if t.isIo then trapNow n 7 a
      else if a % size ≠ 0 then trapNow n (if lr then 4 else 6) a
      else if refused s c a size 0 && !sc then refuse n (if lr then 5 else 7) a size
      else if refused s c a size 1 && !lr then refuse n 7 a size
      else if sc then withFree 1 fun v => chain [
        drainAll n,
        eccIn a size (ecc.filter fun e => decide (size < 8 ∧ e.addr.toNat < 0x1000000000)),
        rd fun s' =>
          if !(partPoison s' a size).isEmpty then trapNow n 7 a
          else
            let won := c.reserved == some (a / 64) && v == 1#1
            chain [
              modCore n fun x => { x with reserved := none },
              retire n len (setX (bits w 11 7) (xw (b2n !won))),
              when won (coreWrite n a (leBytes size src))]]
      else chain [
        drainAll n,
        eccIn a size ecc,
        mainRead false n a size t (coreEcc n (if lr then 5 else 7) a) fun bs =>
          let old := leVal bs
          chain [
            retire n len (setX (bits w 11 7) (sext (8 * size) old)),
            if lr then modCore n fun x => { x with reserved := some (a / 64) }
            else coreWrite n a (leBytes size ((amoValue f5 size old src).getD 0))]]

/-! ## Floating point (F, D) -/

/-- The single in a 64-bit register; one that is not boxed is the canonical NaN. -/
def unbox (v : XWord) : Nat := if v.toNat / 2 ^ 32 = 2 ^ 32 - 1 then v.toNat % 2 ^ 32 else fmtS.nanBits

/-- Floating-point register `i`, and its bits in a format. -/
def getF (c : Core) (i : Nat) : XWord := mget 0#64 i c.f
def getFmt (f : FpFmt) (c : Core) (i : Nat) : Nat := if f.eb = 8 then unbox (getF c i) else (getF c i).toNat

/-- A register takes a value, boxed if it is a single; FS becomes dirty. -/
def setF (f : FpFmt) (i v : Nat) (c : Core) : Core :=
  let x := xw (if f.eb = 8 then (2 ^ 32 - 1) * 2 ^ 32 + v % 2 ^ 32 else v)
  setMst 14 13 3 { c with f := mput i x c.f }

/-- Exception flags are added to fflags. -/
def addFlags (fl : Nat) (c : Core) : Core :=
  if fl = 0 then c else setMst 14 13 3 (setCsr 0x003 (csrGet c 0x003 ||| xw fl) c)

/-- A result for a floating-point register. -/
def retireF (n len rd : Nat) (f : FpFmt) (r : FpOut) : Eff := retire n len fun c => addFlags r.2 (setF f rd r.1 c)

/-- The format that the fmt field of an instruction names. -/
def fmtOf (w : Nat) : Option FpFmt :=
  match bits w 26 25 with
  | 0 => some fmtS
  | 1 => some fmtD
  | _ => none

/-- The rounding mode of an instruction; none where it is reserved. -/
def roundMode (c : Core) (w : Nat) : Option Nat :=
  let m := if bits w 14 12 = 7 then (csrGet c 0x003).toNat / 32 % 8 else bits w 14 12
  if m < 5 then some m else none

/-- Conversion of a number to an integer register: kind 0 W, 1 WU, 2 L, 3 LU. -/
def fpToX (kind rm : Nat) (a : Fp) : XWord × Nat :=
  let r := match kind with
    | 0 => fpToInt rm (-2 ^ 31) (2 ^ 31 - 1) a
    | 1 => fpToInt rm 0 (2 ^ 32 - 1) a
    | 2 => fpToInt rm (-2 ^ 63) (2 ^ 63 - 1) a
    | _ => fpToInt rm 0 (2 ^ 64 - 1) a
  (if kind = 1 then sext 32 r.1.toNat else BitVec.ofInt 64 r.1, r.2)

/-- The integer that a conversion from an integer register reads. -/
def xToInt (kind : Nat) (v : XWord) : Int :=
  match kind with
  | 0 => sint 32 v.toNat
  | 1 => ((v.toNat % 2 ^ 32 : Nat) : Int)
  | 2 => v.toInt
  | _ => (v.toNat : Int)

/-- Sign injection: the sign of the second, its complement, or the sum of both. -/
def signInject (f : FpFmt) (op x y : Nat) : Nat :=
  let b := f.eb + f.fb
  let s := match op with
    | 0 => y.testBit b
    | 1 => !y.testBit b
    | _ => x.testBit b != y.testBit b
  x % 2 ^ b + f.signBit s

/-- The instructions of OP-FP. -/
def coreFpOp (n w len raw : Nat) : Eff := rd fun s =>
  let c := coreOf s n
  let rdN := bits w 11 7
  let f3 := bits w 14 12
  let r2 := bits w 24 20
  match fmtOf w, roundMode c w with
  | none, _ => illegal n raw
  | some f, rm =>
    let x := getFmt f c (bits w 19 15)
    let y := getFmt f c r2
    let a := unpackFp f x
    let b := unpackFp f y
    let src := getX c (bits w 19 15)
    let fp := fun (r : FpOut) => retireF n len rdN f r
    let toX := fun (v : XWord) (fl : Nat) => retire n len fun k => addFlags fl (setX rdN v k)
    match bits w 31 27, rm with
    | 0x00, some m => fp (fpAdd f m a b)
    | 0x01, some m => fp (fpAdd f m a b.neg)
    | 0x02, some m => fp (fpMul f m a b)
    | 0x03, some m => fp (fpDiv f m a b)
    | 0x0B, some m => if r2 = 0 then fp (fpSqrt f m a) else illegal n raw
    | 0x04, _ => if f3 < 3 then fp (signInject f f3 x y, 0) else illegal n raw
    | 0x05, _ => if f3 < 2 then fp (fpMinMax f (f3 == 1) x y) else illegal n raw
    | 0x08, some m =>
      if f.eb = 8 ∧ r2 = 1 then fp (fpConvert f m (unpackFp fmtD (getFmt fmtD c (bits w 19 15))))
      else if f.eb = 11 ∧ r2 = 0 then fp (fpConvert f m (unpackFp fmtS (getFmt fmtS c (bits w 19 15))))
      else illegal n raw
    | 0x14, _ => if f3 < 3 then (let r := fpCmp f3 a b; toX (xw r.1) r.2) else illegal n raw
    | 0x18, some m => if r2 < 4 then (let r := fpToX r2 m a; toX r.1 r.2) else illegal n raw
    | 0x1A, some m => if r2 < 4 then fp (fpOfInt f m (xToInt r2 src)) else illegal n raw
    | 0x1C, _ =>
      if r2 ≠ 0 then illegal n raw
      else if f3 = 0 then toX (if f.eb = 8 then sext 32 (getF c (bits w 19 15)).toNat else getF c (bits w 19 15)) 0
      else if f3 = 1 then toX (xw (fpClass f x)) 0
      else illegal n raw
    | 0x1E, _ => if r2 = 0 ∧ f3 = 0 then fp (src.toNat, 0) else illegal n raw
    | _, _ => illegal n raw

/-- FMADD, FMSUB, FNMSUB and FNMADD. -/
def coreFma (n w len raw : Nat) : Eff := rd fun s =>
  let c := coreOf s n
  match fmtOf w, roundMode c w with
  | some f, some m =>
    let get := fun (i : Nat) => unpackFp f (getFmt f c i)
    let a := get (bits w 19 15)
    let b := get (bits w 24 20)
    let d := get (bits w 31 27)
    let op := bits w 3 2
    retireF n len (bits w 11 7) f (fpFma f m (if 2 ≤ op then a.neg else a) b (if op = 1 ∨ op = 3 then d.neg else d))
  | _, _ => illegal n raw

/-! ## Loads, stores, fences and the system instructions -/

/-- An integer load. -/
def coreLoadX (n w len raw : Nat) (ecc : List EccFind) : Eff := rd fun s =>
  let f3 := bits w 14 12
  let a := (getX (coreOf s n) (bits w 19 15) + immI w).toNat
  let size := 2 ^ (f3 % 4)
  if f3 = 7 then illegal n raw
  else coreLoad n a size 5 ecc fun v =>
    retire n len (setX (bits w 11 7) (if f3 < 4 then sext (8 * size) v else xw v))

/-- A floating-point load. -/
def coreLoadF (n w len raw : Nat) (ecc : List EccFind) : Eff := rd fun s =>
  let a := (getX (coreOf s n) (bits w 19 15) + immI w).toNat
  match bits w 14 12 with
  | 2 => coreLoad n a 4 5 ecc fun v => retire n len (setF fmtS (bits w 11 7) v)
  | 3 => coreLoad n a 8 5 ecc fun v => retire n len (setF fmtD (bits w 11 7) v)
  | _ => illegal n raw

/-- A store, of an integer register or (`fp`) a floating-point register. -/
def coreStoreX (fp : Bool) (n w len raw : Nat) (ecc : List EccFind) : Eff := rd fun s =>
  let c := coreOf s n
  let f3 := bits w 14 12
  let a := (getX c (bits w 19 15) + immS w).toNat
  let v := if fp then getF c (bits w 24 20) else getX c (bits w 24 20)
  if 4 ≤ f3 ∨ (fp ∧ f3 < 2) then illegal n raw
  else coreStore n a (leBytes (2 ^ f3) v.toNat) ecc (retire n len id)

/-- FENCE: stores before it are performed when reads after it must follow them, and otherwise stay before the stores after
it. [DEDUCED, log 103] -/
def coreFence (n w len : Nat) : Eff := chain [
  when (bits w 24 24 == 1) (
    if bits w 31 28 ≠ 8 ∧ (bits w 21 21 = 1 ∨ bits w 23 23 = 1) then drainAll n
    else when (bits w 20 20 == 1 || bits w 22 22 == 1) (modCore n fun c =>
      if c.stores.isEmpty then c else { c with stores := c.stores ++ [(0, [])] })),
  retire n len id]

/-- FENCE.I: stores are performed, and later fetches see memory. -/
def coreFenceI (n len : Nat) : Eff := chain [
  drainAll n,
  retire n len fun c => { c with icache := [] }]

/-- A CSR instruction. -/
def coreCsr (n w len raw : Nat) : Eff := rd fun s =>
  let c := coreOf s n
  let k := bits w 31 20
  let r1 := bits w 19 15
  let f3 := bits w 14 12
  let src := if 4 ≤ f3 then r1 else (getX c r1).toNat
  let write := f3 % 4 == 1 || r1 != 0
  match csrRead s n k with
  | none => illegal n raw
  | some old =>
    if (!c.machine && bits k 9 8 != 0) || (write && bits k 11 10 == 3) then illegal n raw
    else
      let new := match f3 % 4 with
        | 1 => src
        | 2 => old.toNat ||| src
        | _ => clearMask old.toNat src
      retire n len fun x => setX (bits w 11 7) old (if write then csrPut k new x else x)

/-- MRET: MIE and the mode come back from MPIE and MPP, and the core goes on at mepc. -/
def coreMret (n : Nat) : Eff := rd fun s => retireTo n (csrGet (coreOf s n) 0x341).toNat fun c =>
  let back := mst c 12 11 == 3
  let c := setMst 3 3 (mst c 7 7) c
  let c := setMst 7 7 1 c
  let c := setMst 12 11 0 c
  let c := if back then c else setMst 17 17 0 c
  { c with machine := back }

/-- ECALL, EBREAK, MRET, WFI and the CSR instructions. -/
def coreSystem (n w len raw : Nat) : Eff := rd fun s =>
  let c := coreOf s n
  if bits w 14 12 = 4 then illegal n raw
  else if bits w 14 12 ≠ 0 then coreCsr n w len raw
  else if w = 0x00000073 then trapNow n (if c.machine then 11 else 8) 0
  else if w = 0x00100073 then trapNow n 3 c.pc
  else if w = 0x30200073 then (if c.machine then coreMret n else illegal n raw)
  else if w = 0x10500073 then
    (if !c.machine && mst c 21 21 == 1 then illegal n raw
    else chain [drainAll n, retire n len fun x => if irqWaits s n then x else { x with st := 2 }])
  else illegal n raw

/-! ## One instruction -/

/-- The word `w` of an instruction of `len` bytes executes. [PRESUMED, log 100] -/
def coreExecute (n w len raw : Nat) (ecc : List EccFind) : Eff := rd fun s =>
  let c := coreOf s n
  let rdN := bits w 11 7
  let f3 := bits w 14 12
  let a := getX c (bits w 19 15)
  let b := getX c (bits w 24 20)
  let fpOn := mst c 14 13 != 0
  let pc := xw c.pc
  let out := fun (v : Option XWord) => retireX n len raw rdN v
  match w % 128 with
  | 0x03 => coreLoadX n w len raw ecc
  | 0x07 => if fpOn then coreLoadF n w len raw ecc else illegal n raw
  | 0x0F => if f3 = 0 then coreFence n w len else if f3 = 1 then coreFenceI n len else illegal n raw
  | 0x13 => out (aluImm f3 (bits w 31 20) a)
  | 0x17 => out (some (pc + immU w))
  | 0x1B => out (aluImmW f3 (bits w 31 20) a)
  | 0x23 => coreStoreX false n w len raw ecc
  | 0x27 => if fpOn then coreStoreX true n w len raw ecc else illegal n raw
  | 0x2F => coreAtomic n w len raw ecc
  | 0x33 => out (aluOp (bits w 31 25) f3 a b)
  | 0x37 => out (some (immU w))
  | 0x3B => out (aluOpW (bits w 31 25) f3 (bits w 24 20) a b)
  | 0x43 => if fpOn then coreFma n w len raw else illegal n raw
  | 0x47 => if fpOn then coreFma n w len raw else illegal n raw
  | 0x4B => if fpOn then coreFma n w len raw else illegal n raw
  | 0x4F => if fpOn then coreFma n w len raw else illegal n raw
  | 0x53 => if fpOn then coreFpOp n w len raw else illegal n raw
  | 0x63 => match branchTaken f3 a b with
    | some t => if t then retireTo n (pc + immB w).toNat id else retire n len id
    | none => illegal n raw
  | 0x67 =>
    if f3 = 0 then retireTo n ((a + immI w).toNat / 2 * 2) (setX rdN (pc + xw len)) else illegal n raw
  | 0x6F => retireTo n (pc + immJ w).toNat (setX rdN (pc + xw len))
  | 0x73 => coreSystem n w len raw
  | _ => illegal n raw

/-- The cause of the interrupt a core takes now: MEIP before MSIP before MTIP. [DEDUCED, log 108] -/
def irqCause (s : State) (n : Nat) : Option Nat :=
  let c := coreOf s n
  let p := mipOf s n &&& (csrGet c 0x304).toNat
  if c.machine && mst c 3 3 == 0 then none
  else if p.testBit 11 then some 11
  else if p.testBit 3 then some 3
  else if p.testBit 7 then some 7
  else none

/-- Free amounts by which the counters of clocks, fetches, data-cache misses and stalled clocks advance (R409).
[DESIGN CHOICE, log 102] -/
def coreClocks (n : Nat) : Eff := withFree 256 fun v => modCore n fun c =>
  let part := fun (i : Nat) => v.toNat / 2 ^ (64 * i) % 2 ^ 64
  bump 5 (part 3) (bump 3 (part 2) (bump 2 (part 1) (bump 0 (part 0) c)))

/-- A core executes: a running core, or one whose WFI an interrupt ends. [DEDUCED, log 108] -/
def coreStep (n : Nat) (ecc : List EccFind) : Eff := rd fun s0 =>
  let c := coreOf s0 n
  let powered := decide (s0.ham.st = .watch ∨ s0.ham.st = .run ∨ s0.ham.st = .full)
  when (ccoOn s0 && powered && (c.st == 1 || (c.st == 2 && irqWaits s0 n))) (chain [
    when (c.st == 2) (modCore n fun x => { x with st := 1 }),
    coreClocks n,
    drainFree n,
    speculate n,
    rd fun s => match irqCause s n with
      | some k => modCore n (coreTrap true k 0)
      | none => coreFetch n ecc fun w len raw => coreExecute n w len raw ecc])

/-- CORE_INSTRUCTION. -/
def execCoreInstruction (n : Fin 4) (ecc : List EccFind) (s : State) : Host.Outcome State Fault Refusal :=
  .next (go (coreStep n ecc) s)

end Sys2Proof.Machine
end

