-- ==== Sys2Proof/Machine/Dispatch.lean ====
section
/-!
DEFINITION. One arm per command: each calls that command's meaning.
-/
namespace Sys2Proof.Machine

def exec (i : Instr) (s : State) : Host.Outcome State Fault Refusal :=
  match i with
  | .registerWrite ini off size v => Sys2Proof.Machine.execRegisterWrite ini off size v s
  | .lockSet ini off v => Sys2Proof.Machine.execLockSet ini off v s
  | .latchedRead ini off size => Sys2Proof.Machine.execLatchedRead ini off size s
  | .wideWriteApply ini off v => Sys2Proof.Machine.execWideWriteApply ini off v s
  | .unmappedAccess ini bar off write => Sys2Proof.Machine.execUnmappedAccess ini bar off write s
  | .levelWrite ini off v => Sys2Proof.Machine.execLevelWrite ini off v s
  | .levelBoundary unit => Sys2Proof.Machine.execLevelBoundary unit s
  | .evtHeadWrite ini v => Sys2Proof.Machine.execEvtHeadWrite ini v s
  | .evtFaultClear ini v => Sys2Proof.Machine.execEvtFaultClear ini v s
  | .evtCorePendClear ini v => Sys2Proof.Machine.execEvtCorePendClear ini v s
  | .evtIntClear ini v => Sys2Proof.Machine.execEvtIntClear ini v s
  | .dlWindowEnd => Sys2Proof.Machine.execDlWindowEnd s
  | .fclkStep => Sys2Proof.Machine.execFclkStep s
  | .tileEccUncorr p => Sys2Proof.Machine.execTileEccUncorr p s
  | .localEccCorr p word => Sys2Proof.Machine.execLocalEccCorr p word s
  | .octetPowerWrite ini o v => Sys2Proof.Machine.execOctetPowerWrite ini o v s
  | .laneEnableWrite ini n v => Sys2Proof.Machine.execLaneEnableWrite ini n v s
  | .laneRetrain ini n v => Sys2Proof.Machine.execLaneRetrain ini n v s
  | .autoRetrainWrite ini v => Sys2Proof.Machine.execAutoRetrainWrite ini v s
  | .signalDetected n => Sys2Proof.Machine.execSignalDetected n s
  | .adaptDone n => Sys2Proof.Machine.execAdaptDone n s
  | .alignDone n skew latest => Sys2Proof.Machine.execAlignDone n skew latest s
  | .measureDone n il margin => Sys2Proof.Machine.execMeasureDone n il margin s
  | .phaseTimeout n => Sys2Proof.Machine.execPhaseTimeout n s
  | .trainSignalAbsent n => Sys2Proof.Machine.execTrainSignalAbsent n s
  | .quietEnd n => Sys2Proof.Machine.execQuietEnd n s
  | .retryTimer n => Sys2Proof.Machine.execRetryTimer n s
  | .laneSignalLoss n => Sys2Proof.Machine.execLaneSignalLoss n s
  | .uncorrCodeword n again => Sys2Proof.Machine.execUncorrCodeword n again s
  | .octetPllLoss o refclk => Sys2Proof.Machine.execOctetPllLoss o refclk s
  | .measGo ini n v => Sys2Proof.Machine.execMeasGo ini n v s
  | .measDone n il margin => Sys2Proof.Machine.execMeasDone n il margin s
  | .eqAdaptStep n ctle pre dfe corrected => Sys2Proof.Machine.execEqAdaptStep n ctle pre dfe corrected s
  | .leanLaneWake n => Sys2Proof.Machine.execLeanLaneWake n s
  | .frameTransmit n => Sys2Proof.Machine.execFrameTransmit n s
  | .creditSend p => Sys2Proof.Machine.execCreditSend p s
  | .aliveSend p => Sys2Proof.Machine.execAliveSend p s
  | .aliveReceive f => Sys2Proof.Machine.execAliveReceive f s
  | .aliveTimeout p => Sys2Proof.Machine.execAliveTimeout p s
  | .creditReceive f => Sys2Proof.Machine.execCreditReceive f s
  | .probe n => Sys2Proof.Machine.execProbe n s
  | .helloReceive f => Sys2Proof.Machine.execHelloReceive f s
  | .descReceive f => Sys2Proof.Machine.execDescReceive f s
  | .descTimeout p => Sys2Proof.Machine.execDescTimeout p s
  | .byeReceive f => Sys2Proof.Machine.execByeReceive f s
  | .lostIntervalEnd p => Sys2Proof.Machine.execLostIntervalEnd p s
  | .refusedIntervalEnd p => Sys2Proof.Machine.execRefusedIntervalEnd p s
  | .kick ini p v => Sys2Proof.Machine.execKick ini p v s
  | .probeEnWrite ini v => Sys2Proof.Machine.execProbeEnWrite ini v s
  | .lineSegReceive f room => Sys2Proof.Machine.execLineSegReceive f room s
  | .frameEndReceive f => Sys2Proof.Machine.execFrameEndReceive f s
  | .syncReceive f => Sys2Proof.Machine.execSyncReceive f s
  | .delayReqReceive f => Sys2Proof.Machine.execDelayReqReceive f s
  | .delayRespReceive f => Sys2Proof.Machine.execDelayRespReceive f s
  | .eventReceive f => Sys2Proof.Machine.execEventReceive f s
  | .corrAckReceive f => Sys2Proof.Machine.execCorrAckReceive f s
  | .corrResend m frame => Sys2Proof.Machine.execCorrResend m frame s
  | .regRdRespReceive f => Sys2Proof.Machine.execRegRdRespReceive f s
  | .regWrRespReceive f => Sys2Proof.Machine.execRegWrRespReceive f s
  | .partnerWindowRead p a => Sys2Proof.Machine.execPartnerWindowRead p a s
  | .partnerWindowWrite p a v => Sys2Proof.Machine.execPartnerWindowWrite p a v s
  | .tunnelGo ini t v => Sys2Proof.Machine.execTunnelGo ini t v s
  | .tunnelAccept p => Sys2Proof.Machine.execTunnelAccept p s
  | .tunnelSend p => Sys2Proof.Machine.execTunnelSend p s
  | .tunTimeout p => Sys2Proof.Machine.execTunTimeout p s
  | .cvuGo ini u v => Sys2Proof.Machine.execCvuGo ini u v s
  | .cvuDone u => Sys2Proof.Machine.execCvuDone u s
  | .timNowRead ini => Sys2Proof.Machine.execTimNowRead ini s
  | .adjGo ini v => Sys2Proof.Machine.execAdjGo ini v s
  | .rateHiWrite ini v => Sys2Proof.Machine.execRateHiWrite ini v s
  | .ptmDialogStart => Sys2Proof.Machine.execPtmDialogStart s
  | .ptmDialogDone master => Sys2Proof.Machine.execPtmDialogDone master s
  | .ppsEdge rising => Sys2Proof.Machine.execPpsEdge rising s
  | .sourceAbsent src => Sys2Proof.Machine.execSourceAbsent src s
  | .slewEnd => Sys2Proof.Machine.execSlewEnd s
  | .ppsOutPulse => Sys2Proof.Machine.execPpsOutPulse s
  | .timePulse => Sys2Proof.Machine.execTimePulse s
  | .syncOriginate => Sys2Proof.Machine.execSyncOriginate s
  | .syncRelay p => Sys2Proof.Machine.execSyncRelay p s
  | .syncRelayDrop p => Sys2Proof.Machine.execSyncRelayDrop p s
  | .delayReqSend => Sys2Proof.Machine.execDelayReqSend s
  | .jobStart ini v => Sys2Proof.Machine.execJobStart ini v s
  | .velocityTimeout e => Sys2Proof.Machine.execVelocityTimeout e s
  | .triggerGenEnable ini g v => Sys2Proof.Machine.execTriggerGenEnable ini g v s
  | .triggerForm g => Sys2Proof.Machine.execTriggerForm g s
  | .triggerFormTime g => Sys2Proof.Machine.execTriggerFormTime g s
  | .triggerEgress g => Sys2Proof.Machine.execTriggerEgress g s
  | .cycleEnable ini v => Sys2Proof.Machine.execCycleEnable ini v s
  | .cycleStart => Sys2Proof.Machine.execCycleStart s
  | .captureEdge c rising => Sys2Proof.Machine.execCaptureEdge c rising s
  | .capturePop ini c => Sys2Proof.Machine.execCapturePop ini c s
  | .missingLineTimeout p => Sys2Proof.Machine.execMissingLineTimeout p s
  | .unpackLine p => Sys2Proof.Machine.execUnpackLine p s
  | .blackLine p => Sys2Proof.Machine.execBlackLine p s
  | .dpcLine p => Sys2Proof.Machine.execDpcLine p s
  | .flatLine p => Sys2Proof.Machine.execFlatLine p s
  | .wbalLine p => Sys2Proof.Machine.execWbalLine p s
  | .cmatLine p => Sys2Proof.Machine.execCmatLine p s
  | .toneLine p => Sys2Proof.Machine.execToneLine p s
  | .calGo ini p v => Sys2Proof.Machine.execCalGo ini p v s
  | .bankSwitchGo ini p v => Sys2Proof.Machine.execBankSwitchGo ini p v s
  | .tapFrameStart t => Sys2Proof.Machine.execTapFrameStart t s
  | .cropLine t => Sys2Proof.Machine.execCropLine t s
  | .scaleLine t => Sys2Proof.Machine.execScaleLine t s
  | .packLine t room => Sys2Proof.Machine.execPackLine t room s
  | .spillDrain producer => Sys2Proof.Machine.execSpillDrain producer s
  | .seifWarpLine b k room => Sys2Proof.Machine.execSeifWarpLine b k room s
  | .seifRowEmit b => Sys2Proof.Machine.execSeifRowEmit b s
  | .cameraStall b k => Sys2Proof.Machine.execCameraStall b k s
  | .modelApply b => Sys2Proof.Machine.execModelApply b s
  | .barApplyGo ini b v => Sys2Proof.Machine.execBarApplyGo ini b v s
  | .limYWrite ini b k v => Sys2Proof.Machine.execLimYWrite ini b k v s
  | .markLine j room => Sys2Proof.Machine.execMarkLine j room s
  | .webBreakLine wb => Sys2Proof.Machine.execWebBreakLine wb s
  | .rsTailWrite ini src v => Sys2Proof.Machine.execRsTailWrite ini src v s
  | .refEntryRead src => Sys2Proof.Machine.execRefEntryRead src s
  | .refFetchStart src => Sys2Proof.Machine.execRefFetchStart src s
  | .refFetchDone src => Sys2Proof.Machine.execRefFetchDone src s
  | .cmpRowEnter b => Sys2Proof.Machine.execCmpRowEnter b s
  | .refRenderRow b => Sys2Proof.Machine.execRefRenderRow b s
  | .refBlurRow b => Sys2Proof.Machine.execRefBlurRow b s
  | .regSearchRow b => Sys2Proof.Machine.execRegSearchRow b s
  | .diffTolRow b => Sys2Proof.Machine.execDiffTolRow b s
  | .clusterRow b room => Sys2Proof.Machine.execClusterRow b room s
  | .lutReload ini b v => Sys2Proof.Machine.execLutReload ini b v s
  | .lutReloadRun b => Sys2Proof.Machine.execLutReloadRun b s
  | .nzStripeMeasure side => Sys2Proof.Machine.execNzStripeMeasure side s
  | .nzResidRow b => Sys2Proof.Machine.execNzResidRow b s
  | .cycleClose side => Sys2Proof.Machine.execCycleClose side s
  | .dcompDeadline side => Sys2Proof.Machine.execDcompDeadline side s
  | .corrCommit side => Sys2Proof.Machine.execCorrCommit side s
  | .ledgerWrite ini n v => Sys2Proof.Machine.execLedgerWrite ini n v s
  | .sideEnable ini side v => Sys2Proof.Machine.execSideEnable ini side v s
  | .alloc ini port granule count => Sys2Proof.Machine.execAlloc ini port granule count s
  | .free ini port granule count => Sys2Proof.Machine.execFree ini port granule count s
  | .give ini port granule count => Sys2Proof.Machine.execGive ini port granule count s
  | .query ini port granule count => Sys2Proof.Machine.execQuery ini port granule count s
  | .apertureAccess who op ecc => Sys2Proof.Machine.execApertureAccess who op ecc s
  | .scrubStep ecc => Sys2Proof.Machine.execScrubStep ecc s
  | .rqPacketWrite producer => Sys2Proof.Machine.execRqPacketWrite producer s
  | .rqNotifyTimeout q => Sys2Proof.Machine.execRqNotifyTimeout q s
  | .rqFlush ini q v => Sys2Proof.Machine.execRqFlush ini q v s
  | .rqBoundaryApply q => Sys2Proof.Machine.execRqBoundaryApply q s
  | .rqEnable ini q v => Sys2Proof.Machine.execRqEnable ini q v s
  | .rqHeadWrite ini q v => Sys2Proof.Machine.execRqHeadWrite ini q v s
  | .journalEnable ini v => Sys2Proof.Machine.execJournalEnable ini v s
  | .recordAccept producer => Sys2Proof.Machine.execRecordAccept producer s
  | .journalResumed => Sys2Proof.Machine.execJournalResumed s
  | .sealWrite ini v => Sys2Proof.Machine.execSealWrite ini v s
  | .extentAge => Sys2Proof.Machine.execExtentAge s
  | .journalStop ini v => Sys2Proof.Machine.execJournalStop ini v s
  | .extentCopyDone => Sys2Proof.Machine.execExtentCopyDone s
  | .extentCopyFail => Sys2Proof.Machine.execExtentCopyFail s
  | .extentAck ini v => Sys2Proof.Machine.execExtentAck ini v s
  | .extentFree ini v => Sys2Proof.Machine.execExtentFree ini v s
  | .extentQuery ini v => Sys2Proof.Machine.execExtentQuery ini v s
  | .noteGo ini v => Sys2Proof.Machine.execNoteGo ini v s
  | .noteAccept => Sys2Proof.Machine.execNoteAccept s
  | .windowWrite ini w k v => Sys2Proof.Machine.execWindowWrite ini w k v s
  | .unsupportedRequest mem dw0 addr => Sys2Proof.Machine.execUnsupportedRequest mem dw0 addr s
  | .tlpReceiveError bad dw0 => Sys2Proof.Machine.execTlpReceiveError bad dw0 s
  | .completionTimeout tag => Sys2Proof.Machine.execCompletionTimeout tag s
  | .flr => Sys2Proof.Machine.execFlr s
  | .flrReadCutoff => Sys2Proof.Machine.execFlrReadCutoff s
  | .flrComplete => Sys2Proof.Machine.execFlrComplete s
  | .hostLinkDown cause => Sys2Proof.Machine.execHostLinkDown cause s
  | .hostLinkUp speed width => Sys2Proof.Machine.execHostLinkUp speed width s
  | .linkSpeedChange speed width => Sys2Proof.Machine.execLinkSpeedChange speed width s
  | .dstateChange d3 pmeEn clearPme => Sys2Proof.Machine.execDstateChange d3 pmeEn clearPme s
  | .msixUnmask w => Sys2Proof.Machine.execMsixUnmask w s
  | .l1Entry => Sys2Proof.Machine.execL1Entry s
  | .l0pDecision up down upNow downNow => Sys2Proof.Machine.execL0pDecision up down upNow downNow s
  | .movTailWrite ini c v => Sys2Proof.Machine.execMovTailWrite ini c v s
  | .movEnable ini c v => Sys2Proof.Machine.execMovEnable ini c v s
  | .moverRunStart => Sys2Proof.Machine.execMoverRunStart s
  | .moverRunEnd => Sys2Proof.Machine.execMoverRunEnd s
  | .movResume ini c v => Sys2Proof.Machine.execMovResume ini c v s
  | .movAbort ini c v => Sys2Proof.Machine.execMovAbort ini c v s
  | .mainResetRelease bootSel jedec record => Sys2Proof.Machine.execMainResetRelease bootSel jedec record s
  | .loadGo ini v => Sys2Proof.Machine.execLoadGo ini v s
  | .imageApply first second => Sys2Proof.Machine.execImageApply first second s
  | .prepGo ini v => Sys2Proof.Machine.execPrepGo ini v s
  | .prepared c => Sys2Proof.Machine.execPrepared c s
  | .arm ini v => Sys2Proof.Machine.execArm ini v s
  | .armed => Sys2Proof.Machine.execArmed s
  | .ownerCut at' => Sys2Proof.Machine.execOwnerCut at' s
  | .cutForced at' => Sys2Proof.Machine.execCutForced at' s
  | .cfgAbort ini v => Sys2Proof.Machine.execCfgAbort ini v s
  | .floorCommit ini v => Sys2Proof.Machine.execFloorCommit ini v s
  | .flashRead ini v => Sys2Proof.Machine.execFlashRead ini v s
  | .flashProgram ini v => Sys2Proof.Machine.execFlashProgram ini v s
  | .flashErase ini v => Sys2Proof.Machine.execFlashErase ini v s
  | .flashDone err => Sys2Proof.Machine.execFlashDone err s
  | .coreInstruction n ecc => Sys2Proof.Machine.execCoreInstruction n ecc s
  | .coreReset ini n v => Sys2Proof.Machine.execCoreReset ini n v s
  | .wdogKick ini n v => Sys2Proof.Machine.execWdogKick ini n v s
  | .wdogExpire n => Sys2Proof.Machine.execWdogExpire n s
  | .machineTimer n => Sys2Proof.Machine.execMachineTimer n s
  | .msipWrite ini n v => Sys2Proof.Machine.execMsipWrite ini n v s
  | .dinv ini n v => Sys2Proof.Machine.execDinv ini n v s
  | .mbxDoorbell ini v => Sys2Proof.Machine.execMbxDoorbell ini v s
  | .mailboxClear ini n v => Sys2Proof.Machine.execMailboxClear ini n v s
  | .mbxOutGo ini v => Sys2Proof.Machine.execMbxOutGo ini v s
  | .mbxAck ini v => Sys2Proof.Machine.execMbxAck ini v s
  | .powerUp elapsed => Sys2Proof.Machine.execPowerUp elapsed s
  | .powerFail channels => Sys2Proof.Machine.execPowerFail channels s
  | .resetNAssert => Sys2Proof.Machine.execResetNAssert s
  | .softwareReset ini v => Sys2Proof.Machine.execSoftwareReset ini v s
  | .mainPowerLoss cell => Sys2Proof.Machine.execMainPowerLoss cell s
  | .pwrTargetWrite ini v => Sys2Proof.Machine.execPwrTargetWrite ini v s
  | .drainComplete => Sys2Proof.Machine.execDrainComplete s
  | .powerStateReached => Sys2Proof.Machine.execPowerStateReached s
  | .captureReady => Sys2Proof.Machine.execCaptureReady s
  | .wake src => Sys2Proof.Machine.execWake src s
  | .alarm => Sys2Proof.Machine.execAlarm s
  | .twb0WakeMatch addr => Sys2Proof.Machine.execTwb0WakeMatch addr s
  | .twb0WakeRelease => Sys2Proof.Machine.execTwb0WakeRelease s
  | .clk32XtSwitch => Sys2Proof.Machine.execClk32XtSwitch s
  | .clk32Fail => Sys2Proof.Machine.execClk32Fail s
  | .supplyConversion k value => Sys2Proof.Machine.execSupplyConversion k value s
  | .bkWrite ini k v => Sys2Proof.Machine.execBkWrite ini k v s
  | .bkCommit => Sys2Proof.Machine.execBkCommit s
  | .revalidate ini v => Sys2Proof.Machine.execRevalidate ini v s
  | .coarseLoad => Sys2Proof.Machine.execCoarseLoad s
  | .vbakLow => Sys2Proof.Machine.execVbakLow s
  | .oscStop => Sys2Proof.Machine.execOscStop s
  | .safetyChange ch a b => Sys2Proof.Machine.execSafetyChange ch a b s
  | .safetyDiscrepancy ch => Sys2Proof.Machine.execSafetyDiscrepancy ch s
  | .safeAck ini ch v => Sys2Proof.Machine.execSafeAck ini ch v s
  | .thermalTrip sensor => Sys2Proof.Machine.execThermalTrip sensor s
  | .thermtripRelease => Sys2Proof.Machine.execThermtripRelease s
  | .dramRepairGo ini v => Sys2Proof.Machine.execDramRepairGo ini v s
  | .dramRowRepair => Sys2Proof.Machine.execDramRowRepair s
  | .testSchedule pick => Sys2Proof.Machine.execTestSchedule pick s
  | .tileTestGo ini v => Sys2Proof.Machine.execTileTestGo ini v s
  | .tileTestDone p pass => Sys2Proof.Machine.execTileTestDone p pass s
  | .migrateRequest ini v => Sys2Proof.Machine.execMigrateRequest ini v s
  | .migrateStart target fit => Sys2Proof.Machine.execMigrateStart target fit s
  | .migrateCopy poison => Sys2Proof.Machine.execMigrateCopy poison s
  | .migrateShadowLine seq check equal quick => Sys2Proof.Machine.execMigrateShadowLine seq check equal quick s
  | .migrateCut seq => Sys2Proof.Machine.execMigrateCut seq s
  | .migrateIdleCut => Sys2Proof.Machine.execMigrateIdleCut s
  | .ageMeasure ppm => Sys2Proof.Machine.execAgeMeasure ppm s
  | .marginSample m => Sys2Proof.Machine.execMarginSample m s
  | .avsStep => Sys2Proof.Machine.execAvsStep s
  | .droop r monitor ps => Sys2Proof.Machine.execDroop r monitor ps s
  | .twbXferGo ini n v => Sys2Proof.Machine.execTwbXferGo ini n v s
  | .twbProbe ini n v => Sys2Proof.Machine.execTwbProbe ini n v s
  | .twbXferDone n how => Sys2Proof.Machine.execTwbXferDone n how s
  | .twbTargetWrite bytes => Sys2Proof.Machine.execTwbTargetWrite bytes s
  | .twbTargetRead count => Sys2Proof.Machine.execTwbTargetRead count s
  | .rxFullClear ini v => Sys2Proof.Machine.execRxFullClear ini v s
  | .txReadySet ini v => Sys2Proof.Machine.execTxReadySet ini v s
  | .ibrDetect n us => Sys2Proof.Machine.execIbrDetect n us s
  | .ibrGo ini v => Sys2Proof.Machine.execIbrGo ini v s
  | .sclLowTimeout n us k => Sys2Proof.Machine.execSclLowTimeout n us k s
  | .sdaLowTimeout n us pulses ok => Sys2Proof.Machine.execSdaLowTimeout n us pulses ok s
  | .twbMeasGo ini n v => Sys2Proof.Machine.execTwbMeasGo ini n v s
  | .twbMeasDone n rise => Sys2Proof.Machine.execTwbMeasDone n rise s
  | .podStart ini v => Sys2Proof.Machine.execPodStart ini v s
  | .podTimedStart => Sys2Proof.Machine.execPodTimedStart s
  | .podStop ini v => Sys2Proof.Machine.execPodStop ini v s
  | .podStepEnd b e pins => Sys2Proof.Machine.execPodStepEnd b e pins s
  | .podFeedWrite ini b e v => Sys2Proof.Machine.execPodFeedWrite ini b e v s
  | .podCatchRead ini b e => Sys2Proof.Machine.execPodCatchRead ini b e s
  | .podCueSet ini b v => Sys2Proof.Machine.execPodCueSet ini b v s
  | .gpioSet ini v => Sys2Proof.Machine.execGpioSet ini v s
  | .gpioClr ini v => Sys2Proof.Machine.execGpioClr ini v s
  | .gpioEdge pin level => Sys2Proof.Machine.execGpioEdge pin level s
  | .encoderCount e a b => Sys2Proof.Machine.execEncoderCount e a b s
  | .encIndex e level => Sys2Proof.Machine.execEncIndex e level s
  | .encPosWrite ini e v count => Sys2Proof.Machine.execEncPosWrite ini e v count s
  | .stbPulseStart k => Sys2Proof.Machine.execStbPulseStart k s
  | .stbPulseEnd k => Sys2Proof.Machine.execStbPulseEnd k s
  | .stbPwmPeriod k => Sys2Proof.Machine.execStbPwmPeriod k s
  | .stbLoadMeasure k ma => Sys2Proof.Machine.execStbLoadMeasure k ma s
  | .stbShort k => Sys2Proof.Machine.execStbShort k s
  | .stbFaultClear ini k v => Sys2Proof.Machine.execStbFaultClear ini k v s
  | .octetPllLock o => Sys2Proof.Machine.execOctetPllLock o s
  | .strayBlock n kind inside => Sys2Proof.Machine.execStrayBlock n kind inside s
  | .unexpectedFrame typ f => Sys2Proof.Machine.execUnexpectedFrame typ f s
  | .triggerUnsent g => Sys2Proof.Machine.execTriggerUnsent g s
  | .busMasterEnable c => Sys2Proof.Machine.execBusMasterEnable c s
  | .twbBusFree n => Sys2Proof.Machine.execTwbBusFree n s
  | .debugHalt n => Sys2Proof.Machine.execDebugHalt n s
  | .debugResume n => Sys2Proof.Machine.execDebugResume n s
  | .vbakPor => Sys2Proof.Machine.execVbakPor s

end Sys2Proof.Machine
end

