-- ==== Sys2Proof/Machine/Idle.lean ====
section
/-! DEFINITION. What the device does when no command waits: its clocks go on, waiting stores of the cores may reach
memory, and the gateway goes on with requests that waited (R342, R407, R410, R419). -/
namespace Sys2Proof.Machine

/-- Raw ticks of one idle step: a tick of 500 MHz, or the 20 ticks of one TIME_REF cycle in REST; none where the time
keeper is off (R419). [DESIGN CHOICE, log 4] -/
def idleTicks (s : State) : Nat :=
  match s.ham.st with
  | .off => 0
  | .backup => 0
  | .rest => 20
  | _ => 1

/-- One idle step. [DESIGN CHOICE, log 4] -/
def idleStep : Eff := chain [
  rd fun s => act (.tick (idleTicks s)),
  drainSome,
  gatewayGoes]

end Sys2Proof.Machine
end

