-- ==== Sys2Proof/Safety.lean ====
section
/-! DEFINITION. What every reachable state of the device keeps: memories in canonical form, and the halts of EVT among its
faults. -/
namespace Sys2Proof.Machine

/-- A memory lists its bytes at rising addresses, and none that reads as an unlisted one does. -/
def Memory.wf : List Host.Cell → Bool
  | [] => true
  | [(_, b)] => b != 0#8
  | (a, b) :: (c, d) :: r => decide (a < c) && b != 0#8 && Memory.wf ((c, d) :: r)

/-- The keys of a list rise. -/
def rising {α : Type} : List (Nat × α) → Bool
  | [] => true
  | [_] => true
  | (a, _) :: (c, d) :: r => decide (a < c) && rising ((c, d) :: r)

/-- Every bit of `m` is a bit of `n`. -/
def maskIn (m n : Nat) : Prop := m &&& n = m

/-- The device's standing invariant: canonical memories, register words listed at rising offsets, and EVT_HALT within
EVT_FAULT (R491). -/
def State.Safe (s : State) : Prop :=
  Memory.wf s.mem = true ∧ Memory.wf s.hostMem = true ∧ rising s.regs = true ∧ maskIn s.evtHalt s.evtFault

/-! ## Accesses that arrive -/

/-- A register access of an initiator arrives at the register at an offset: the register exists, its block is powered, main
reset is released, and the endpoint takes the host's requests (R16, R347, R421, R519). -/
def Reaches (s : State) (ini : Ini) (off : Nat) : Prop :=
  s.mainReset = false ∧ blockPowered s (blockOf off) = true ∧ (ini = .host → takesRequests s = true ∧ gwBusy s = false)
    ∧ regionOf off ≠ 0xFF ∧ ((descAt off).isSome = true ∨ regionOf off = 0x30)

/-- A write of a register has no effect beyond the register's own fields. -/
def PlainWrite (ini : Ini) (off : Nat) (v : Word) : Prop :=
  (ownWrite ini off v).isNone = true ∧ off ≠ Reg.CFG_CTRL ∧ off ≠ Reg.CFG_FL_CTRL

/-- A read of a register has no effect beyond its answer and the initiator's latch: neither device time, nor a capture, nor
a caught word, nor the ledger is read (R8, R129, R152, R268, R475). -/
def PlainRead (off : Nat) : Prop :=
  off ≠ Reg.TIM_NOW_FRAC ∧ regionOf off ≠ 0x30 ∧ regIdx (Reg.TIM_CAP_FRAC 0) 0x20 16 off = none
    ∧ ∀ k < 8, off ≠ Reg.POD_E_CATCH (k / 4) (k % 4)

/-- A core in machine mode is about to fetch, at `pc` in the control SRAM, a 32-bit word that holds an instruction and no
ECC error, which PMP permits; no interrupt is taken, and no store waits. -/
def CoreReady (s : State) (n : Fin 4) (w : Nat) : Prop :=
  ccoOn s = true ∧ (s.ham.st = .watch ∨ s.ham.st = .run ∨ s.ham.st = .full) ∧ (coreOf s n).st = 1
    ∧ (coreOf s n).stores = [] ∧ irqCause s n = none ∧ (coreOf s n).machine = true
    ∧ 0x20000000 ≤ (coreOf s n).pc ∧ (coreOf s n).pc + 4 ≤ 0x20400000
    ∧ pmpAllows (coreOf s n) true (coreOf s n).pc 2 2 = true ∧ pmpAllows (coreOf s n) true ((coreOf s n).pc + 2) 2 2 = true
    ∧ poisoned s (coreOf s n).pc 4 = [] ∧ memNat s (coreOf s n).pc 4 = w ∧ w % 4 = 3

/-- A frame passes every check of the receiver: framing, length, class, addresses, credit and duplicate (R122). -/
def Accepts (s : State) (f : RxFrame) (typ : Nat) : Prop :=
  framingKind f typ = 0 ∧ headerKind s f typ true = 0 ∧ overCredit s f typ = false ∧ isDuplicate s f = false

/-- A device address lies in the ring of event records (R487). -/
def ringByte (s : State) (a : Nat) : Prop := ringBase s ≤ a ∧ a < ringBase s + 32 * ringSize s

/-! ## What commands leave alone -/

/-- A part of the state is the same in two states. -/
def Part.same (p : Part) (s t : State) : Prop :=
  match p with
  | .regs => t.regs = s.regs
  | .mem => t.mem = s.mem
  | .hostMem => t.hostMem = s.hostMem
  | .outs => t.outs = s.outs
  | .fresh => t.fresh = s.fresh
  | .latch => t.evtFault = s.evtFault ∧ t.evtHalt = s.evtHalt
  | .mainReset => t.mainReset = s.mainReset
  | .raw => t.raw = s.raw
  | .acc => t.acc = s.acc
  | .evt => t.evt = s.evt
  | .gw => t.gw = s.gw
  | .ham => t.ham = s.ham
  | .lne => t.lne = s.lne
  | .plk => t.plk = s.plk
  | .tim => t.tim = s.tim
  | .erg => t.erg = s.erg
  | .bch => t.bch = s.bch
  | .sei => t.sei = s.sei
  | .cmp => t.cmp = s.cmp
  | .nzl => t.nzl = s.nzl
  | .jrn => t.jrn = s.jrn
  | .mov => t.mov = s.mov
  | .cap => t.cap = s.cap
  | .taps => t.taps = s.taps
  | .store => t.store = s.store
  | .per => t.per = s.per
  | .cfg => t.cfg = s.cfg
  | .cco => t.cco = s.cco

/-- Every part of the state. -/
def allParts : List Part :=
  [.regs, .mem, .hostMem, .outs, .fresh, .latch, .mainReset, .raw, .acc, .evt, .gw, .ham, .lne, .plk, .tim, .erg,
    .bch, .sei, .cmp, .nzl, .jrn, .mov, .cap, .taps, .store, .per, .cfg, .cco]

/-- The parts that an event may change: the record and its ring, the latches, the message to the host, and the strobes it
cuts. -/
def eventParts : List Part := [.regs, .mem, .outs, .latch, .evt, .gw, .per]

/-- The parts of the state that a command may change. -/
def touches : Instr → List Part
  | .registerWrite .. | .lockSet .. | .wideWriteApply .. | .unmappedAccess .. | .levelWrite .. | .tunnelAccept .. |
    .loadGo .. | .imageApply .. | .prepGo .. | .prepared .. | .arm .. | .armed .. | .ownerCut .. | .cutForced .. |
    .cfgAbort .. | .floorCommit .. | .coreInstruction .. => allParts
  | .latchedRead .. | .rateHiWrite .. | .triggerGenEnable .. | .cycleEnable .. | .capturePop .. => eventParts ++
    [.fresh, .acc, .tim]
  | .levelBoundary .. => [.acc]
  | .evtHeadWrite .. | .evtFaultClear .. | .evtCorePendClear .. | .evtIntClear .. | .podFeedWrite .. | .podCatchRead
    .. | .gpioSet .. | .gpioClr .. => eventParts ++ [.fresh]
  | .dlWindowEnd .. => [.evt]
  | .fclkStep .. => eventParts ++ [.fresh, .acc, .erg]
  | .tileEccUncorr .. => eventParts ++ [.ham, .erg, .bch, .store, .cfg]
  | .localEccCorr .. | .unsupportedRequest .. | .hostLinkUp .. | .linkSpeedChange .. | .powerFail .. | .twbTargetWrite
    .. | .twbTargetRead .. | .ibrDetect .. | .sclLowTimeout .. | .podTimedStart .. | .podStepEnd .. | .gpioEdge .. |
    .stbLoadMeasure .. | .stbShort .. => eventParts
  | .octetPowerWrite .. | .laneEnableWrite .. | .laneRetrain .. | .measGo .. => eventParts ++ [.fresh, .acc, .lne,
    .plk, .tim]
  | .autoRetrainWrite .. => eventParts ++ [.fresh, .acc, .lne]
  | .signalDetected .. | .adaptDone .. | .quietEnd .. => [.lne]
  | .alignDone .. | .phaseTimeout .. | .trainSignalAbsent .. => eventParts ++ [.lne]
  | .measureDone .. => eventParts ++ [.fresh, .ham, .lne, .plk]
  | .retryTimer .. | .octetPllLock .. => [.regs, .lne]
  | .laneSignalLoss .. | .uncorrCodeword .. | .octetPllLoss .. => eventParts ++ [.lne, .plk, .tim]
  | .measDone .. => eventParts ++ [.fresh, .lne]
  | .eqAdaptStep .. => eventParts ++ [.acc, .lne]
  | .leanLaneWake .. | .wake .. | .alarm .. | .twb0WakeMatch .. | .safetyChange .. => eventParts ++ [.fresh, .ham,
    .erg, .bch]
  | .frameTransmit .. => [.regs, .outs, .plk, .tim, .nzl]
  | .creditSend .. | .aliveSend .. | .lostIntervalEnd .. | .refusedIntervalEnd .. | .tunnelSend .. | .syncOriginate ..
    | .delayReqSend .. => [.plk]
  | .aliveReceive .. | .corrAckReceive .. | .syncRelay .. => eventParts ++ [.plk, .tim, .nzl]
  | .aliveTimeout .. | .creditReceive .. | .helloReceive .. | .descReceive .. | .descTimeout .. | .byeReceive .. |
    .delayReqReceive .. | .delayRespReceive .. | .eventReceive .. | .unexpectedFrame .. => eventParts ++ [.plk, .tim]
  | .probe .. => [.acc, .plk]
  | .kick .. => eventParts ++ [.fresh, .acc, .plk, .tim]
  | .probeEnWrite .. | .tunnelGo .. | .cvuGo .. => eventParts ++ [.fresh, .acc, .plk]
  | .lineSegReceive .. => eventParts ++ [.acc, .plk, .tim, .sei, .jrn, .cap, .taps, .store, .cfg]
  | .frameEndReceive .. => eventParts ++ [.acc, .plk, .tim, .cap, .cfg]
  | .syncReceive .. | .ptmDialogDone .. | .ppsEdge .. => eventParts ++ [.acc, .plk, .tim, .nzl, .jrn, .cap, .taps,
    .store]
  | .corrResend .. => [.plk, .nzl]
  | .regRdRespReceive .. | .regWrRespReceive .. => eventParts ++ [.fresh, .plk, .tim]
  | .partnerWindowRead .. | .partnerWindowWrite .. => eventParts ++ [.fresh, .plk]
  | .tunTimeout .. | .cvuDone .. | .strayBlock .. => eventParts ++ [.plk]
  | .timNowRead .. | .limYWrite .. | .rsTailWrite .. | .movTailWrite .. | .mailboxClear .. | .mbxOutGo .. | .mbxAck ..
    | .twbXferGo .. | .twbProbe .. | .rxFullClear .. | .txReadySet .. | .ibrGo .. | .twbMeasGo .. | .podStart .. |
    .podStop .. | .podCueSet .. | .stbFaultClear .. => eventParts ++ [.fresh, .acc]
  | .adjGo .. => eventParts ++ [.fresh, .acc, .plk, .tim, .nzl, .jrn, .cap, .taps, .store]
  | .ptmDialogStart .. | .ppsOutPulse .. | .timePulse .. => [.outs, .tim]
  | .sourceAbsent .. => eventParts ++ [.tim, .jrn]
  | .slewEnd .. | .velocityTimeout .. => [.tim]
  | .syncRelayDrop .. | .captureEdge .. => eventParts ++ [.tim]
  | .jobStart .. => eventParts ++ [.fresh, .acc, .tim, .jrn]
  | .triggerForm .. | .triggerFormTime .. | .triggerUnsent .. => eventParts ++ [.plk, .tim, .cap]
  | .triggerEgress .. => eventParts ++ [.fresh, .tim, .cap]
  | .cycleStart .. => [.acc, .tim, .nzl, .cfg]
  | .missingLineTimeout .. => eventParts ++ [.plk, .cap]
  | .unpackLine .. => eventParts ++ [.plk, .erg, .cap]
  | .blackLine .. | .wbalLine .. => eventParts ++ [.erg, .cap]
  | .dpcLine .. | .flatLine .. => eventParts ++ [.erg, .cap, .store, .cco]
  | .cmatLine .. => [.regs, .erg, .cap]
  | .toneLine .. => eventParts ++ [.erg, .sei, .cap, .taps]
  | .calGo .. | .bankSwitchGo .. => eventParts ++ [.fresh, .acc, .cap]
  | .tapFrameStart .. => eventParts ++ [.acc, .taps, .store, .cco]
  | .cropLine .. => [.regs, .erg, .taps]
  | .scaleLine .. => [.erg, .taps]
  | .packLine .. => eventParts ++ [.erg, .taps, .store]
  | .spillDrain .. => eventParts ++ [.store]
  | .seifWarpLine .. => eventParts ++ [.fresh, .erg, .sei, .taps, .store]
  | .seifRowEmit .. => eventParts ++ [.fresh, .acc, .erg, .sei, .cfg]
  | .cameraStall .. | .modelApply .. => eventParts ++ [.sei]
  | .barApplyGo .. => eventParts ++ [.fresh, .acc, .sei]
  | .markLine .. => [.regs, .erg, .sei, .store]
  | .webBreakLine .. => eventParts ++ [.erg, .sei]
  | .refEntryRead .. => eventParts ++ [.cmp]
  | .refFetchStart .. => [.cmp, .mov]
  | .refFetchDone .. => eventParts ++ [.cmp, .mov]
  | .cmpRowEnter .. => eventParts ++ [.acc, .sei, .cmp, .nzl, .taps, .store, .cfg, .cco]
  | .refRenderRow .. | .regSearchRow .. => eventParts ++ [.erg, .cmp]
  | .refBlurRow .. | .diffTolRow .. => [.erg, .cmp]
  | .clusterRow .. => eventParts ++ [.erg, .cmp, .store]
  | .lutReload .. => eventParts ++ [.fresh, .acc, .cmp]
  | .lutReloadRun .. => eventParts ++ [.cmp, .store]
  | .nzStripeMeasure .. => eventParts ++ [.erg, .nzl]
  | .nzResidRow .. => [.regs, .mem, .fresh, .erg, .cmp, .nzl, .store, .cco]
  | .cycleClose .. => eventParts ++ [.fresh, .plk, .erg, .nzl, .store, .cco]
  | .dcompDeadline .. => eventParts ++ [.nzl, .store, .cco]
  | .corrCommit .. => [.nzl]
  | .ledgerWrite .. => eventParts ++ [.fresh, .acc, .nzl, .store, .cco]
  | .sideEnable .. => eventParts ++ [.fresh, .acc, .nzl]
  | .alloc .. | .free .. | .give .. | .query .. | .rqFlush .. | .rqEnable .. | .rqHeadWrite .. => eventParts ++
    [.fresh, .acc, .store]
  | .apertureAccess .. => eventParts ++ [.fresh, .bch, .store, .cco]
  | .scrubStep .. => eventParts ++ [.acc, .bch, .store]
  | .rqPacketWrite .. => eventParts ++ [.hostMem, .store, .cco]
  | .rqNotifyTimeout .. | .rqBoundaryApply .. => [.regs, .outs, .gw, .store]
  | .journalEnable .. | .sealWrite .. | .journalStop .. | .windowWrite .. => eventParts ++ [.fresh, .acc, .jrn, .mov,
    .store, .cco]
  | .recordAccept .. | .noteAccept .. => eventParts ++ [.acc, .jrn, .mov, .store, .cco]
  | .journalResumed .. => eventParts ++ [.acc, .jrn, .mov, .taps, .store, .cco]
  | .extentAge .. => eventParts ++ [.jrn, .mov, .store, .cco]
  | .extentCopyDone .. | .extentCopyFail .. => eventParts ++ [.jrn, .mov, .taps, .store, .cco]
  | .extentAck .. | .extentFree .. | .extentQuery .. => eventParts ++ [.fresh, .acc, .jrn, .store, .cco]
  | .noteGo .. => eventParts ++ [.fresh, .acc, .jrn]
  | .tlpReceiveError .. | .completionTimeout .. | .flrReadCutoff .. => eventParts ++ [.hostMem, .fresh, .mov, .store,
    .cco]
  | .flr .. => [.regs, .gw]
  | .flrComplete .. | .hostLinkDown .. | .movEnable .. | .movResume .. | .movAbort .. => eventParts ++ [.hostMem,
    .fresh, .acc, .mov, .store, .cco]
  | .dstateChange .. => eventParts ++ [.hostMem]
  | .msixUnmask .. => eventParts ++ [.hostMem, .fresh]
  | .l1Entry .. => [.outs]
  | .l0pDecision .. => [.outs, .acc, .gw]
  | .moverRunStart .. => eventParts ++ [.hostMem, .acc, .mov, .store, .cco]
  | .moverRunEnd .. => eventParts ++ [.hostMem, .mov, .store, .cco]
  | .mainResetRelease .. => eventParts ++ [.mainReset, .ham, .erg, .bch, .cfg]
  | .flashRead .. | .flashProgram .. | .flashErase .. => eventParts ++ [.fresh, .acc, .cfg]
  | .flashDone .. => eventParts ++ [.fresh, .store, .cfg, .cco]
  | .coreReset .. | .dinv .. => eventParts ++ [.fresh, .acc, .store, .cco]
  | .wdogKick .. | .msipWrite .. => eventParts ++ [.fresh, .acc, .cco]
  | .wdogExpire .. => eventParts ++ [.store, .cco]
  | .machineTimer .. | .debugHalt .. | .debugResume .. => [.cco]
  | .mbxDoorbell .. => eventParts ++ [.fresh, .acc, .ham, .erg, .bch, .cco]
  | .powerUp .. => allParts
  | .resetNAssert .. => allParts
  | .softwareReset .. | .supplyConversion .. => allParts
  | .mainPowerLoss .. => [.mainReset, .gw, .ham]
  | .pwrTargetWrite .. => eventParts ++ [.fresh, .acc, .ham, .erg, .bch]
  | .drainComplete .. => eventParts ++ [.ham, .plk, .erg, .bch, .sei, .cmp, .nzl, .cap, .taps, .store]
  | .powerStateReached .. | .thermalTrip .. => allParts
  | .captureReady .. => eventParts ++ [.fresh, .ham, .tim, .erg, .bch, .sei, .cmp, .nzl, .cap, .taps]
  | .twb0WakeRelease .. | .clk32XtSwitch .. | .bkCommit .. | .coarseLoad .. | .vbakLow .. | .oscStop .. |
    .thermtripRelease .. => [.ham]
  | .clk32Fail .. | .safetyDiscrepancy .. => eventParts ++ [.ham]
  | .bkWrite .. | .safeAck .. => eventParts ++ [.fresh, .ham]
  | .revalidate .. => eventParts ++ [.fresh, .acc, .ham]
  | .dramRepairGo .. => eventParts ++ [.fresh, .acc, .bch]
  | .dramRowRepair .. | .ageMeasure .. | .droop .. => eventParts ++ [.bch]
  | .testSchedule .. | .migrateCopy .. => [.erg, .bch]
  | .tileTestGo .. | .migrateRequest .. => eventParts ++ [.fresh, .acc, .erg, .bch]
  | .tileTestDone .. | .migrateStart .. | .migrateShadowLine .. | .migrateIdleCut .. => eventParts ++ [.fresh, .erg,
    .bch]
  | .migrateCut .. => eventParts ++ [.erg, .bch]
  | .marginSample .. => [.regs, .bch]
  | .avsStep .. => eventParts ++ [.acc, .erg, .bch]
  | .twbXferDone .. | .sdaLowTimeout .. | .twbMeasDone .. | .twbBusFree .. => eventParts ++ [.acc]
  | .encoderCount .. => eventParts ++ [.ham, .tim]
  | .encIndex .. => [.regs, .per]
  | .encPosWrite .. => eventParts ++ [.fresh, .acc, .ham, .tim]
  | .stbPulseStart .. => [.regs, .outs, .per]
  | .stbPulseEnd .. | .stbPwmPeriod .. => [.outs, .per]
  | .busMasterEnable .. => [.hostMem, .outs, .gw]
  | .vbakPor .. => [.fresh, .ham]

/-! ## The registers that commands may change -/

/-- An offset is some element of a register array. -/
def any1 (f : Nat → Nat) (o : Nat) : Prop := ∃ k, o = f k
/-- An offset is some element of a register array with two indices. -/
def any2 (f : Nat → Nat → Nat) (o : Nat) : Prop := ∃ j k, o = f j k

/-- The registers that an access or an event may count in: refused and unmapped accesses, and pulses cut short. -/
def accessRegs (o : Nat) : Prop := o = Reg.HGW_UR ∨ o = Reg.HGW_UNMAPPED ∨ any1 Reg.STB_MISSED o
/-- The tunnel's registers. -/
def tunRegs (o : Nat) : Prop :=
  any1 Reg.PLK_TUN_CTRL o ∨ any2 Reg.PLK_TUN_DATA o ∨ any1 Reg.PLK_TUN_STATUS o

/-- The registers that a received frame may change, with the tunnel's. -/
def rxRegs (o : Nat) : Prop :=
  o = Reg.PLK_LANE_ERR ∨ any1 Reg.PT_ERR o ∨ any1 Reg.PT_RX o ∨ any1 Reg.PLK_TUN_CTRL o ∨ any2 Reg.PLK_TUN_DATA o ∨
    any1 Reg.PLK_TUN_STATUS o

/-- The registers of uncorrectable memory errors. -/
def eccRegs (o : Nat) : Prop :=
  o = Reg.MEM_ECC_UNCORR ∨ o = Reg.MEM_ERR_ADDR_HI ∨ o = Reg.MEM_ERR_ADDR_LO

/-- The registers of tile tests and of the map. -/
def testRegs (o : Nat) : Prop :=
  o = Reg.BCH_MAP_STATUS ∨ o = Reg.BCH_TESTS ∨ o = Reg.BCH_TEST_CTRL ∨ o = Reg.BCH_TEST_FAILS

/-- A Mover channel's registers, and the cores' bits for it. -/
def channelRegs (o : Nat) : Prop :=
  any1 Reg.MOV_CH_CTRL o ∨ any1 Reg.MOV_CH_DONE o ∨ any1 Reg.MOV_CH_ERR o ∨ any1 Reg.MOV_CH_HEAD o ∨ any1
    Reg.MOV_CH_RESULT o ∨ any1 Reg.MOV_CH_STATUS o ∨ any1 Reg.CCO_MOV_PEND_LO o ∨ any1 Reg.CCO_MOV_PEND_HI o

/-- The registers of an extent's sealing. -/
def sealRegs (o : Nat) : Prop :=
  o = Reg.JRN_CTRL ∨ any1 Reg.JRN_RECORDS o ∨ o = Reg.JRN_SEAL_SEQ

/-- The ownership ports' registers. -/
def portRegs (o : Nat) : Prop :=
  any1 Reg.MEM_AP_CTRL o ∨ any1 Reg.MEM_AP_INDEX o ∨ any1 Reg.MEM_AP_OWNER o ∨ any1 Reg.MEM_AP_STATUS o

/-- The rate of device time. -/
def rateRegs (o : Nat) : Prop :=
  o = Reg.TIM_RATE_HI ∨ o = Reg.TIM_RATE_LO

/-- A slice's running results. -/
def sliceRegs (o : Nat) : Prop :=
  any2 Reg.CMP_SL_COST o ∨ any2 Reg.CMP_SL_EST o ∨ any2 Reg.CMP_SL_TEX o

/-- A bus transfer's registers. -/
def xferRegs (o : Nat) : Prop :=
  any1 Reg.TWB_ERRS o ∨ any1 Reg.TWB_XFER o ∨ any1 Reg.TWB_XFERS o ∨ o = Reg.TWB_TGT_CTRL

/-- The registers that a command may change. Writes of any register, cores' instructions, images, resets and changes of power
may change every one. -/
def mayChange (c : Instr) (o : Nat) : Prop :=
  match c with
  | .latchedRead .. => accessRegs o ∨ eccRegs o ∨ any1 Reg.POD_CUES o ∨ any2 Reg.POD_E_LOST o
  | .levelBoundary .. | .dlWindowEnd .. | .signalDetected .. | .adaptDone .. | .quietEnd .. | .creditSend .. |
    .aliveSend .. | .probe .. | .lostIntervalEnd .. | .refusedIntervalEnd .. | .corrResend .. | .tunnelSend .. |
    .ptmDialogStart .. | .slewEnd .. | .ppsOutPulse .. | .timePulse .. | .syncOriginate .. | .delayReqSend .. |
    .velocityTimeout .. | .cycleStart .. | .scaleLine .. | .refFetchStart .. | .refBlurRow .. | .diffTolRow .. |
    .corrCommit .. | .l1Entry .. | .l0pDecision .. | .machineTimer .. | .mainPowerLoss .. | .twb0WakeRelease .. |
    .clk32XtSwitch .. | .bkCommit .. | .coarseLoad .. | .vbakLow .. | .oscStop .. | .thermtripRelease .. |
    .testSchedule .. | .migrateCopy .. | .stbPulseEnd .. | .stbPwmPeriod .. | .busMasterEnable .. | .debugHalt .. |
    .debugResume .. | .vbakPor .. => False
  | .evtHeadWrite .. => o = Reg.EVT_Q_HEAD ∨ accessRegs o
  | .evtFaultClear .. => o = Reg.EVT_FAULT ∨ accessRegs o
  | .evtCorePendClear .. => o = Reg.EVT_CORE_PEND ∨ accessRegs o
  | .evtIntClear .. => o = Reg.EVT_INT ∨ accessRegs o
  | .fclkStep .. | .spillDrain .. | .cameraStall .. | .dstateChange .. | .powerFail .. | .clk32Fail .. | .avsStep ..
    => any1 Reg.STB_MISSED o
  | .tileEccUncorr .. => any1 Reg.STB_MISSED o ∨ o = Reg.CFG_CTRL
  | .localEccCorr .. => any1 Reg.STB_MISSED o ∨ o = Reg.ERG_ECC_CORR
  | .octetPowerWrite _ k _ => o = Reg.LNE_OCT_CTRL k ∨ accessRegs o ∨ tunRegs o ∨ any1 Reg.LNE_LN_CTRL o
  | .laneEnableWrite .. | .laneRetrain .. | .measGo .. => accessRegs o ∨ tunRegs o ∨ any1 Reg.LNE_LN_CTRL o
  | .autoRetrainWrite .. => o = Reg.LNE_CTRL ∨ accessRegs o ∨ any1 Reg.LNE_LN_CTRL o
  | .alignDone .. | .measureDone .. | .phaseTimeout .. | .trainSignalAbsent .. | .measDone .. => any1 Reg.STB_MISSED o
    ∨ any1 Reg.LNE_LN_CTRL o
  | .retryTimer .. | .octetPllLock .. => any1 Reg.LNE_LN_CTRL o
  | .laneSignalLoss .. | .octetPllLoss .. => any1 Reg.STB_MISSED o ∨ tunRegs o ∨ any1 Reg.LNE_LN_CTRL o
  | .uncorrCodeword .. => any1 Reg.STB_MISSED o ∨ tunRegs o ∨ any1 Reg.LNE_LN_CTRL o ∨ any1 Reg.LNE_LN_FEC_UNCORR o ∨
    o = Reg.PLK_LANE_ERR ∨ any1 Reg.PT_ERR o
  | .eqAdaptStep .. => any1 Reg.STB_MISSED o ∨ any1 Reg.LNE_LN_FEC_CORR o
  | .leanLaneWake .. | .twb0WakeMatch .. => any1 Reg.STB_MISSED o ∨ testRegs o ∨ o = Reg.HAM_WAKE_STATUS
  | .frameTransmit .. => any1 Reg.PT_TX o
  | .aliveReceive .. | .creditReceive .. | .helloReceive .. | .descReceive .. | .byeReceive .. | .delayReqReceive .. |
    .eventReceive .. | .corrAckReceive .. | .regRdRespReceive .. | .regWrRespReceive .. | .unexpectedFrame .. => any1
    Reg.STB_MISSED o ∨ rxRegs o
  | .aliveTimeout .. | .descTimeout .. | .tunTimeout .. => any1 Reg.STB_MISSED o ∨ tunRegs o
  | .kick .. => accessRegs o ∨ tunRegs o ∨ any1 Reg.PT_CTRL o
  | .probeEnWrite .. => o = Reg.PLK_CTRL ∨ accessRegs o
  | .lineSegReceive .. => any1 Reg.STB_MISSED o ∨ rxRegs o ∨ any2 Reg.CAP_COUNTS o ∨ any1 Reg.CAP_FRAME_NOW o ∨ any1
    Reg.CAP_SW o
  | .frameEndReceive .. => any1 Reg.STB_MISSED o ∨ rxRegs o ∨ any2 Reg.CAP_COUNTS o ∨ any1 Reg.CAP_FRAME_NOW o
  | .syncReceive .. => any1 Reg.STB_MISSED o ∨ rxRegs o ∨ rateRegs o
  | .delayRespReceive .. => any1 Reg.STB_MISSED o ∨ rxRegs o ∨ any1 Reg.PT_DELAY o
  | .partnerWindowRead .. | .partnerWindowWrite .. | .tunnelGo .. => accessRegs o ∨ tunRegs o
  | .cvuGo .. => accessRegs o ∨ any1 Reg.CVU_U_CTRL o ∨ any1 Reg.CVU_U_STATUS o
  | .cvuDone .. => any1 Reg.STB_MISSED o ∨ eccRegs o ∨ any1 Reg.CVU_U_CTRL o ∨ any1 Reg.CVU_U_RESULT o ∨ any1
    Reg.CVU_U_STATUS o
  | .timNowRead .. | .capturePop .. | .ledgerWrite .. | .unsupportedRequest .. | .msixUnmask .. => accessRegs o
  | .adjGo .. => o = Reg.TIM_ADJ_GO ∨ accessRegs o
  | .rateHiWrite .. => o = Reg.TIM_RATE_HI ∨ accessRegs o ∨ o = Reg.TIM_RATE_LO
  | .ptmDialogDone .. | .ppsEdge .. | .sourceAbsent .. => any1 Reg.STB_MISSED o ∨ rateRegs o
  | .syncRelay .. => any1 Reg.STB_MISSED o ∨ any1 Reg.EVT_DL_MISS o ∨ any1 Reg.PT_TX o ∨ o = Reg.TIM_DSYNC_MISS
  | .syncRelayDrop .. => any1 Reg.STB_MISSED o ∨ any1 Reg.EVT_DL_MISS o ∨ o = Reg.TIM_DSYNC_MISS
  | .jobStart .. => o = Reg.TIM_JOB ∨ accessRegs o
  | .triggerGenEnable _ g _ => o = Reg.TIM_TRG_CTRL g ∨ accessRegs o
  | .triggerForm .. | .triggerFormTime .. => any1 Reg.STB_MISSED o ∨ any1 Reg.CAP_SW o ∨ any1 Reg.STB_PULSES o
  | .triggerEgress .. => accessRegs o ∨ any1 Reg.EVT_DL_MISS o ∨ o = Reg.TIM_DLINE_MISS
  | .cycleEnable .. => o = Reg.TIM_CYC_CTRL ∨ accessRegs o
  | .captureEdge .. => any1 Reg.STB_MISSED o ∨ any1 Reg.TIM_CAP_LOST o
  | .missingLineTimeout .. | .wbalLine .. => any1 Reg.STB_MISSED o ∨ any2 Reg.CAP_COUNTS o
  | .unpackLine .. => any1 Reg.STB_MISSED o ∨ any2 Reg.CAP_COUNTS o ∨ any1 Reg.CAP_FMT_ERR o ∨ any1 Reg.CAP_SW o
  | .blackLine .. | .dpcLine .. => any1 Reg.STB_MISSED o ∨ eccRegs o ∨ any2 Reg.CAP_COUNTS o
  | .flatLine .. => any1 Reg.STB_MISSED o ∨ eccRegs o ∨ any1 Reg.CAP_CAL_CTRL o ∨ any1 Reg.CAP_CAL_STATUS o ∨ any2
    Reg.CAP_COUNTS o
  | .cmatLine .. => any2 Reg.CAP_COUNTS o
  | .toneLine .. => any1 Reg.STB_MISSED o ∨ any2 Reg.CAP_COUNTS o ∨ any1 Reg.CAP_SW o
  | .calGo .. => accessRegs o ∨ any1 Reg.CAP_CAL_CTRL o ∨ any1 Reg.CAP_CAL_STATUS o
  | .bankSwitchGo .. => accessRegs o ∨ any1 Reg.CAP_SW o
  | .tapFrameStart .. | .refRenderRow .. => any1 Reg.STB_MISSED o ∨ eccRegs o
  | .cropLine .. => any2 Reg.OUT_LINES o
  | .packLine .. => any1 Reg.STB_MISSED o ∨ o = Reg.MEM_RES_DISCARDED ∨ o = Reg.MEM_RES_SPILLED ∨ any2 Reg.OUT_LINES o
  | .seifWarpLine .. => accessRegs o ∨ any1 Reg.MEM_RQ_FULL_CNT o ∨ any2 Reg.SEI_BAR_COUNTS o ∨ any2 Reg.SEI_CAM_LINES
    o
  | .seifRowEmit .. | .modelApply .. => any1 Reg.STB_MISSED o ∨ any2 Reg.SEI_BAR_COUNTS o
  | .barApplyGo _ b _ => o = Reg.SEI_BAR_APPLY b ∨ accessRegs o
  | .limYWrite _ b k _ => o = Reg.SEI_CAM_LIM_Y b k ∨ accessRegs o
  | .markLine .. => any1 Reg.MEM_RQ_FULL_CNT o ∨ any1 Reg.SEI_PM_COUNT o
  | .webBreakLine .. => any1 Reg.STB_MISSED o ∨ any1 Reg.SEI_WB_EDGE o
  | .rsTailWrite _ src _ => o = Reg.CMP_RS_TAIL src ∨ accessRegs o
  | .refEntryRead .. => any1 Reg.STB_MISSED o ∨ any2 Reg.CMP_RS_COUNTS o ∨ any1 Reg.CMP_RS_HEAD o ∨ any1
    Reg.CMP_RS_NEXT_TILE o
  | .refFetchDone .. => any1 Reg.STB_MISSED o ∨ any2 Reg.CMP_RS_COUNTS o
  | .cmpRowEnter .. => any1 Reg.STB_MISSED o ∨ any2 Reg.CMP_BAR_COUNTS o ∨ any1 Reg.EVT_DL_MISS o
  | .regSearchRow .. => any1 Reg.STB_MISSED o ∨ sliceRegs o ∨ any2 Reg.CMP_BAR_COUNTS o
  | .clusterRow .. => any1 Reg.STB_MISSED o ∨ any2 Reg.CMP_BAR_COUNTS o ∨ any1 Reg.CMP_BAR_REC_ID o ∨ o =
    Reg.MEM_RES_DISCARDED ∨ o = Reg.MEM_RES_SPILLED
  | .lutReload _ b _ => o = Reg.CMP_BAR_LUT_CFG b ∨ accessRegs o
  | .lutReloadRun .. => any1 Reg.STB_MISSED o ∨ eccRegs o ∨ any1 Reg.CMP_BAR_LUT_CFG o
  | .nzStripeMeasure .. => any1 Reg.STB_MISSED o ∨ any2 Reg.NZL_SD_COUNTS o
  | .nzResidRow .. => any2 Reg.NZL_SD_COUNTS o
  | .cycleClose .. => any1 Reg.STB_MISSED o ∨ eccRegs o ∨ any2 Reg.NZL_SD_COUNTS o
  | .dcompDeadline .. => any1 Reg.STB_MISSED o ∨ any1 Reg.EVT_DL_MISS o ∨ any1 Reg.NZL_MOD_MISS o ∨ any2
    Reg.NZL_SD_COUNTS o
  | .sideEnable _ side _ => o = Reg.NZL_SD_CTRL side ∨ accessRegs o
  | .alloc .. | .free .. | .give .. | .query .. => accessRegs o ∨ portRegs o
  | .apertureAccess .. => accessRegs o ∨ eccRegs o ∨ o = Reg.MEM_ECC_CORR ∨ o = Reg.BCH_MAP_STATUS
  | .scrubStep .. => any1 Reg.STB_MISSED o ∨ eccRegs o ∨ o = Reg.MEM_ECC_CORR ∨ o = Reg.BCH_MAP_STATUS
  | .rqPacketWrite .. => any1 Reg.STB_MISSED o ∨ any1 Reg.CCO_RQ_PEND_HI o ∨ any1 Reg.CCO_RQ_PEND_LO o ∨ any1
    Reg.EVT_DL_MISS o ∨ any1 Reg.MEM_RQ_PKTS o ∨ any2 Reg.OUT_LINES o
  | .rqNotifyTimeout .. => any1 Reg.CCO_RQ_PEND_HI o ∨ any1 Reg.CCO_RQ_PEND_LO o
  | .rqFlush _ q _ | .rqEnable _ q _ => o = Reg.MEM_RQ_CTRL q ∨ accessRegs o
  | .rqBoundaryApply .. => any1 Reg.CCO_RQ_PEND_HI o ∨ any1 Reg.CCO_RQ_PEND_LO o ∨ any1 Reg.MEM_RQ_CTRL o
  | .rqHeadWrite _ q _ => o = Reg.MEM_RQ_HEAD q ∨ accessRegs o
  | .journalEnable .. | .sealWrite .. | .journalStop .. => o = Reg.JRN_CTRL ∨ accessRegs o ∨ any1 Reg.JRN_RECORDS o ∨
    o = Reg.JRN_SEAL_SEQ
  | .recordAccept .. => any1 Reg.STB_MISSED o ∨ sealRegs o ∨ any1 Reg.EVT_DL_MISS o ∨ any2 Reg.OUT_LINES o
  | .journalResumed .. | .extentCopyDone .. | .extentCopyFail .. => any1 Reg.STB_MISSED o ∨ any1 Reg.JRN_RECORDS o ∨ o
    = Reg.JRN_SEAL_SEQ ∨ any2 Reg.OUT_LINES o
  | .extentAge .. | .noteAccept .. => any1 Reg.STB_MISSED o ∨ sealRegs o
  | .extentAck .. | .extentFree .. | .extentQuery .. => o = Reg.JRN_OP ∨ accessRegs o ∨ o = Reg.JRN_OP_STATUS
  | .noteGo .. => o = Reg.JRN_NOTE_GO ∨ accessRegs o
  | .windowWrite _ w k _ => o = Reg.JRN_WIN_CTRL w + 4 * k ∨ accessRegs o ∨ sealRegs o
  | .tlpReceiveError .. => any1 Reg.STB_MISSED o ∨ channelRegs o ∨ o = Reg.HGW_TLP_ERR
  | .completionTimeout .. => any1 Reg.STB_MISSED o ∨ channelRegs o ∨ o = Reg.HGW_CPL_TO
  | .flr .. => o = Reg.HGW_FLR
  | .flrReadCutoff .. => any1 Reg.STB_MISSED o ∨ channelRegs o ∨ any1 Reg.MEM_RQ_CTRL o
  | .hostLinkUp .. | .linkSpeedChange .. => any1 Reg.STB_MISSED o ∨ o = Reg.HGW_CAP_DOWN ∨ o = Reg.HGW_CAP_UP
  | .movTailWrite _ c _ => o = Reg.MOV_CH_TAIL c ∨ accessRegs o
  | .movEnable .. | .movResume .. | .movAbort .. => accessRegs o ∨ channelRegs o
  | .moverRunStart .. => any1 Reg.STB_MISSED o ∨ channelRegs o
  | .moverRunEnd .. => any1 Reg.STB_MISSED o ∨ channelRegs o ∨ eccRegs o ∨ o = Reg.MOV_BYTES_HI ∨ o = Reg.MOV_BYTES_LO
  | .mainResetRelease .. => any1 Reg.STB_MISSED o ∨ o = Reg.BCH_DRAM_STATUS ∨ o = Reg.BCH_HOURS ∨ o =
    Reg.BCH_MAP_STATUS ∨ o = Reg.BCH_TEST_SCHED ∨ any1 Reg.BCH_REGION o ∨ o = Reg.HGW_CAP_DOWN ∨ o = Reg.HGW_CAP_UP
  | .flashRead .. | .flashProgram .. | .flashErase .. => o = Reg.CFG_FL_CTRL ∨ accessRegs o
  | .flashDone .. => any1 Reg.STB_MISSED o ∨ eccRegs o ∨ o = Reg.CFG_FL_CTRL
  | .coreReset .. | .dinv .. => accessRegs o ∨ any1 Reg.CCO_CORE_CTRL o
  | .wdogKick _ n _ => o = Reg.CCO_WDG_KICK n ∨ accessRegs o
  | .wdogExpire .. => any1 Reg.STB_MISSED o ∨ any1 Reg.CCO_IRQ_PEND o ∨ any1 Reg.CCO_WDG_RESETS o
  | .msipWrite _ n _ => o = Reg.CCO_MSIP n ∨ accessRegs o
  | .mbxDoorbell .. => o = Reg.CCO_MBX_IN_DB ∨ accessRegs o ∨ testRegs o ∨ any1 Reg.CCO_IRQ_PEND o ∨ o =
    Reg.HAM_WAKE_STATUS
  | .mailboxClear _ n _ => o = Reg.CCO_IRQ_PEND n ∨ accessRegs o ∨ o = Reg.CCO_MBX_IN_DB
  | .mbxOutGo .. | .mbxAck .. => o = Reg.CCO_MBX_OUT_DB ∨ accessRegs o
  | .pwrTargetWrite .. => o = Reg.HAM_PWR_REQ ∨ accessRegs o ∨ testRegs o
  | .drainComplete .. => any1 Reg.STB_MISSED o ∨ o = Reg.BCH_MIG_ABANDONED ∨ any2 Reg.CAP_COUNTS o ∨ any2
    Reg.OUT_LINES o
  | .captureReady .. => any1 Reg.STB_MISSED o ∨ eccRegs o ∨ o = Reg.BCH_MAP_STATUS
  | .wake .. | .alarm .. => any1 Reg.STB_MISSED o ∨ testRegs o ∨ o = Reg.HAM_ALARM_EN ∨ o = Reg.HAM_WAKE_STATUS
  | .bkWrite _ k _ => o = Reg.HAM_BK_REG k ∨ accessRegs o
  | .revalidate .. => o = Reg.HAM_BK_CTRL ∨ accessRegs o
  | .safetyChange .. => any1 Reg.STB_MISSED o ∨ testRegs o ∨ o = Reg.GPIO_PEND ∨ any1 Reg.HAM_SAFE_COUNT o ∨ o =
    Reg.HAM_WAKE_STATUS
  | .safetyDiscrepancy .. | .gpioEdge .. => any1 Reg.STB_MISSED o ∨ o = Reg.GPIO_PEND
  | .safeAck _ i _ => o = Reg.HAM_SAFE_ACK i ∨ accessRegs o ∨ o = Reg.GPIO_PEND
  | .dramRepairGo .. => o = Reg.BCH_DRAM_CTRL ∨ accessRegs o
  | .dramRowRepair .. => any1 Reg.STB_MISSED o ∨ o = Reg.BCH_DRAM_CTRL ∨ o = Reg.BCH_DRAM_STATUS ∨ o =
    Reg.BCH_MAP_STATUS
  | .tileTestGo .. => o = Reg.BCH_TEST_CTRL ∨ accessRegs o ∨ o = Reg.BCH_MAP_STATUS ∨ o = Reg.BCH_TESTS ∨ o =
    Reg.BCH_TEST_FAILS
  | .tileTestDone .. => any1 Reg.STB_MISSED o ∨ testRegs o
  | .migrateRequest .. => o = Reg.BCH_MIG_CTRL ∨ accessRegs o ∨ o = Reg.BCH_MAP_STATUS ∨ o = Reg.BCH_MIG_ABANDONED
  | .migrateStart .. => any1 Reg.STB_MISSED o ∨ testRegs o ∨ o = Reg.BCH_MIG_ABANDONED ∨ o = Reg.BCH_MIG_CTRL
  | .migrateShadowLine .. => any1 Reg.STB_MISSED o ∨ o = Reg.BCH_MAP_STATUS ∨ o = Reg.BCH_MIG_ABANDONED
  | .migrateCut .. | .migrateIdleCut .. => any1 Reg.STB_MISSED o ∨ o = Reg.BCH_MAP_STATUS ∨ o = Reg.BCH_MIGRATIONS
  | .ageMeasure .. => any1 Reg.STB_MISSED o ∨ o = Reg.BCH_HOURS ∨ o = Reg.BCH_MAP_STATUS ∨ any1 Reg.BCH_REGION o
  | .marginSample .. => any1 Reg.BCH_REGION o
  | .droop .. => any1 Reg.STB_MISSED o ∨ o = Reg.BCH_DROOPS
  | .twbXferGo .. | .twbProbe .. => accessRegs o ∨ xferRegs o
  | .twbXferDone .. => any1 Reg.STB_MISSED o ∨ xferRegs o ∨ any2 Reg.TWB_RX o
  | .twbTargetWrite .. => any1 Reg.STB_MISSED o ∨ o = Reg.TWB_TGT_CTRL ∨ any1 Reg.TWB_TGT_RX o ∨ o =
    Reg.TWB_TGT_STATUS
  | .twbTargetRead .. | .twbBusFree .. => any1 Reg.STB_MISSED o ∨ o = Reg.TWB_TGT_CTRL
  | .rxFullClear .. => o = Reg.TWB_TGT_STATUS ∨ accessRegs o
  | .txReadySet .. | .ibrGo .. => o = Reg.TWB_TGT_CTRL ∨ accessRegs o
  | .ibrDetect .. => any1 Reg.STB_MISSED o ∨ any1 Reg.TWB_STATUS o ∨ o = Reg.TWB_TGT_CTRL
  | .sclLowTimeout .. => any1 Reg.STB_MISSED o ∨ any1 Reg.TWB_ERRS o ∨ any1 Reg.TWB_XFER o ∨ any1 Reg.TWB_XFERS o
  | .sdaLowTimeout .. => any1 Reg.STB_MISSED o ∨ xferRegs o
  | .twbMeasGo .. => accessRegs o ∨ any1 Reg.TWB_MEAS o ∨ o = Reg.TWB_TGT_CTRL
  | .twbMeasDone .. => any1 Reg.STB_MISSED o ∨ any1 Reg.TWB_CAP o ∨ any1 Reg.TWB_MEAS o ∨ o = Reg.TWB_TGT_CTRL ∨ any1
    Reg.TWB_TR o
  | .podStart .. => o = Reg.POD_START ∨ accessRegs o ∨ any1 Reg.POD_CUES o
  | .podTimedStart .. => any1 Reg.STB_MISSED o ∨ any1 Reg.POD_CUES o ∨ o = Reg.POD_START
  | .podStop .. => o = Reg.POD_STOP ∨ accessRegs o ∨ o = Reg.POD_START
  | .podStepEnd .. => any1 Reg.STB_MISSED o ∨ any1 Reg.POD_CUES o
  | .podFeedWrite _ b e _ => o = Reg.POD_E_FEED b e ∨ accessRegs o ∨ any1 Reg.POD_CUES o ∨ any2 Reg.POD_E_LOST o
  | .podCatchRead .. => accessRegs o ∨ any1 Reg.POD_CUES o ∨ any2 Reg.POD_E_LOST o
  | .podCueSet .. => accessRegs o ∨ any1 Reg.POD_CUES o
  | .gpioSet .. => o = Reg.GPIO_SET ∨ accessRegs o ∨ o = Reg.GPIO_OUT ∨ o = Reg.GPIO_PEND
  | .gpioClr .. => o = Reg.GPIO_CLR ∨ accessRegs o ∨ o = Reg.GPIO_OUT ∨ o = Reg.GPIO_PEND
  | .encoderCount .. => any1 Reg.STB_MISSED o ∨ any1 Reg.ENC_ERR o ∨ any1 Reg.ENC_POS o ∨ o = Reg.TIM_JOB
  | .encIndex .. => any1 Reg.ENC_IDX_POS o ∨ any1 Reg.ENC_STATUS o
  | .encPosWrite .. => accessRegs o ∨ any1 Reg.ENC_ERR o ∨ any1 Reg.ENC_POS o ∨ o = Reg.TIM_JOB
  | .stbPulseStart .. => any1 Reg.STB_MISSED o ∨ any1 Reg.STB_PULSES o
  | .stbLoadMeasure .. => any1 Reg.STB_MISSED o ∨ any1 Reg.STB_CTRL o ∨ any1 Reg.STB_LOAD o
  | .stbShort .. => any1 Reg.STB_MISSED o ∨ any1 Reg.STB_CTRL o
  | .stbFaultClear _ k _ => o = Reg.STB_CTRL k ∨ accessRegs o
  | .strayBlock .. => any1 Reg.STB_MISSED o ∨ o = Reg.PLK_LANE_ERR ∨ any1 Reg.PT_ERR o
  | .triggerUnsent .. => any1 Reg.STB_MISSED o ∨ any1 Reg.EVT_DL_MISS o ∨ o = Reg.TIM_DLINE_MISS
  | .registerWrite .. | .lockSet .. | .wideWriteApply .. | .unmappedAccess .. | .levelWrite .. | .tunnelAccept .. |
    .flrComplete .. | .hostLinkDown .. | .loadGo .. | .imageApply .. | .prepGo .. | .prepared .. | .arm .. | .armed ..
    | .ownerCut .. | .cutForced .. | .cfgAbort .. | .floorCommit .. | .coreInstruction .. | .powerUp .. |
    .resetNAssert .. | .softwareReset .. | .powerStateReached .. | .supplyConversion .. | .thermalTrip .. => True

/-! ## Memory -/

/-- The commands that may store bytes of device memory outside the ring of event records: writes of any register, calibration
tables, packets and rings, the ledger and its journal copies, host and core accesses, the Mover, images and flash reads,
and the resets that clear memory. -/
def storesBytes : Instr → Bool
  | .registerWrite .. => true
  | .lockSet .. => true
  | .wideWriteApply .. => true
  | .unmappedAccess .. => true
  | .levelWrite .. => true
  | .tunnelAccept .. => true
  | .dpcLine .. => true
  | .flatLine .. => true
  | .tapFrameStart .. => true
  | .cmpRowEnter .. => true
  | .nzResidRow .. => true
  | .cycleClose .. => true
  | .dcompDeadline .. => true
  | .ledgerWrite .. => true
  | .apertureAccess .. => true
  | .rqPacketWrite .. => true
  | .journalEnable .. => true
  | .recordAccept .. => true
  | .journalResumed .. => true
  | .sealWrite .. => true
  | .extentAge .. => true
  | .journalStop .. => true
  | .extentCopyDone .. => true
  | .extentCopyFail .. => true
  | .extentAck .. => true
  | .extentFree .. => true
  | .extentQuery .. => true
  | .noteAccept .. => true
  | .windowWrite .. => true
  | .tlpReceiveError .. => true
  | .completionTimeout .. => true
  | .flrReadCutoff .. => true
  | .flrComplete .. => true
  | .hostLinkDown .. => true
  | .movEnable .. => true
  | .moverRunStart .. => true
  | .moverRunEnd .. => true
  | .movResume .. => true
  | .movAbort .. => true
  | .loadGo .. => true
  | .imageApply .. => true
  | .prepGo .. => true
  | .prepared .. => true
  | .arm .. => true
  | .armed .. => true
  | .ownerCut .. => true
  | .cutForced .. => true
  | .cfgAbort .. => true
  | .floorCommit .. => true
  | .flashDone .. => true
  | .coreInstruction .. => true
  | .coreReset .. => true
  | .wdogExpire .. => true
  | .dinv .. => true
  | .powerUp .. => true
  | .powerStateReached .. => true
  | .thermalTrip .. => true
  | _ => false

/-- An address lies among `n` bytes from a base. -/
def within (base n a : Nat) : Bool := decide (base ≤ a ∧ a < base + n)

/-- A byte of the extent index, or of the entry of an extent that is open or sealed (R317). -/
def indexByte (s : State) (a : Nat) : Bool :=
  within (indexAt s 0) (8 * jrnExtents s) a
    || (match s.jrn.ext with
        | some x => within (indexAt s x.extent) 8 a
        | none => false)
    || s.jrn.jobs.any fun j => within (indexAt s j.ext.extent) 8 a

/-- A byte of the index or of a staging buffer (R317, R321 to R323). -/
def journalByte (s : State) (a : Nat) : Bool :=
  indexByte s a || (upto (regFld s Reg.JRN_STAGE_CFG 5 0) ++ stagesUsed s).any fun k => within (stageAt s k) (2 ^ 24) a

/-- A byte of the entries of an operation's range (R325). -/
def opByte (s : State) (a : Nat) : Bool :=
  within (indexAt s (regFld s Reg.JRN_OP_EXT 27 0)) (8 * regFld s Reg.JRN_OP_COUNT 28 0) a
    && decide (a < indexAt s (jrnExtents s))

/-- A byte of the completion words of a channel's ring at HEAD or TAIL (R370). -/
def completionByte (s : State) (c a : Nat) : Bool := [chHead s c, chTail s c].any fun h =>
  within (regWide s (Reg.MOV_CH_RING_LO c) (Reg.MOV_CH_RING_HI c) % 2 ^ 40 + 32 * h + 24) 8 a

/-- A byte of the destination of the Mover's run, or of its completion word (R365, R370). -/
def moverByte (s : State) (a : Nat) : Bool := match s.mov.run with
  | some r => (!r.desc.dstHost && within r.desc.dst r.desc.dstBytes a) || completionByte s r.ch a
  | none => false

/-- A byte of the ring of the queue a producer's packets go to (R298 to R300); every byte where TAIL does not stand in the
ring on a multiple of 64. -/
def ringQueueByte (s : State) (k a : Nat) : Bool := match queueOf s k with
  | some q => rqDram s q && (within (rqBase s q) (rqSize s q) a
      || !decide ((rqOf s q).tail < rqSize s q ∧ (rqOf s q).tail % 64 = 0))
  | none => false

/-- The row that enters the comparator of a bar, with its row number (R233, R261). -/
def rowEntering (s : State) (b : Nat) : Option (Nat × List Nat) :=
  if regBit s (Reg.SEI_BAR_CTRL b) 31 then match (barOf s b).out with
    | .row x :: _ => some (x.r, x.data)
    | _ => none
  else (cmpTap s b).bind fun t => match (tapOf s t).route with
    | .line l :: _ => some ((lineIndex s (t / 4) l.tag.web).toNat, l.data)
    | _ => none

/-- A byte of the place in a bar's crop ring that the row takes (R261). -/
def cropByte (s : State) (b a : Nat) : Bool := match rowEntering s b with
  | some (r, data) => within (cropBase s b + r % cropDepth s b * (cropRow data).length) (cropRow data).length a
  | none => false

/-- A byte of the ledger entries of a side's nozzles (R265, R266). -/
def sideLedgerByte (s : State) (d a : Nat) : Bool :=
  (sideMods s d).any fun m => within (ledgerAt s (modBase s m)) (8 * modCount s m) a

/-- A byte of the accumulators of a side's nozzles (R272). -/
def sideAccByte (s : State) (d a : Nat) : Bool :=
  (sideMods s d).any fun m => within (accAt s (modBase s m)) (16 * modCount s m) a

/-- A byte of the G words that a running calibration writes (R175). -/
def calByte (s : State) (p a : Nat) : Bool := match lineAt s p 3, (pipeOf s p).cal with
  | some l, some c => (upto l.data.length).any fun i => within (flatAt s p c.bank + 4 * i) 2 a
  | _, _ => false

/-- A byte of the states of DPC for a line's columns (R170). -/
def dpcByte (s : State) (p a : Nat) : Bool := match lineAt s p 2 with
  | some l => within (regWide s (Reg.CAP_DPC_ST_LO p) (Reg.CAP_DPC_ST_HI p)) (2 * l.data.length) a
  | none => false

/-- The bytes of device memory, outside the ring of event records, that a command may store to. Every byte is named for
writes of any register, images, resets and core instructions, and for host accesses and flash reads, whose statements
name the bytes. -/
def storesAt (s : State) (c : Instr) (a : Nat) : Bool :=
  match c with
  | .dpcLine p => dpcByte s p a
  | .flatLine p => calByte s p a
  | .tapFrameStart t => tapScaled s t && within (coefAt s t) 2048 a
  | .cmpRowEnter b => cropByte s b a
  | .nzResidRow b => (sidesOf s b).any fun d => sideAccByte s d a
  | .cycleClose d => sideLedgerByte s d a || (sideOf s d).sums.any fun e => within (accAt s e.1) 16 a
  | .dcompDeadline d => sideLedgerByte s d a
  | .ledgerWrite _ n _ => within (ledgerAt s n.toNat) 8 a
  | .rqPacketWrite k => ringQueueByte s k.toNat a
  | .journalEnable .. | .recordAccept .. | .journalResumed .. | .sealWrite .. | .extentAge .. | .journalStop .. |
    .extentCopyDone .. | .extentCopyFail .. | .noteAccept .. | .windowWrite .. => journalByte s a
  | .extentAck .. | .extentFree .. | .extentQuery .. => opByte s a
  | .moverRunStart .. => match nextChannel s with
    | some n => completionByte s n a
    | none => false
  | .tlpReceiveError .. | .completionTimeout .. | .flrReadCutoff .. | .flrComplete .. | .hostLinkDown .. | .movEnable .. |
    .moverRunEnd .. | .movResume .. | .movAbort .. => moverByte s a
  | c => storesBytes c

end Sys2Proof.Machine
end

