-- ==== Sys2Proof/Certificates/Slice0/Obligations.lean ====
section
/-! DEFINITION. The statements for the provers: what each family of commands does to each kind of state, what every command
leaves alone, and the invariant that every step keeps. -/
open Sys2Proof Sys2Proof.Machine
/-! ## Events and deadlines -/

/-- Clearing EVT's summaries: a deadline-count window ends at a multiple of 2^29 raw ticks with counts of 0 (R496; the
place of the windows is the model's reading, log 23); writing 1 to EVT_INT clears PEND, and nothing else of the
device changes (R493); 1s written to EVT_CORE_PEND clear those bits (R493); 1s written to EVT_FAULT clear them there
and in EVT_HALT (R491); HEAD takes a value below SIZE that does not pass TAIL, and the records it passes leave the
queue (R488). -/
def Obligations.EventQueueCommands : Prop :=
  (∀ s : State, ∃ t, exec .dlWindowEnd s = .next t
    ∧ t = if s.raw / 2 ^ 29 = s.evt.windowNo then s
      else { s with evt := { s.evt with window := [0, 0, 0, 0, 0], burst := [], windowNo := s.raw / 2 ^ 29 } })
  ∧ (∀ (s : State) (ini : Ini) (v : Word), Reaches s ini Reg.EVT_INT → bit v 0 = true →
    ∃ t, exec (.evtIntClear ini v) s = .next t ∧ t = { s with evt := { s.evt with int := false } })
  ∧ (∀ (s : State) (ini : Ini) (v : Word), Reaches s ini Reg.EVT_CORE_PEND →
    ∃ t, exec (.evtCorePendClear ini v) s = .next t
      ∧ t = { s with evt := { s.evt with corePend := clearMask s.evt.corePend v.toNat } })
  ∧ (∀ (s : State) (ini : Ini) (v : Word), Reaches s ini Reg.EVT_FAULT →
    ∃ t, exec (.evtFaultClear ini v) s = .next t
      ∧ t.evtFault = clearMask s.evtFault (v.toNat % 2 ^ 20) ∧ t.evtHalt = clearMask s.evtHalt (v.toNat % 2 ^ 20))
  ∧ (∀ (s : State) (ini : Ini) (v : Word), Reaches s ini Reg.EVT_Q_HEAD → v.toNat < ringSize s →
    (v.toNat + ringSize s - s.evt.head) % ringSize s ≤ s.evt.ring.length → s.evt.overflow = false →
    ∃ t, exec (.evtHeadWrite ini v) s = .next t
      ∧ t = { s with evt := { s.evt with
          head := v.toNat
          ring := s.evt.ring.drop ((v.toNat + ringSize s - s.evt.head) % ringSize s) } })

/-! ## The Erg fabric -/

/-- At a step boundary each clock moves by at most 100 MHz (R43); a corrected local-memory error counts in ERG_ECC_CORR
unless STATS_FREEZE holds it (R40); an uncorrectable one marks the lines of the instance on the tile, which goes on,
and latches a FAULT of ERG (R40, R491), as one in a tile without an instance does (the model's choice, log 127). -/
def Obligations.FabricCommands : Prop :=
  (∀ s : State, mainPowered s = true → ∃ t, exec .fclkStep s = .next t
    ∧ t.erg.fclk ≤ s.erg.fclk + 100 ∧ s.erg.fclk ≤ t.erg.fclk + 100
    ∧ t.erg.oclk ≤ s.erg.oclk + 100 ∧ s.erg.oclk ≤ t.erg.oclk + 100)
  ∧ (∀ (s : State) (p : Fin 2304) (a : BitVec 12), ∃ t, exec (.localEccCorr p a) s = .next t
    ∧ regGet t Reg.ERG_ECC_CORR = if regBit s Reg.ERG_CTRL 4 then regGet s Reg.ERG_ECC_CORR
        else word (satAdd32 (regGet s Reg.ERG_ECC_CORR).toNat 1))
  ∧ (∀ (s : State) (p : Fin 2304) (n : Nat) (i : Inst), instOn s p = some (n, i) → i.shadow = false →
    s.erg.spoiled.contains p.val = false → evtPowered s = true →
    ∃ t, exec (.tileEccUncorr p) s = .next t
      ∧ t.erg.insts = s.erg.insts.map (fun x => if x.1 = n then (n, { x.2 with mark := true, failed := true, st := 5 }) else x)
      ∧ t.evtFault = s.evtFault ||| 2 ^ 8)
  ∧ (∀ (s : State) (p : Fin 2304), instOn s p = none → evtPowered s = true →
    ∃ t, exec (.tileEccUncorr p) s = .next t ∧ t.erg = s.erg ∧ t.evtFault = s.evtFault ||| 2 ^ 8)

/-! ## Field lanes -/

/-- Training of a lane's group moves through the phases of R63 and fails under R64 and R65: SIGNAL, ADAPT, ALIGN,
MEASURE, READY; a failed attempt above the lowest rate is in QUIET, and the next one runs at the next rate code that
RATE_MAX permits; an up group that loses its signal goes down. -/
def Obligations.LaneTraining : Prop :=
  (∀ (s : State) (n : Fin 128), (laneOf s (groupOf s n)).st = .signal →
    ∃ t, exec (.signalDetected n) s = .next t ∧ (laneOf t (groupOf s n)).st = .adapt ∧ t.regs = s.regs)
  ∧ (∀ (s : State) (n : Fin 128), (laneOf s (groupOf s n)).st = .adapt →
    ∃ t, exec (.adaptDone n) s = .next t ∧ (laneOf t (groupOf s n)).st = .align ∧ t.regs = s.regs)
  ∧ (∀ (s : State) (n latest : Fin 128) (skew : BitVec 32), (laneOf s (groupOf s n)).st = .align →
    skew.toNat ≤ 128 → ∃ t, exec (.alignDone n skew latest) s = .next t
      ∧ (laneOf t (groupOf s n)).st = .measure ∧ t.regs = s.regs)
  ∧ (∀ (s : State) (n latest : Fin 128) (skew : BitVec 32), (laneOf s (groupOf s n)).st = .align →
    128 < skew.toNat → 1 < groupWidth s (groupOf s n) → (laneOf s (groupOf s n)).rate < 3 →
    ∃ t, exec (.alignDone n skew latest) s = .next t ∧ (laneOf t (groupOf s n)).st = .quiet)
  ∧ (∀ (s : State) (n : Fin 128) (il : List (BitVec 12)) (m : List (BitVec 8)),
    (laneOf s (groupOf s n)).st = .measure →
    (∀ k, k < groupWidth s (groupOf s n) → regFld s Reg.LNE_MARGIN 7 0 ≤ nthD 0 k (m.map BitVec.toNat)) →
    ∃ t, exec (.measureDone n il m) s = .next t ∧ (laneOf t (groupOf s n)).st = .ready)
  ∧ (∀ (s : State) (n : Fin 128), inPhase (laneOf s (groupOf s n)).st = true → (laneOf s (groupOf s n)).rate < 3 →
    ∃ t, exec (.phaseTimeout n) s = .next t ∧ (laneOf t (groupOf s n)).st = .quiet)
  ∧ (∀ (s : State) (n : Fin 128), (laneOf s (groupOf s n)).st = .adapt → (laneOf s (groupOf s n)).rate < 3 →
    ∃ t, exec (.trainSignalAbsent n) s = .next t ∧ (laneOf t (groupOf s n)).st = .quiet)
  ∧ (∀ (s : State) (n : Fin 128), (laneOf s (groupOf s n)).st = .quiet →
    ∃ t, exec (.quietEnd n) s = .next t ∧ (laneOf t (groupOf s n)).st = .signal
      ∧ (laneOf t (groupOf s n)).rate
        = max ((laneOf s (groupOf s n)).rate + 1) (regFld s (Reg.LNE_LN_CTRL (groupOf s n)) 9 8))
  ∧ (∀ (s : State) (n : Fin 128), (laneOf s (groupOf s n)).st = .backoff → regBit s Reg.LNE_CTRL 8 = true →
    groupEnabled s (groupOf s n) = true → octetTrains s (groupOf s n) = true →
    ∃ t, exec (.retryTimer n) s = .next t ∧ (laneOf t (groupOf s n)).st = .signal
      ∧ (laneOf t (groupOf s n)).rate = regFld s (Reg.LNE_LN_CTRL (groupOf s n)) 9 8)
  ∧ (∀ (s : State) (n : Fin 128), (laneOf s (groupOf s n)).st = .ready → regBit s Reg.LNE_CTRL 8 = false →
    ∃ t, exec (.laneSignalLoss n) s = .next t ∧ (laneOf t (groupOf s n)).st = .backoff)

/-- Octet power, lane control and measurement. POWER holds the written code unless it is reserved, and the octet takes
it unless R74 forces OFF (R73). ENABLE holds the written bit on every lane; on the first lane of a group a cleared
one gates the group, and a set one trains it in an octet that can train; on another lane it moves nothing (R73).
RETRAIN starts an up group again at RATE_MAX and clears; on a gated group it waits (R65, R73). AUTO_RETRAIN holds
the written bit, and when it is set a group in BACKOFF starts its first retry (R65). A lost PLL shows at its octet,
as a locked one does (R59). MEAS_GO on an up lane runs a measurement, on another it waits, and a measurement's end
writes its results (R69). An uncorrectable codeword is counted on its lane, four in a row take an up group down, and
a marker block that is right counts nothing (R62, R65, R66). Corrected symbols are counted, and at the basic level
the equaliser takes what a step found (R72). A lean lane named as a wake source wakes the device in REST (R426). -/
def Obligations.LaneControl : Prop :=
  (∀ (s : State) (ini : Ini) (o : Fin 16) (v : Word), Reaches s ini (Reg.LNE_OCT_CTRL o) →
    ∃ t, exec (.octetPowerWrite ini o v) s = .next t
      ∧ regFld t (Reg.LNE_OCT_CTRL o) 1 0
        = (if fld v 1 0 ≤ 2 then fld v 1 0 else regFld s (Reg.LNE_OCT_CTRL o) 1 0)
      ∧ (octetOf t o).power = if octetForced s o then 0 else regFld t (Reg.LNE_OCT_CTRL o) 1 0)
  ∧ (∀ (s : State) (ini : Ini) (n : Fin 128) (v : Word), Reaches s ini (Reg.LNE_LN_CTRL n) → groupOf s n = n →
    bit (regGet s (Reg.LNE_LN_CTRL n)) 0 = true → bit v 0 = false →
    ∃ t, exec (.laneEnableWrite ini n v) s = .next t ∧ regBit t (Reg.LNE_LN_CTRL n) 0 = false
      ∧ (laneOf t n).st = .gated)
  ∧ (∀ (s : State) (ini : Ini) (n : Fin 128) (v : Word), Reaches s ini (Reg.LNE_LN_CTRL n) → groupOf s n = n →
    bit (regGet s (Reg.LNE_LN_CTRL n)) 0 = true → fld v 1 0 = 3 → bit v 2 = false → (laneOf s n).st = .ready →
    octetTrains s n = true →
    ∃ t, exec (.laneRetrain ini n v) s = .next t ∧ (laneOf t n).st = .signal ∧ (laneOf t n).rate = fld v 9 8
      ∧ regBit t (Reg.LNE_LN_CTRL n) 1 = false)
  ∧ (∀ (s : State) (ini : Ini) (v : Word), Reaches s ini Reg.LNE_CTRL →
    ∃ t, exec (.autoRetrainWrite ini v) s = .next t ∧ regBit t Reg.LNE_CTRL 8 = bit v 8)
  ∧ (∀ (s : State) (o : Fin 16) (refclk : Bool), ∃ t, exec (.octetPllLoss o refclk) s = .next t
    ∧ (octetOf t o).pll = false ∧ (octetOf t o).refclk = refclk)
  ∧ (∀ (s : State) (o : Fin 16), (octetOf s o).power ≠ 0 → ∃ t, exec (.octetPllLock o) s = .next t
    ∧ (octetOf t o).pll = true)
  ∧ (∀ (s : State) (ini : Ini) (n : Fin 128) (v : Word), Reaches s ini (Reg.LNE_LN_CTRL n) → (laneOf s n).st = .ready →
    bit v 0 = regBit s (Reg.LNE_LN_CTRL n) 0 → bit v 1 = false → bit v 2 = true →
    ∃ t, exec (.measGo ini n v) s = .next t ∧ (laneOf t n).measRun = true)
  ∧ (∀ (s : State) (n : Fin 128) (il : BitVec 12) (m : BitVec 8), (laneOf s n).measRun = true →
    ∃ t, exec (.measDone n il m) s = .next t ∧ (laneOf t n).measRun = false ∧ (laneOf t n).margin = m.toNat
      ∧ regBit t (Reg.LNE_LN_CTRL n) 2 = false)
  ∧ (∀ (s : State) (n : Fin 128) (c : Codeword),
    (match c.marker with
      | none => true
      | some m => markerBad s (groupOf s n) m) = true → c.again = false →
    ∃ t, exec (.uncorrCodeword n c) s = .next t
      ∧ regGet t (Reg.LNE_LN_FEC_UNCORR n) = word (satAdd32 (regGet s (Reg.LNE_LN_FEC_UNCORR n)).toNat 1)
      ∧ (laneOf t n).uncorr = 1)
  ∧ (∀ (s : State) (n : Fin 128) (c : BitVec 5) (pre dfe : BitVec 8) (k : BitVec 32),
    ∃ t, exec (.eqAdaptStep n c pre dfe k) s = .next t
      ∧ regGet t (Reg.LNE_LN_FEC_CORR n) = word (satAdd32 (regGet s (Reg.LNE_LN_FEC_CORR n)).toNat k.toNat)
      ∧ ((laneOf s n).st = .ready → regBit s Reg.LNE_CTRL 0 = false → (laneOf t n).eq
        = word (regFld s (Reg.LNE_LN_EQ n) 31 24 * 2 ^ 24 + dfe.toNat * 2 ^ 16 + pre.toNat * 2 ^ 8 + c.toNat)))
  ∧ (∀ (s : State) (n : Fin 128), 112 ≤ n.val → (laneOf s n).st = .gated → laneWakes s n = true →
    regBit s Reg.HAM_WAKE_EN 6 = true → s.ham.tripped = false → s.ham.st = .rest →
    ∃ t, exec (.leanLaneWake n) s = .next t ∧ regFld t Reg.HAM_WAKE_STATUS 31 24 = 6
      ∧ regBit t Reg.HAM_WAKE_STATUS 6 = true)
  ∧ (∀ (s : State) (ini : Ini) (n : Fin 128) (v : Word), Reaches s ini (Reg.LNE_LN_CTRL n) →
    ∃ t, exec (.laneEnableWrite ini n v) s = .next t ∧ regBit t (Reg.LNE_LN_CTRL n) 0 = bit v 0
      ∧ (groupOf s n ≠ n → bit v 2 = false → t.lne = s.lne))
  ∧ (∀ (s : State) (ini : Ini) (n : Fin 128) (v : Word), Reaches s ini (Reg.LNE_LN_CTRL n) → groupOf s n = n →
    bit (regGet s (Reg.LNE_LN_CTRL n)) 0 = false → bit v 0 = true → bit v 2 = false → octetTrains s n = true →
    ∃ t, exec (.laneEnableWrite ini n v) s = .next t ∧ (laneOf t n).st = .signal ∧ (laneOf t n).rate = fld v 9 8)
  ∧ (∀ (s : State) (ini : Ini) (n : Fin 128) (v : Word), Reaches s ini (Reg.LNE_LN_CTRL n) → groupOf s n = n →
    (laneOf s n).st = .gated → bit v 0 = regBit s (Reg.LNE_LN_CTRL n) 0 → bit v 1 = true → bit v 2 = false →
    ∃ t, exec (.laneRetrain ini n v) s = .next t ∧ laneOf t n = laneOf s n ∧ regBit t (Reg.LNE_LN_CTRL n) 1 = true)
  ∧ (∀ (s : State) (ini : Ini) (n : Fin 128) (v : Word), Reaches s ini Reg.LNE_CTRL → regBit s Reg.LNE_CTRL 8 = false →
    bit v 8 = true → groupOf s n = n → (laneOf s n).st = .backoff → groupEnabled s n = true → octetTrains s n = true →
    ∃ t, exec (.autoRetrainWrite ini v) s = .next t ∧ (laneOf t n).st = .signal)
  ∧ (∀ (s : State) (ini : Ini) (n : Fin 128) (v : Word), Reaches s ini (Reg.LNE_LN_CTRL n) → (laneOf s n).st ≠ .ready →
    bit v 0 = regBit s (Reg.LNE_LN_CTRL n) 0 → bit v 1 = false → bit v 2 = true →
    ∃ t, exec (.measGo ini n v) s = .next t ∧ (laneOf t n).measPend = true)
  ∧ (∀ (s : State) (n : Fin 128) (c : Codeword), c.marker = none → c.again = true → groupOf s n = n →
    3 ≤ (laneOf s n).uncorr → (laneOf s n).st = .ready → regBit s Reg.LNE_CTRL 8 = false →
    ∃ t, exec (.uncorrCodeword n c) s = .next t ∧ (laneOf t n).st = .backoff)
  ∧ (∀ (s : State) (n : Fin 128) (c : Codeword) (m : BitVec 257), c.marker = some m →
    markerBad s (groupOf s n) m = false → ∃ t, exec (.uncorrCodeword n c) s = .next t ∧ t = s)

/-! ## The partner link -/

/-- The next frame of a READY group leaves the queue and starts, header, payload and FCS as R79 and R82 give them, in
the blocks of R78: a C0 or C1 frame whole, of a C2 or C3 frame the START, and it stays open; a block boundary
without a frame to start sends the next block of the frame that is open (R80, R88). CREDIT goes to a partner that is
owed freed credits, and ALIVE to an ACTIVE one, unless one of the kind waits already (R91, R93, R96); a probe tick
sends PROBE while an entry of the group is in PROBING (R97). The frame that a group starts may start, and no partner
has one of a higher class to start (R88, R90). -/
def Obligations.FramesSent : Prop :=
  (∀ (s : State) (n : Fin 128) (f : TxFrame), groupReady s (groupOf s n) = true →
    (partnerOf s f.dst).accounts.length = 4 → nextFrame s (groupOf s n) (openClasses s (groupOf s n)) = some f →
    ∃ t, exec (.frameTransmit n) s = .next t ∧ t.plk.txq = dropFirst (· == f) s.plk.txq
      ∧ ∃ hd, hd.length = 16 ∧ t.outs
        = (if f.cls < 2 then ((restBlocks (bodyBytes s f.dst f.body)
              (crc32c (hd ++ bodyBytes s f.dst f.body))).map (Out.block f.group)).reverse else [])
          ++ .block f.group (startBlock hd (bodyBytes s f.dst f.body))
            :: .frame f.group (hd ++ bodyBytes s f.dst f.body) (crc32c (hd ++ bodyBytes s f.dst f.body)) :: s.outs
        ∧ t.plk.sending = if f.cls < 2 then s.plk.sending
          else mput f.group (restBlocks (bodyBytes s f.dst f.body) (crc32c (hd ++ bodyBytes s f.dst f.body))) s.plk.sending)
  ∧ (∀ (s : State) (p : BitVec 12), keepsAccounts s p.toNat = true → owesCredit (partnerOf s p.toNat) = true →
    (s.plk.txq.any fun f => f.dst == p.toNat && f.typ == 2) = false →
    ∃ t, exec (.creditSend p) s = .next t
      ∧ t = { s with plk := { s.plk with txq := s.plk.txq ++ [⟨ptLane s p.toNat, p.toNat, 0, 2, .bytes []⟩] } })
  ∧ (∀ (s : State) (p : BitVec 12), isActive s p.toNat = true →
    (s.plk.txq.any fun f => f.dst == p.toNat && f.typ == 1) = false →
    ∃ t, exec (.aliveSend p) s = .next t
      ∧ t = { s with plk := { s.plk with txq := s.plk.txq ++ [⟨ptLane s p.toNat, p.toNat, 0, 1, .alive⟩] } })
  ∧ (∀ (s : State) (n : Fin 128) (p : Nat), groupReady s (groupOf s n) = true → regBit s Reg.PLK_CTRL 8 = true →
    p ∈ entriesOn s (groupOf s n) → (partnerOf s p).st = .probing →
    ∃ t, exec (.probe n) s = .next t ∧ t.regs = s.regs
      ∧ t.plk.txq = s.plk.txq ++ [⟨groupOf s n, 0xFFF, 0, 3,
          .bytes (leBytes 2 (groupOf s n) ++ leBytes 2 (mget 0 (groupOf s n) s.plk.probeSeq))⟩])
  ∧ (∀ (s : State) (g : Nat) (f : TxFrame), nextFrame s g (openClasses s g) = some f →
    mayStart s f = true ∧ f ∈ s.plk.txq ∧ f.group = g ∧ f.cls ≤ 3 ∧ ((mget? g s.plk.sending).isSome = true → f.cls ≤ 1)
    ∧ ∀ x ∈ s.plk.txq, x.group = g → x.cls < f.cls → exempt x.typ = true → tooLate s x = true)
  ∧ (∀ (s : State) (n : Fin 128) (b : BitVec 257) (bs : List (BitVec 257)), groupReady s (groupOf s n) = true →
    nextFrame s (groupOf s n) (openClasses s (groupOf s n)) = none → mget? (groupOf s n) s.plk.sending = some (b :: bs) →
    ∃ t, exec (.frameTransmit n) s = .next t ∧ t = { s with
      outs := .block (groupOf s n) b :: s.outs
      plk := { s.plk with
        sending := (if bs.isEmpty then mdel (groupOf s n) s.plk.sending else mput (groupOf s n) bs s.plk.sending) } })

/-- Discovery and loss of a partner (R97, R98, R101 to R103): a matched HELLO makes its entry DESCRIBING with the UID;
page 0 awaited leads to page 1; a missing DESC is asked for again, and the third missing one refuses the partner
with reason 6; BYE and the alive timeout lose the entry with reasons 10 and 8; LOST and REFUSED entries go back to
PROBING or WAITING; KICK ends an ACTIVE association with reason 12; clearing PROBE_EN makes the entries that probe
or wait to probe again WAITING, and setting it probes the waiting entries of READY groups. -/
def Obligations.Discovery : Prop :=
  (∀ (s : State) (f : RxFrame) (p : Nat), Accepts s f 4 → srcAssigned s f = false →
    uidHeld s (leAt f.payload 0 8) = false → helloEntry s (rxGroup s f) (leAt f.payload 0 8) = some p →
    ∃ t, exec (.helloReceive f) s = .next t ∧ (partnerOf t p).st = .describing
      ∧ (partnerOf t p).uid = leAt f.payload 0 8)
  ∧ (∀ (s : State) (f : RxFrame), Accepts s f 7 → (partnerOf s f.src.toNat).st = .describing →
    (partnerOf s f.src.toNat).page = 0 → leAt f.payload 0 1 = 0 →
    ∃ t, exec (.descReceive f) s = .next t ∧ (partnerOf t f.src.toNat).page = 1
      ∧ (partnerOf t f.src.toNat).st = .describing)
  ∧ (∀ (s : State) (p : BitVec 12), (partnerOf s p.toNat).st = .describing → (partnerOf s p.toNat).tries < 3 →
    ∃ t, exec (.descTimeout p) s = .next t ∧ (partnerOf t p.toNat).tries = (partnerOf s p.toNat).tries + 1)
  ∧ (∀ (s : State) (p : BitVec 12), (partnerOf s p.toNat).st = .describing → 3 ≤ (partnerOf s p.toNat).tries →
    ∃ t, exec (.descTimeout p) s = .next t ∧ (partnerOf t p.toNat).st = .refused ∧ (partnerOf t p.toNat).reason = 6)
  ∧ (∀ (s : State) (f : RxFrame), Accepts s f 9 →
    ∃ t, exec (.byeReceive f) s = .next t ∧ (partnerOf t f.src.toNat).st = .lost
      ∧ (partnerOf t f.src.toNat).reason = 10)
  ∧ (∀ (s : State) (p : BitVec 12), (partnerOf s p.toNat).st = .active →
    ∃ t, exec (.aliveTimeout p) s = .next t ∧ (partnerOf t p.toNat).st = .lost ∧ (partnerOf t p.toNat).reason = 8)
  ∧ (∀ (s : State) (p : BitVec 12), (partnerOf s p.toNat).st = .lost →
    ∃ t, exec (.lostIntervalEnd p) s = .next t ∧ (partnerOf t p.toNat).st = restSt s p.toNat ∧ t.regs = s.regs)
  ∧ (∀ (s : State) (p : BitVec 12), (partnerOf s p.toNat).st = .refused →
    ∃ t, exec (.refusedIntervalEnd p) s = .next t ∧ (partnerOf t p.toNat).st = restSt s p.toNat ∧ t.regs = s.regs)
  ∧ (∀ (s : State) (ini : Ini) (p : BitVec 12) (v : Word), Reaches s ini (Reg.PT_CTRL p.toNat) →
    ptAbsent p.toNat = false → bit v 28 = true → (partnerOf s p.toNat).st = .active →
    ∃ t, exec (.kick ini p v) s = .next t ∧ (partnerOf t p.toNat).reason = 12
      ∧ ((partnerOf t p.toNat).st = .probing ∨ (partnerOf t p.toNat).st = .waiting)
      ∧ regBit t (Reg.PT_CTRL p.toNat) 28 = false)
  ∧ (∀ (s : State) (ini : Ini) (v : Word), Reaches s ini Reg.PLK_CTRL → regBit s Reg.PLK_CTRL 8 = true →
    bit v 8 = false → ∃ t, exec (.probeEnWrite ini v) s = .next t ∧ regBit t Reg.PLK_CTRL 8 = false
      ∧ ∀ p, (partnerOf t p).st ≠ .probing ∧ (partnerOf t p).st ≠ .lost ∧ (partnerOf t p).st ≠ .refused)
  ∧ (∀ (s : State) (ini : Ini) (v : Word) (g : Fin 128) (p : Nat), Reaches s ini Reg.PLK_CTRL →
    regBit s Reg.PLK_CTRL 8 = false → bit v 8 = true → groupOf s g = g → groupReady s g = true → p ∈ entriesOn s g →
    (partnerOf s p).st = .waiting →
    ∃ t, exec (.probeEnWrite ini v) s = .next t ∧ regBit t Reg.PLK_CTRL 8 = true ∧ (partnerOf t p).st = .probing)
  ∧ (∀ (s : State) (p : BitVec 12), (partnerOf s p.toNat).st = .accepting →
    ∃ t, exec (.aliveTimeout p) s = .next t ∧ (partnerOf t p.toNat).st = .lost ∧ (partnerOf t p.toNat).reason = 8)

/-- Frames of a partner: the first ALIVE makes an ACCEPTING entry ACTIVE (R97); CREDIT returns credits (R90, R91); a
DELAY_REQ is answered with its turnaround (R107); PARTNER_EVENT is raised, and each is counted (R123, R125). A frame
of an unknown type counts in PLK_LANE_ERR, or at its partner when its SRC is assigned; data outside any frame counts
in PLK_LANE_ERR, and an END closes the group's corrupt frame (R81, R122). -/
def Obligations.FramesTaken : Prop :=
  (∀ (s : State) (f : RxFrame), Accepts s f 1 → (partnerOf s f.src.toNat).st = .accepting → srcAssigned s f = true →
    ∃ t, exec (.aliveReceive f) s = .next t ∧ (partnerOf t f.src.toNat).st = .active)
  ∧ (∀ (s : State) (f : RxFrame), Accepts s f 2 → hasAccount s f = true →
    (partnerOf s f.src.toNat).accounts.length = 4 →
    ∃ t, exec (.creditReceive f) s = .next t
      ∧ (account (partnerOf t f.src.toNat) 0).returned = f.ret0.toNat
      ∧ (account (partnerOf t f.src.toNat) 1).returned = f.ret1.toNat
      ∧ (account (partnerOf t f.src.toNat) 2).returned = f.ret2.toNat
      ∧ (account (partnerOf t f.src.toNat) 3).returned = f.ret3.toNat)
  ∧ (∀ (s : State) (f : RxFrame), Accepts s f 0x11 → srcAssigned s f = true →
    ∃ t, exec (.delayReqReceive f) s = .next t
      ∧ t.plk.txq = s.plk.txq ++ [⟨ptLane s f.src.toNat, f.src.toNat, 0, 0x12,
          .delayResp (leAt f.payload 0 2) (timeNow s)⟩])
  ∧ (∀ (s : State) (f : RxFrame), Accepts s f 0x14 → srcAssigned s f = true →
    ∃ t, exec (.eventReceive f) s = .next t
      ∧ regGet t (Reg.PT_RX f.src.toNat) = word ((regGet s (Reg.PT_RX f.src.toNat)).toNat + 1))
  ∧ (∀ (s : State) (typ : Byte) (f : RxFrame), typeClass typ.toNat = none → srcAssigned s f = false →
    ∃ t, exec (.unexpectedFrame typ f) s = .next t
      ∧ regGet t Reg.PLK_LANE_ERR = word (satAdd32 (regGet s Reg.PLK_LANE_ERR).toNat 1))
  ∧ (∀ (s : State) (n : Fin 128) (inside : Option (Byte × RxFrame)), corruptOpen s (groupOf s n) = false →
    ∃ t, exec (.strayBlock n .data inside) s = .next t
      ∧ regGet t Reg.PLK_LANE_ERR = word (satAdd32 (regGet s Reg.PLK_LANE_ERR).toNat 1))
  ∧ (∀ (s : State) (typ : Byte) (f : RxFrame), typeClass typ.toNat = none → framingKind f typ.toNat = 0 →
    srcAssigned s f = true → overCredit s f typ.toNat = false →
    ∃ t, exec (.unexpectedFrame typ f) s = .next t ∧ regGet t Reg.PLK_LANE_ERR = regGet s Reg.PLK_LANE_ERR
      ∧ regFld t (Reg.PT_ERR f.src.toNat) 23 16 = min (regFld s (Reg.PT_ERR f.src.toNat) 23 16 + 1) 255)
  ∧ (∀ (s : State) (n : Fin 128) (inside : Option (Byte × RxFrame)), corruptOpen s (groupOf s n) = true →
    ∃ t, exec (.strayBlock n .endBlock inside) s = .next t ∧ corruptOpen t (groupOf s n) = false ∧ t.regs = s.regs)

/-- Tunnelled register access (R116 to R121): a slot with GO sends its request to the queue of an ACTIVE partner, and
with COUNT 0 is done at once; a window access completes when its response comes; the queue's first request is sent,
and times out with all ones; a response completes its request. -/
def Obligations.Tunnel : Prop :=
  (∀ (s : State) (ini : Ini) (k : Fin 8) (v : Word), Reaches s ini (Reg.PLK_TUN_CTRL k) → bit v 31 = true →
    regBit s (Reg.PLK_TUN_CTRL k) 31 = false → fld v 22 16 = 0 →
    ∃ t, exec (.tunnelGo ini k v) s = .next t ∧ regBit t (Reg.PLK_TUN_CTRL k) 31 = false
      ∧ regGet t (Reg.PLK_TUN_STATUS k) = word (2 ^ 30))
  ∧ (∀ (s : State) (ini : Ini) (k : Fin 8) (v : Word), Reaches s ini (Reg.PLK_TUN_CTRL k) → bit v 31 = true →
    regBit s (Reg.PLK_TUN_CTRL k) 31 = false → 1 ≤ fld v 22 16 → fld v 22 16 ≤ 64 → isActive s (fld v 11 0) = true →
    (partnerOf s (fld v 11 0)).queue.length < 32 → (partnerOf s (fld v 11 0)).overflow = [] →
    ∃ t, exec (.tunnelGo ini k v) s = .next t ∧ regGet t (Reg.PLK_TUN_STATUS k) = word (2 ^ 31)
      ∧ (partnerOf t (fld v 11 0)).queue.length = (partnerOf s (fld v 11 0)).queue.length + 1)
  ∧ (∀ (s : State) (p : BitVec 12) (a : BitVec 16), takesRequests s = true → gwBusy s = false → ptAbsent p.toNat = false →
    ptValid s p.toNat = true → a.toNat < leAt (partnerOf s p.toNat).desc 56 4 → isActive s p.toNat = true →
    (partnerOf s p.toNat).queue.length < 32 → (partnerOf s p.toNat).overflow = [] →
    ∃ t, exec (.partnerWindowRead p a) s = .next t ∧ t.outs = s.outs
      ∧ (partnerOf t p.toNat).queue = (partnerOf s p.toNat).queue ++ [{
          origin := .winRead (0x30000000 + 0x10000 * p.toNat + a.toNat), write := false
          addr := a.toNat - a.toNat % 4, count := 1, data := [], tag := (partnerOf s p.toNat).tag, sent := false
          since := s.raw }])
  ∧ (∀ (s : State) (p : BitVec 12) (a : BitVec 16) (v : Word), takesRequests s = true → gwBusy s = false → ptAbsent p.toNat = false →
    ptValid s p.toNat = true → a.toNat < leAt (partnerOf s p.toNat).desc 56 4 → isActive s p.toNat = true →
    (partnerOf s p.toNat).queue.length < 32 → (partnerOf s p.toNat).overflow = [] →
    ∃ t, exec (.partnerWindowWrite p a v) s = .next t
      ∧ (partnerOf t p.toNat).queue = (partnerOf s p.toNat).queue ++ [{
          origin := .winWrite (0x30000000 + 0x10000 * p.toNat + a.toNat), write := true
          addr := a.toNat - a.toNat % 4, count := 1, data := [v], tag := (partnerOf s p.toNat).tag, sent := false
          since := s.raw }])
  ∧ (∀ (s : State) (p : BitVec 12) (r : TunReq) (rs : List TunReq), (partnerOf s p.toNat).overflow = r :: rs →
    (partnerOf s p.toNat).queue.length < 32 → s.gw.held = [] → ∃ t, exec (.tunnelAccept p) s = .next t
      ∧ (partnerOf t p.toNat).overflow = rs
      ∧ (partnerOf t p.toNat).queue
          = (partnerOf s p.toNat).queue ++ [{ r with tag := (partnerOf s p.toNat).tag, since := s.raw }])
  ∧ (∀ (s : State) (p : BitVec 12) (r : TunReq), isActive s p.toNat = true →
    ((partnerOf s p.toNat).queue.filter fun x => x.sent).length < 16 →
    firstWhere (fun x => !x.sent) (partnerOf s p.toNat).queue = some r →
    ∃ t, exec (.tunnelSend p) s = .next t
      ∧ t.plk.txq = s.plk.txq ++ [⟨ptLane s p.toNat, p.toNat, 2, if r.write then 0x32 else 0x30,
          .tunnel r.tag (tunBytes r)⟩])
  ∧ (∀ (s : State) (p : BitVec 12) (r : TunReq) (rs : List TunReq) (k : Fin 8),
    (partnerOf s p.toNat).queue = r :: rs → r.origin = .slot k → r.since + tunTicks s ≤ s.raw →
    ∃ t, exec (.tunTimeout p) s = .next t ∧ (partnerOf t p.toNat).queue = rs
      ∧ regBit t (Reg.PLK_TUN_CTRL k) 31 = false ∧ regGet t (Reg.PLK_TUN_STATUS k) = word (2 ^ 30 + 5))
  ∧ (∀ (s : State) (f : RxFrame) (r : TunReq) (off : Nat), Accepts s f 0x31 → tunOf s f false = some r →
    r.origin = .winRead off → leAt f.payload 2 1 = 0 → leAt f.payload 1 1 = 1 → framesLost s f = 0 →
    ∃ t, exec (.regRdRespReceive f) s = .next t ∧ t.outs = .window 2 off (word (leAt f.payload 15 4)) :: s.outs
      ∧ (partnerOf t f.src.toNat).queue = dropFirst (fun x => x.tag == r.tag) (partnerOf s f.src.toNat).queue)
  ∧ (∀ (s : State) (f : RxFrame) (r : TunReq) (k : Fin 8), Accepts s f 0x33 → tunOf s f true = some r →
    r.origin = .slot k → leAt f.payload 2 1 = 0 →
    ∃ t, exec (.regWrRespReceive f) s = .next t ∧ regBit t (Reg.PLK_TUN_CTRL k) 31 = false
      ∧ (partnerOf t f.src.toNat).queue = dropFirst (fun x => x.tag == r.tag) (partnerOf s f.src.toNat).queue)

/-! ## The time engine -/

/-- Reading and keeping device time (R126, R127, R129, R130, R131, R137, R152): a read of TIM_NOW_FRAC answers with its
fraction and latches the words above; a capture edge enters a stamp of device time into its FIFO and a read of
TIM_CAP_FRAC takes the oldest out; an adjustment in mode 0 moves device time by the staged amount, one in mode 1
sets it to the staged time, and one in mode 3 leaves it; a new rate is clamped to 500 ppm and moves no time; a slew
that ends moves no time and leaves none, while one with error left goes on. -/
def Obligations.DeviceTime : Prop :=
  (∀ (s : State) (ini : Ini), Reaches s ini Reg.TIM_NOW_FRAC →
    ∃ t, exec (.timNowRead ini) s = .next t
      ∧ t.outs = .read ini Reg.TIM_NOW_FRAC (word (nowFrac (timeNow s))) :: s.outs
      ∧ mget 0#32 (latchKey ini Reg.TIM_NOW_NS) t.acc.latch = nowNs (timeNow s)
      ∧ mget 0#32 (latchKey ini Reg.TIM_NOW_SEC_LO) t.acc.latch = word (nowSec (timeNow s))
      ∧ mget 0#32 (latchKey ini Reg.TIM_NOW_SEC_HI) t.acc.latch = word (nowSec (timeNow s) / 2 ^ 32)
      ∧ t.regs = s.regs ∧ t.mem = s.mem ∧ t.tim = s.tim)
  ∧ (∀ (s : State) (c : Fin 16) (rising : Bool), regBit s (Reg.TIM_CAP_CTRL c) 31 = true →
    capSource (regFld s (Reg.TIM_CAP_CTRL c) 6 0) = true →
    regBit s (Reg.TIM_CAP_CTRL c) (if rising then 8 else 9) = true → (mget [] c.val s.tim.caps).length < 16 →
    ∃ t, exec (.captureEdge c rising) s = .next t
      ∧ t = { s with tim := { s.tim with
          caps := mput c.val (mget [] c.val s.tim.caps ++ [(timeNow s, rising)]) s.tim.caps } })
  ∧ (∀ (s : State) (ini : Ini) (c : Fin 16) (x : Int) (r : Bool) (rest : List (Int × Bool)),
    Reaches s ini (Reg.TIM_CAP_FRAC c) → mget [] c.val s.tim.caps = (x, r) :: rest →
    ∃ t, exec (.capturePop ini c) s = .next t ∧ mget [] c.val t.tim.caps = rest
      ∧ t.outs = .read ini (Reg.TIM_CAP_FRAC c) (word (2 ^ 31 + b2n r * 2 ^ 16 + nowFrac x)) :: s.outs
      ∧ mget 0#32 (latchKey ini (Reg.TIM_CAP_NS c)) t.acc.latch = nowNs x)
  ∧ (∀ (s : State) (ini : Ini) (v : Word), Reaches s ini Reg.TIM_ADJ_GO → bit v 0 = true →
    regFld s Reg.TIM_ADJ_CTRL 1 0 = 0 → (regGet s Reg.TIM_ADJ_NS).toNat ≤ 999999999 →
    ∃ t, exec (.adjGo ini v) s = .next t ∧ timeNow t = timeNow s + staged s true)
  ∧ (∀ (s : State) (ini : Ini) (v : Word), Reaches s ini Reg.TIM_ADJ_GO → bit v 0 = true →
    regFld s Reg.TIM_ADJ_CTRL 1 0 = 1 → (regGet s Reg.TIM_ADJ_NS).toNat ≤ 999999999 →
    ∃ t, exec (.adjGo ini v) s = .next t ∧ timeNow t = staged s false)
  ∧ (∀ (s : State) (ini : Ini) (v : Word), Reaches s ini Reg.TIM_ADJ_GO → bit v 0 = true →
    regFld s Reg.TIM_ADJ_CTRL 1 0 = 3 → ∃ t, exec (.adjGo ini v) s = .next t ∧ t.tim = s.tim)
  ∧ (∀ (s : State) (ini : Ini) (v : Word), Reaches s ini Reg.TIM_RATE_HI →
    mget? (latchKey ini Reg.TIM_RATE_LO) s.acc.held = none →
    ∃ t, exec (.rateHiWrite ini v) s = .next t ∧ timeNow t = timeNow s
      ∧ t.tim.rate = clampI (-rateLimit) rateLimit (sint 40 ((regGet s Reg.TIM_RATE_LO).toNat + fld v 7 0 * 2 ^ 32))
      ∧ t.tim.integ = t.tim.rate)
  ∧ (∀ s : State, s.tim.slew ≠ 0 → slewOver s = true →
    ∃ t, exec .slewEnd s = .next t ∧ t.tim.slew = 0 ∧ timeNow t = timeNow s)
  ∧ (∀ s : State, slewOver s = false → exec .slewEnd s = .next s)

/-- The time sources (R132 to R134, R138, R139): a PTM dialog is requested and its end counts a measurement; an on-time
edge of PPS_IN is kept, an absent source is no longer present and starts its count again, and an upstream SYNC that
says TIME_UNSET makes upstream absent; a second not yet pulsed since the last step pulses PPS_OUT, and a period
TIME_PULSE, twice as wide after a forward step; a boundary already pulsed gives none. -/
def Obligations.TimeSources : Prop :=
  (∀ s : State, regBit s Reg.TIM_SRC 0 = true →
    ∃ t, exec .ptmDialogStart s = .next t ∧ t.tim.ptmBusy = true ∧ t.outs = .ptmRequest :: s.outs)
  ∧ (∀ (s : State) (m : BitVec 64), s.tim.ptmBusy = true →
    ∃ t, exec (.ptmDialogDone m) s = .next t ∧ t.tim.ptmBusy = false ∧ t.tim.runPtm = s.tim.runPtm + 1
      ∧ (2 ≤ s.tim.runPtm → t.tim.present.testBit 0 = true))
  ∧ (∀ (s : State) (r : Bool), r ≠ regBit s Reg.TIM_PULSE_CTRL 1 → regBit s Reg.TIM_SRC 1 = true →
    ∃ t, exec (.ppsEdge r) s = .next t ∧ t.tim.lastPps = some s.raw)
  ∧ (∀ (s : State) (k : Fin 4), k.val ≠ 0 →
    ∃ t, exec (.sourceAbsent k) s = .next t ∧ t.tim.present.testBit (k.val - 1) = false ∧ srcRun t.tim k = 0)
  ∧ (∀ (s : State) (f : RxFrame), Accepts s f 0x10 → ptTimeSrc s f.src.toNat = true →
    f.src.toNat = upPartner s → regBit s Reg.TIM_SRC 2 = true → (leAt f.payload 24 1).testBit 3 = true →
    ∃ t, exec (.syncReceive f) s = .next t ∧ t.tim.present.testBit 2 = false ∧ t.tim.runUp = 0)
  ∧ (∀ s : State, regBit s Reg.TIM_PULSE_CTRL 0 = true →
    pulseDue s.tim.ppsDone s.tim.ppsFrom (timeNow s / oneSec) = true →
    ∃ t, exec .ppsOutPulse s = .next t
      ∧ t.outs = .ppsOut (regFld s Reg.TIM_PULSE_CTRL 23 16 * 1000000 * (if s.tim.ppsMark then 2 else 1)) :: s.outs
      ∧ t.tim = { s.tim with ppsDone := addPulse (timeNow s / oneSec) s.tim.ppsDone, ppsMark := false })
  ∧ (∀ s : State, regGet s Reg.TIM_TP_WIDTH ≠ 0#32 →
    pulseDue s.tim.tpDone s.tim.tpFrom (timeNow s / tpPeriod s) = true →
    ∃ t, exec .timePulse s = .next t
      ∧ t.outs = .timePulse ((regGet s Reg.TIM_TP_WIDTH).toNat * (if s.tim.tpMark then 2 else 1)) :: s.outs
      ∧ t.tim = { s.tim with tpDone := addPulse (timeNow s / tpPeriod s) s.tim.tpDone, tpMark := false })
  ∧ (∀ s : State, pulseDue s.tim.ppsDone s.tim.ppsFrom (timeNow s / oneSec) = false → exec .ppsOutPulse s = .next s)
  ∧ (∀ s : State, pulseDue s.tim.tpDone s.tim.tpFrom (timeNow s / tpPeriod s) = false → exec .timePulse s = .next s)

/-- SYNC and DELAY (R105 to R107, R142 to R144): with no upstream source each sync partner gets a SYNC; a relay is sent
within 2 ms when its partner's credit allows, and one that has waited longer is dropped and counted; DELAY_REQ goes
to each sync partner while upstream is no source; a response gives half the round trip less the turnaround. -/
def Obligations.SyncAndDelay : Prop :=
  (∀ s : State, s.tim.sel ≠ 3 → ∃ t, exec .syncOriginate s = .next t
    ∧ t.plk.syncSeq = (s.plk.syncSeq + 1) % 2 ^ 16
    ∧ t.plk.txq = s.plk.txq ++ (syncPartners s).map fun p => ⟨ptLane s p, p, 0, 0x10, .syncOrigin s.plk.syncSeq false⟩)
  ∧ (∀ (s : State) (p : BitVec 12) (r : Relay), relayTo s p.toNat = some r → isActive s p.toNat = true →
    relayInTime s r = true → frameCost 32 ≤ available s p.toNat 0 →
    (partnerOf s p.toNat).accounts.length = 4 →
    ∃ t, exec (.syncRelay p) s = .next t ∧ t.tim.relays = dropFirst (· == r) s.tim.relays ∧ t.plk.txq = s.plk.txq
      ∧ (t.outs.any fun o => match o with
        | .frame g bs fcs => g == ptLane s p.toNat && decide (bs.drop 16
            = relayBytes s r (decide (regFld s Reg.TIM_SYNC 31 16 < residence s r))) && decide (fcs = crc32c bs)
        | _ => false) = true)
  ∧ (∀ (s : State) (p : BitVec 12) (r : Relay), relayTo s p.toNat = some r → relayInTime s r = false →
    ∃ t, exec (.syncRelayDrop p) s = .next t ∧ t.tim.relays = dropFirst (· == r) s.tim.relays
      ∧ regGet t Reg.TIM_DSYNC_MISS = word (satAdd32 (regGet s Reg.TIM_DSYNC_MISS).toNat 1))
  ∧ (∀ s : State, (isActive s (upPartner s) && regBit s Reg.TIM_SRC 2) = false → ∃ t, exec .delayReqSend s = .next t
    ∧ t.plk.txq = s.plk.txq ++ (syncPartners s).map fun p => ⟨ptLane s p, p, 0, 0x11, .delayReq s.plk.delaySeq⟩)
  ∧ (∀ (s : State) (f : RxFrame) (t1 : Int), Accepts s f 0x12 →
    (partnerOf s f.src.toNat).delayT1 = some t1 → (partnerOf s f.src.toNat).delaySeq = leAt f.payload 0 2 →
    ∃ t, exec (.delayRespReceive f) s = .next t ∧ (partnerOf t f.src.toNat).delayT1 = none
      ∧ regGet t (Reg.PT_DELAY f.src.toNat)
          = word (wrapTo 32 (sar (timeNow s - t1 - sint 64 (leAt f.payload 4 8) * 2 ^ 16) 29)))

/-- Web position, triggers and cycles (R145 to R151): JOB_START marks the job encoder for zeroing; a still web is
marked; EN starts a generator at frame start; a trigger is formed LEAD before the next line and, in time mode,
before the next exposure, and queued to the camera; a sent trigger leaves the pending list, as does one not sent in
time, which counts as a D_LINE miss; EN of the cycles starts cycle 0 at a multiple of the period, and each start
adds a cycle when its instant is reached, until EN is clear. -/
def Obligations.Triggers : Prop :=
  (∀ (s : State) (ini : Ini) (v : Word), Reaches s ini Reg.TIM_JOB → bit v 31 = true → s.tim.webs.length = 4 →
    ∃ t, exec (.jobStart ini v) s = .next t ∧ (webOf t (fld v 1 0)).zero = true ∧ jobEnc t = fld v 1 0)
  ∧ (∀ (s : State) (e : Fin 4), s.tim.webs.length = 4 →
    (((webOf s e).edges.head?.map fun x => decide (10 * oneMs ≤ timeNow s - x.1)).getD true) = true →
    ∃ t, exec (.velocityTimeout e) s = .next t ∧ (webOf t e).still = true ∧ velocity (webOf t e) = none
      ∧ t.regs = s.regs)
  ∧ (∀ (s : State) (ini : Ini) (g : Fin 256) (v : Word), Reaches s ini (Reg.TIM_TRG_CTRL g) →
    regBit s (Reg.TIM_TRG_CTRL g) 31 = false → bit v 31 = true → fld v 15 0 ≠ 0 →
    ∃ t, exec (.triggerGenEnable ini g v) s = .next t ∧ regBit t (Reg.TIM_TRG_CTRL g) 31 = true
      ∧ (genOf t g).formed = 0)
  ∧ (∀ (s : State) (g : Fin 256) (dx dt te xe : Int) (es : List (Int × Int)), mayTrigger s g false = true →
    velocity (jobWeb s) = some (dx, dt) → (jobWeb s).edges = (te, xe) :: es → 0 < dx →
    leadReached s g (te + (lineScaled s g (genOf s g).line - xe * lpiOf s g) * dt / (lpiOf s g * dx)) = true →
    ∃ t, exec (.triggerForm g) s = .next t ∧ (genOf t g).line = (genOf s g).line + 1
      ∧ (genOf t g).seq = ((genOf s g).seq + 1) % 2 ^ 16 ∧ t.plk.txq.length = s.plk.txq.length + 1)
  ∧ (∀ (s : State) (g : Fin 256), mayTrigger s g true = true →
    leadReached s g (nextExposure s g) = true →
    ∃ t, exec (.triggerFormTime g) s = .next t ∧ (genOf t g).formed = (genOf s g).formed + 1
      ∧ (genOf t g).seq = ((genOf s g).seq + 1) % 2 ^ 16 ∧ t.plk.txq.length = s.plk.txq.length + 1)
  ∧ (∀ (s : State) (g : Fin 256) (x : PendTrig), firstWhere (fun x => x.sent) (genOf s g).pending = some x →
    ∃ t, exec (.triggerEgress g) s = .next t ∧ (genOf t g).pending = dropFirst (· == x) (genOf s g).pending)
  ∧ (∀ (s : State) (g : Fin 256) (x : PendTrig),
    firstWhere (fun x => !x.sent && decide (sar x.time 32 ≤ sar (timeNow s) 32)) (genOf s g).pending = some x →
    ∃ t, exec (.triggerUnsent g) s = .next t ∧ (genOf t g).pending = dropFirst (· == x) (genOf s g).pending
      ∧ regGet t Reg.TIM_DLINE_MISS = word (satAdd32 (regGet s Reg.TIM_DLINE_MISS).toNat 1))
  ∧ (∀ (s : State) (ini : Ini) (v : Word), Reaches s ini Reg.TIM_CYC_CTRL → regBit s Reg.TIM_CYC_CTRL 31 = false →
    bit v 31 = true → 1 ≤ fld v 9 0 → fld v 9 0 ≤ 1000 →
    ∃ t, exec (.cycleEnable ini v) s = .next t ∧ t.tim.cycNum = 0
      ∧ t.tim.cycNext = some (nextMultiple (timeNow s) (fld v 9 0 * 1000000)))
  ∧ (∀ (s : State) (x : Int), s.tim.cycNext = some x → x ≤ timeNow s → regBit s Reg.TIM_CYC_CTRL 31 = true →
    ∃ t, exec .cycleStart s = .next t ∧ t.regs = s.regs
      ∧ t.tim.cycles = ⟨s.tim.cycNum, x, regFld s Reg.TIM_CYC_CTRL 9 0⟩ :: s.tim.cycles.take 15
      ∧ t.tim.cycNext = some (x + regFld s Reg.TIM_CYC_CTRL 9 0 * oneMs))
  ∧ (∀ (s : State) (x : Int), s.tim.cycNext = some x → x ≤ timeNow s → regBit s Reg.TIM_CYC_CTRL 31 = false →
    ∃ t, exec .cycleStart s = .next t ∧ t.tim = { s.tim with cycNext := none } ∧ t.regs = s.regs)
  ∧ (∀ (s : State) (g : Fin 256), leadReached s g (nextExposure s g) = false → exec (.triggerFormTime g) s = .next s)

/-! ## Capture pipelines -/

/-- Line assembly (R109 to R111, R162 to R165): a segment at the end of the open line of a pipeline joins it; FRAME_END
of the open frame closes it, and is discarded while the ingress is off; the oldest expected line whose deadline has
passed with no line open is missing, and an open line closes at its deadline. -/
def Obligations.LineAssembly : Prop :=
  (∀ (s : State) (f : RxFrame) (p : Nat) (l : OpenLine), Accepts s f 0x40 → pipeOfPartner s f.src.toNat = some p →
    pipeLost s p = false → reloadOf s p = none → (pipeOf s p).frameOpen = true →
    (pipeOf s p).frame = leAt f.payload 11 4 → (pipeOf s p).dropping = false → (pipeOf s p).line? = some l →
    l.seq = leAt f.payload 0 2 → l.trig.isSome = true → leAt f.payload 3 4 = l.bytes.length →
    (leAt f.payload 2 1).testBit 1 = false →
    ∃ t l', exec (.lineSegReceive f true) s = .next t ∧ (pipeOf t p).line? = some l'
      ∧ l'.bytes = l.bytes ++ f.payload.drop 15 ∧ l'.seq = l.seq ∧ l'.cost = l.cost + frameCost f.len.toNat)
  ∧ (∀ (s : State) (f : RxFrame) (p : Nat), Accepts s f 0x41 → pipeOfPartner s f.src.toNat = some p →
    ingressOff s p = false → (pipeOf s p).frameOpen = true → (pipeOf s p).frame = leAt f.payload 0 4 →
    ∃ t, exec (.frameEndReceive f) s = .next t ∧ (pipeOf t p).frameOpen = false ∧ (pipeOf t p).line? = none)
  ∧ (∀ (s : State) (p : Fin 256) (x : Trig) (xs : List Trig), (pipeOf s p).line? = none →
    (pipeOf s p).trigs = x :: xs → missDeadline s p x < timeNow s →
    ∃ t, exec (.missingLineTimeout p) s = .next t ∧ (pipeOf t p).trigs = xs
      ∧ (pipeOf t p).missing = (pipeOf s p).missing + 1
      ∧ regGet t (Reg.CAP_COUNTS p 5) = word (satAdd32 (regGet s (Reg.CAP_COUNTS p 5)).toNat 1))
  ∧ (∀ (s : State) (f : RxFrame) (p : Nat), Accepts s f 0x41 → pipeOfPartner s f.src.toNat = some p →
    ingressOff s p = true → ∃ t, exec (.frameEndReceive f) s = .next t ∧ t.cap = s.cap)
  ∧ (∀ (s : State) (p : Fin 256) (l : OpenLine) (x : Trig), (pipeOf s p).line? = some l → l.trig = some x →
    missDeadline s p x < timeNow s → ∃ t, exec (.missingLineTimeout p) s = .next t ∧ (pipeOf t p).line? = none
      ∧ (pipeOf t p).trigs = (pipeOf s p).trigs ∧ (pipeOf t p).got = (pipeOf s p).got + 1)

/-- The stages whose tiles run, and whose next stage is free, take the oldest line that waits for them (R41, R48, R155,
R161, R168, R171, R173, R176, R178): UNPACK gives a sample per pixel and band; BLACK with MODE 0 subtracts the
band's offset, limited to 16 bits; DPC gives a sample for each; FLAT with MODE 0 leaves samples as they are; WBAL
multiplies by the band's gain; CMAT gives the bank's output bands; and a line that waits at the head of the pipeline
for a TONE that is left out leaves it and is counted. -/
def Obligations.PipelineStages : Prop :=
  (∀ (s : State) (p : Fin 256) (l : CapLine), lineAt s p 0 = some l →
    stageRuns s 1 p (ownInsts s 0x01 1 p) = true → lineAt s p 1 = none →
    ∃ t x, exec (.unpackLine p) s = .next t ∧ (pipeOf t p).flow = putLineAt 0 x (pipeOf s p).flow
      ∧ x.stage = 1 ∧ x.bytes = [] ∧ x.data.length = regFld s (Reg.CAP_WIDTH p) 15 0 * inBands s p)
  ∧ (∀ (s : State) (p : Fin 256) (l : CapLine), lineAt s p 1 = some l → stageOn s p 0x02 1 = true →
    stageRuns s 1 p (ownInsts s 0x02 1 p) = true → lineAt s p 2 = none →
    regFld s (Reg.BK_CTRL p l.bank) 1 0 = 0 →
    ∃ t x, exec (.blackLine p) s = .next t ∧ (pipeOf t p).flow = putLineAt 1 x (pipeOf s p).flow ∧ x.stage = 2
      ∧ x.data = (upto (regFld s (Reg.CAP_ACT p) 31 16 * l.bands)).map fun i =>
          u16 (((nthD 0 ((regFld s (Reg.CAP_ACT p) 15 0 + i / l.bands) * l.bands + i % l.bands) l.data : Nat) : Int)
            - sint 16 (half s (Reg.BK_BLK_OFF p l.bank) (i % l.bands))))
  ∧ (∀ (s : State) (p : Fin 256) (l : CapLine), lineAt s p 2 = some l → stageOn s p 0x03 2 = true →
    stageRuns s 1 p (ownInsts s 0x03 1 p) = true → lineAt s p 3 = none →
    ∃ t x, exec (.dpcLine p) s = .next t ∧ (pipeOf t p).flow = putLineAt 2 x (pipeOf s p).flow ∧ x.stage = 3
      ∧ x.data.length = l.data.length)
  ∧ (∀ (s : State) (p : Fin 256) (l : CapLine), lineAt s p 3 = some l → stageOn s p 0x04 3 = true →
    stageRuns s 1 p (ownInsts s 0x04 1 p) = true → lineAt s p 4 = none →
    regFld s (Reg.BK_CTRL p l.bank) 3 2 = 0 → (∀ v ∈ l.data, v ≤ 65535) →
    ∃ t x, exec (.flatLine p) s = .next t ∧ (pipeOf t p).flow = putLineAt 3 x (pipeOf s p).flow ∧ x.stage = 4
      ∧ x.data = l.data)
  ∧ (∀ (s : State) (p : Fin 256) (l : CapLine), lineAt s p 4 = some l → stageOn s p 0x05 4 = true →
    stageRuns s 1 p (ownInsts s 0x05 1 p) = true → lineAt s p 5 = none → l.first = false →
    ∃ t x, exec (.wbalLine p) s = .next t ∧ (pipeOf t p).flow = putLineAt 4 x (pipeOf s p).flow ∧ x.stage = 5
      ∧ x.data = l.data.zipIdx.map fun e =>
          u16 (sar ((e.1 * wbNow s p l.bank (e.2 % max 1 l.bands) + 2048 : Nat) : Int) 12))
  ∧ (∀ (s : State) (p : Fin 256) (l : CapLine), lineAt s p 5 = some l → stageOn s p 0x06 5 = true →
    stageRuns s 1 p (ownInsts s 0x06 1 p) = true → lineAt s p 6 = none →
    ∃ t x, exec (.cmatLine p) s = .next t ∧ (pipeOf t p).flow = putLineAt 5 x (pipeOf s p).flow ∧ x.stage = 6
      ∧ x.bands = regFld s (Reg.BK_CTRL p l.bank) 6 4)
  ∧ (∀ (s : State) (p : Fin 256) (l : CapLine), (pipeOf s p).flow = [.line l] → l.stage = 6 →
    stageOn s p 0x07 6 = false → stageRuns s 1 p (ownInsts s 0x07 1 p) = true → stageRuns s 1 p (forks s 1 p) = true →
    tapsTake s p = true →
    ∃ t, exec (.toneLine p) s = .next t ∧ (pipeOf t p).flow = [] ∧ (pipeOf t p).lastTag.seq = l.tag.seq
      ∧ (pipeOf t p).delivered = (pipeOf s p).delivered + 1
      ∧ regGet t (Reg.CAP_COUNTS p 1) = word ((regGet s (Reg.CAP_COUNTS p 1)).toNat + 1))

/-- A stage that is left out or disabled passes its line to the next stage with its samples unchanged, and but for the
pipeline and the marks that the line takes from the stage's own instances, whose free value it uses, nothing else of
the device changes (R40, R155). -/
def Obligations.StagesLeftOut : Prop :=
  ∀ (s : State) (p : Fin 256) (c : Instr) (k kind : Nat) (l : CapLine),
    (c, k, kind) ∈ [(Instr.blackLine p, 1, 0x02), (.dpcLine p, 2, 0x03), (.flatLine p, 3, 0x04), (.wbalLine p, 4, 0x05),
      (.cmatLine p, 5, 0x06)] → lineAt s p k = some l → stageOn s p kind k = false →
    stageRuns s 1 p (ownInsts s kind 1 p) = true → lineAt s p (k + 1) = none →
    ∃ t, exec c s = .next t
      ∧ t = { s with
          erg := t.erg
          fresh := s.fresh + b2n (mayRead (ownInsts s kind 1 p))
          cap := ⟨mput p.val { pipeOf s p with flow := putLineAt k { l with
            stage := k + 1, bytes := [], tag := stageTag s kind 1 p (ownInsts s kind 1 p) l.tag } (pipeOf s p).flow }
              s.cap.pipes⟩ }

/-- Calibration and banks (R175, R182, R183): GO on a FREE bank starts a calibration of its lines; GO of an accepted
switch makes the bank PENDING. -/
def Obligations.BanksAndCalibration : Prop :=
  (∀ (s : State) (ini : Ini) (p : Fin 256) (v : Word), Reaches s ini (Reg.CAP_CAL_CTRL p) → bit v 31 = true →
    1 ≤ fld v 10 0 → fld v 10 0 ≤ 1024 → bankSt s p (fld v 29 28) = 0 → (pipeOf s p).cal = none →
    ∃ t, exec (.calGo ini p v) s = .next t
      ∧ (pipeOf t p).cal = some ⟨fld v 29 28, fld v 10 0, fld v 10 0, []⟩ ∧ regBit t (Reg.CAP_CAL_CTRL p) 31 = true)
  ∧ (∀ (s : State) (ini : Ini) (p : Fin 256) (v : Word), Reaches s ini (Reg.CAP_SW p) → ini ≠ .cfg →
    bit v 31 = true → switchRefusal s p (fld v 1 0) = 0 → bankSt s p (fld v 1 0) ≠ 2 →
    ∃ t, exec (.bankSwitchGo ini p v) s = .next t
      ∧ (pipeOf t p).switch = some { bank := fld v 1 0, old := activeBank (pipeOf s p), atLine := bit v 30 }
      ∧ (pipeOf t p).banks = setNth 1 (fld v 1 0) (pipeOf s p).banks)

/-! ## Output streams -/

/-- The taps (R188 to R200, R203, R305): a frame start takes the settings in force, and nothing happens where a tap
stands at none; CROP of a line of a host or journal tap puts its window to the queue of SCALE, and of a Seif or
comparator tap hands it on and counts it; a tap without SCALE passes its item on; PACK of a line that its buffer
takes puts one packet there and counts it, and one of no EVIDENCE that the buffer does not take is dropped; a packet
leaves the reserve for the producer's buffer. -/
def Obligations.OutputTaps : Prop :=
  (∀ (s : State) (k : Fin 1024), atTapStart s k = true → ∃ t, exec (.tapFrameStart k) s = .next t
    ∧ (tapOf t k).frameOpen = (regBit s (Reg.OUT_TAP_CTRL k) 31 && regBit s (Reg.OUT_TAP_CTRL k) 28)
    ∧ (tapOf t k).enNow = (regBit s (Reg.OUT_TAP_CTRL k) 31 && regBit s (Reg.OUT_TAP_CTRL k) 28)
    ∧ (tapOf t k).crop = (if tapCropped s k then regGet s (Reg.OUT_CROP k) else 0#32)
    ∧ (tapOf t k).scale = (if tapScaled s k then regGet s (Reg.OUT_SCALE k) else 0#32))
  ∧ (∀ (s : State) (k : Fin 1024) (l : CapLine) (time : Int) (rest : List (CapItem × Int)),
    (tapOf s k).inq = (.line l, time) :: rest → tapDest s k < 2 → cropTurn s k = true →
    ∃ t x, exec (.cropLine k) s = .next t ∧ (tapOf t k).inq = rest ∧ (tapOf t k).mid = (tapOf s k).mid ++ [.line x]
      ∧ x.data = (cropData (tapOf s k).crop (regFld s (Reg.OUT_PACK k) 11 8) l).1 ∧ x.time = time
      ∧ t.mem = s.mem ∧ t.regs = s.regs)
  ∧ (∀ (s : State) (k : Fin 1024) (l : CapLine) (time : Int) (rest : List (CapItem × Int)),
    (tapOf s k).inq = (.line l, time) :: rest → 2 ≤ tapDest s k → cropTurn s k = true →
    ∃ t, exec (.cropLine k) s = .next t ∧ (tapOf t k).inq = rest
      ∧ (tapOf t k).route.length = (tapOf s k).route.length + 1
      ∧ regGet t (Reg.OUT_LINES k 0) = word ((regGet s (Reg.OUT_LINES k 0)).toNat + 1))
  ∧ (∀ (s : State) (k : Fin 1024) (i : TapItem) (rest : List TapItem), (tapOf s k).mid = i :: rest →
    (tapOf s k).scale = 0#32 → tapRuns s k 0x09 = true → ∃ t, exec (.scaleLine k) s = .next t
      ∧ t = { s with taps := ⟨mput k.val { tapOf s k with mid := rest, outq := (tapOf s k).outq ++ [i] }
          (mput k.val { tapOf s k with mid := rest } s.taps.taps)⟩ })
  ∧ (∀ (s : State) (k : Fin 1024) (l : TapLine) (rest : List TapItem), (tapOf s k).outq = .line l :: rest →
    tapEvidence s k = false → (tapOf s k).dropping = false → tapRuns s k 0x0A = true →
    ∃ t p, exec (.packLine k true) s = .next t ∧ (tapOf t k).outq = rest ∧ p.kind = 1 ∧ p.source = k.val
      ∧ (producerOf t k).buf = (producerOf s k).buf ++ [p]
      ∧ regGet t (Reg.OUT_LINES k 0) = word ((regGet s (Reg.OUT_LINES k 0)).toNat + 1))
  ∧ (∀ (s : State) (k : Fin 1024) (l : TapLine) (rest : List TapItem), (tapOf s k).outq = .line l :: rest →
    tapEvidence s k = false → tapRuns s k 0x0A = true → ∃ t, exec (.packLine k false) s = .next t ∧ (tapOf t k).dropping = true
      ∧ (tapOf t k).dropped = (tapOf s k).dropped + 1)
  ∧ (∀ (s : State) (n : BitVec 16) (p : Packet) (rest : List Packet), (producerOf s n.toNat).spill = p :: rest →
    ∃ t, exec (.spillDrain n) s = .next t ∧ (producerOf t n.toNat).spill = rest
      ∧ (producerOf t n.toNat).buf = (producerOf s n.toNat).buf ++ [{ p with spilled := true }])
  ∧ (∀ (s : State) (k : Fin 1024), atTapStart s k = false → exec (.tapFrameStart k) s = .next s)

/-! ## Seif -/

/-- The stitcher (R208 to R219): a line of a slot's tap joins the slot's buffer, cut to what the slot keeps, and is
counted; a row whose lines all running slots hold is emitted, and the next row follows; a slot that the next row has
waited for during STALL_US is STALLED, and one that no row waits for is not. -/
def Obligations.SeifRows : Prop :=
  (∀ (s : State) (b : Fin 16) (k : Fin 64) (room : Bool) (tap : Nat) (l : CapLine) (rest : List CapItem),
    regBit s (Reg.SEI_CAM_CTRL b k) 31 = true → slotFull s b k = false → slotTap s b k = some tap →
    (tapOf s tap).route = .line l :: rest → slotMeasures s b k = false → stageRuns s 2 b (warpInst s b k) = true →
    (∀ m, newestOf (slotOf s b k) = some m → m < lineIndex s (slotPipe s b k) l.tag.web) →
    ∃ t x, exec (.seifWarpLine b k room) s = .next t ∧ (tapOf t tap).route = rest
      ∧ x.n = lineIndex s (slotPipe s b k) l.tag.web ∧ x.line.data = l.data
      ∧ (slotOf t b k).buf = ((slotOf s b k).buf ++ [x]).drop ((slotOf s b k).buf.length + 1 - bufLines s b)
      ∧ (slotOf t b k).stalled = false
      ∧ regGet t (Reg.SEI_CAM_LINES b k) = word ((regGet s (Reg.SEI_CAM_LINES b k)).toNat + 1))
  ∧ (∀ (s : State) (b : Fin 16) (r : Nat), regBit s (Reg.SEI_BAR_CTRL b) 31 = true → (barOf s b).row = some r →
    (barOf s b).open'.rows ≠ 0 → fixedMode s b = false → (barOf s b).seams ≠ [] → rowReady s b r = true →
    rowTaken s b = true → stageRuns s 2 b (ownInsts s 0x11 2 b) = true →
    ∃ t, exec (.seifRowEmit b) s = .next t ∧ (barOf t b).row = some (r + 1)
      ∧ regGet t (Reg.SEI_BAR_COUNTS b 0) = word ((regGet s (Reg.SEI_BAR_COUNTS b 0)).toNat + 1))
  ∧ (∀ (s : State) (b : Fin 16) (k : Fin 64), regBit s (Reg.SEI_CAM_CTRL b k) 31 = true →
    (slotOf s b k).stalled = false → slotWaited s b k = true →
    max (barOf s b).since (slotOf s b k).newest + regFld s (Reg.SEI_BAR_STALL b) 15 0 * 1000 * oneNs ≤ timeNow s →
    ∃ t, exec (.cameraStall b k) s = .next t ∧ (slotOf t b k).stalled = true
      ∧ (barOf t b).stalls = satAdd32 (barOf s b).stalls 1)
  ∧ (∀ (s : State) (b : Fin 16) (k : Fin 64) (room : Bool) (tap : Nat) (i : CapItem) (rest : List CapItem),
    regBit s (Reg.SEI_CAM_CTRL b k) 31 = true → slotFull s b k = false → slotTap s b k = some tap →
    (tapOf s tap).route = i :: rest → stageRuns s 2 b (warpInst s b k) = true →
    ∃ t, exec (.seifWarpLine b k room) s = .next t ∧ (tapOf t tap).route = rest)
  ∧ (∀ (s : State) (b : Fin 16) (k : Fin 64), slotWaited s b k = false → exec (.cameraStall b k) s = .next s)

/-- Models and marks (R212, R221 to R229): the targets of an occurrence that every slot has ended are applied together
and gone; GO applies all staged values of the bar; a LIM_Y that passes the span check is taken; MARK and WEB_BREAK
take the oldest line; a line without web samples leaves EDGE all ones and counts towards the break. -/
def Obligations.SeifModels : Prop :=
  (∀ (s : State) (b : Fin 16) (i : Nat), readyOcc s b = some i →
    ∃ t, exec (.modelApply b) s = .next t ∧ (barOf t b).updates = satAdd32 (barOf s b).updates 1
      ∧ ∀ k ∈ barSlots s b, ∀ x ∈ (slotOf t b k).targets, x.occ ≠ i)
  ∧ (∀ (s : State) (ini : Ini) (b : Fin 16) (v : Word), Reaches s ini (Reg.SEI_BAR_APPLY b) → bit v 0 = true →
    ∃ t, exec (.barApplyGo ini b v) s = .next t ∧ ∀ k ∈ barSlots s b, (slotOf t b k).staged = [])
  ∧ (∀ (s : State) (ini : Ini) (b : Fin 16) (k : Fin 64) (v : Word), Reaches s ini (Reg.SEI_CAM_LIM_Y b k) →
    spanOk s b k v = true →
    ∃ t, exec (.limYWrite ini b k v) s = .next t ∧ regGet t (Reg.SEI_CAM_LIM_Y b k) = v)
  ∧ (∀ (s : State) (j : Fin 16) (room : Bool) (l : CapLine) (rest : List CapLine), (markInst s j).inq = l :: rest →
    stageRuns s 1 (regFld s (Reg.SEI_PM_CTRL j) 23 16) (watchInst s 0x12 Reg.SEI_PM_CTRL j) = true →
    ∃ t, exec (.markLine j room) s = .next t ∧ (markInst t j).inq = rest ∧ (markInst t j).last = some l.tag.seq)
  ∧ (∀ (s : State) (i : Fin 16) (l : CapLine) (rest : List CapLine), (webInst s i).inq = l :: rest →
    stageRuns s 1 (regFld s (Reg.SEI_WB_CTRL i) 23 16) (watchInst s 0x28 Reg.SEI_WB_CTRL i) = true →
    (∀ x ∈ 0 :: l.data, x < regFld s (Reg.SEI_WB_THR i) 15 0) →
    0 < regFld s (Reg.SEI_WB_CTRL i) 15 8 * regFld s (Reg.SEI_WB_WIN i) 31 16 →
    ∃ t, exec (.webBreakLine i) s = .next t ∧ (webInst t i).inq = rest ∧ (webInst t i).run = (webInst s i).run + 1
      ∧ regGet t (Reg.SEI_WB_EDGE i) = 0xFFFFFFFF#32)

/-! ## The comparator -/

/-- Reference sources (R236 to R240): TAIL takes a value below ENTRIES; the entry at HEAD is read and HEAD moves on; the
fetch of the next tile is posted to the source's Mover channel, and one that ends well makes the tile RESIDENT. -/
def Obligations.ReferenceSources : Prop :=
  (∀ (s : State) (ini : Ini) (i : Fin 8) (v : Word), Reaches s ini (Reg.CMP_RS_TAIL i) →
    fld v 15 0 < regFld s (Reg.CMP_RS_LIST_SIZE i) 15 0 →
    ∃ t, exec (.rsTailWrite ini i v) s = .next t ∧ regFld t (Reg.CMP_RS_TAIL i) 15 0 = fld v 15 0)
  ∧ (∀ (s : State) (i : Fin 8), regBit s (Reg.CMP_RS_CTRL i) 31 = true → regBit s (Reg.CMP_RS_CTRL i) 30 = true →
    regFld s (Reg.CMP_RS_HEAD i) 15 0 ≠ regFld s (Reg.CMP_RS_TAIL i) 15 0 → canIssue s = true →
    ∃ t, exec (.refEntryRead i) s = .next t
      ∧ regGet t (Reg.CMP_RS_HEAD i) = word ((regFld s (Reg.CMP_RS_HEAD i) 15 0 + 1)
          % max 1 (regFld s (Reg.CMP_RS_LIST_SIZE i) 15 0)))
  ∧ (∀ (s : State) (i : Fin 8) (x : RefTile), firstWhere (fun u => u.st == 0) (srcOf s i).tiles = some x →
    regBit s (Reg.CMP_RS_CTRL i) 30 = true → ((srcOf s i).tiles.any fun u => u.st == 1) = false →
    inPrefetch s i x.j = true → slotFree s i x.j = true →
    ∃ t, exec (.refFetchStart i) s = .next t
      ∧ (chanOf t (regFld s (Reg.CMP_RS_CTRL i) 23 18)).posts = (chanOf s (regFld s (Reg.CMP_RS_CTRL i) 23 18)).posts
          ++ [{ src := x.addr, dst := slotAt s i x.j, len := tileData s i + (if x.defmap then 0 else mapBytes s i)
                attr := copyAttr true false true true }])
  ∧ (∀ (s : State) (i : Fin 8) (x : RefTile) (f : MovFin) (rest : List MovFin),
    (chanOf s (regFld s (Reg.CMP_RS_CTRL i) 23 18)).fins = f :: rest → f.status = 0 → (srcOf s i).stale = 0 →
    firstWhere (fun u => u.st == 1) (srcOf s i).tiles = some x → x.check = none →
    ∃ t, exec (.refFetchDone i) s = .next t
      ∧ (srcOf t i).tiles = (srcOf s i).tiles.map (fun u => if u.j = x.j then { u with st := 2 } else u)
      ∧ regGet t (Reg.CMP_RS_COUNTS i 0) = word ((regGet s (Reg.CMP_RS_COUNTS i 0)).toNat + 1))

/-- The comparator's stages (R241 to R259): a row of Seif enters and is counted; REF_RENDER and REF_BLUR, in their turn,
make the next reference row that the oldest row needs, and hand an unchecked row on; REG_SEARCH and DIFF_TOL pass it
on, an unchecked one with no deviant pixel; CLUSTER takes it out and counts it in its frame; RELOAD is requested,
and done it clears. -/
def Obligations.ComparatorStages : Prop :=
  (∀ (s : State) (b : Fin 16) (x : StRow) (rest : List BarItem), regBit s (Reg.CMP_BAR_CTRL b) 31 = true →
    regBit s (Reg.SEI_BAR_CTRL b) 31 = true → mainPowered s = true → stageHeld s b 0 = false →
    (barOf s b).out = .row x :: rest →
    ∃ t, exec (.cmpRowEnter b) s = .next t ∧ (barOf t b).out = rest ∧ (cmpOf t b).next = x.r + 1
      ∧ regGet t (Reg.CMP_BAR_COUNTS b 0) = word ((regGet s (Reg.CMP_BAR_COUNTS b 0)).toNat + 1))
  ∧ (∀ (s : State) (b : Fin 16) (y : CmpRow) (p : Int), rowTurn s b 0 0x18 = some y → y.reason = 0 →
    reloading s b = false → firstWhere (fun p => (firstWhere (fun (e : Int × Option (List Nat)) => e.1 == p)
      (keepFrom s b 1 y.rho (cmpOf s b).refs)).isNone) (around y.rho (rngA s b + rngB s b)) = some p →
    refPoison s b p = [] → ∃ t, exec (.refRenderRow b) s = .next t
      ∧ (cmpOf t b).refs = keepFrom s b 1 y.rho (cmpOf s b).refs ++ [(p, some (renderRow s b p))])
  ∧ (∀ (s : State) (b : Fin 16) (y : CmpRow) (p : Int), rowTurn s b 1 0x19 = some y → y.reason = 0 →
    firstWhere (fun p => !((keepFrom s b 3 y.rho (cmpOf s b).blurred).any fun (e : Int × List Nat) => e.1 == p))
      (around y.rho (rngA s b)) = some p →
    ∃ t, exec (.refBlurRow b) s = .next t
      ∧ (cmpOf t b).blurred = keepFrom s b 3 y.rho (cmpOf s b).blurred ++ [(p, blurRow s b p)])
  ∧ (∀ (s : State) (b : Fin 16) (y : CmpRow), rowTurn s b 2 0x1A = some y →
    ∃ t y', exec (.regSearchRow b) s = .next t ∧ y'.stage = 3 ∧ y'.data = y.data ∧ y'.reason = y.reason
      ∧ (cmpOf t b).rows = putRow 2 (fun _ => y') (cmpOf s b).rows)
  ∧ (∀ (s : State) (b : Fin 16) (y : CmpRow), rowTurn s b 3 0x1B = some y →
    ∃ t y', exec (.diffTolRow b) s = .next t ∧ y'.stage = 4 ∧ y'.data = y.data ∧ (y.reason ≠ 0 → y'.dev = [])
      ∧ (cmpOf t b).rows = putRow 3 (fun _ => y') (cmpOf s b).rows)
  ∧ (∀ (s : State) (b : Fin 16) (room : Bool) (y : CmpRow), (cmpOf s b).rows = [.row y] → y.stage = 4 →
    stageRuns s 2 b (cmpInsts s b 0x1C) = true →
    ∃ t, exec (.clusterRow b room) s = .next t ∧ (cmpOf t b).rows = []
      ∧ (cmpOf t b).frame.rows = (cmpOf s b).frame.rows + 1)
  ∧ (∀ (s : State) (ini : Ini) (b : Fin 16) (v : Word), Reaches s ini (Reg.CMP_BAR_LUT_CFG b) → bit v 31 = true →
    fld v 27 24 ≠ 0 → ∃ t, exec (.lutReload ini b v) s = .next t ∧ (cmpOf t b).reload = true)
  ∧ (∀ (s : State) (b : Fin 16), reloading s b = true →
    ∃ t, exec (.lutReloadRun b) s = .next t ∧ reloading t b = false ∧ regBit t (Reg.CMP_BAR_LUT_CFG b) 31 = false
      ∧ (cmpOf t b).lut = memBytes s (regWide s (Reg.CMP_BAR_LUT_LO b) (Reg.CMP_BAR_LUT_HI b)) (lutBytes s b))
  ∧ (∀ (s : State) (b : Fin 16) (y : CmpRow), rowTurn s b 0 0x18 = some y → y.reason ≠ 0 →
    ∃ t y', exec (.refRenderRow b) s = .next t ∧ y'.stage = 1 ∧ y'.data = y.data ∧ y'.reason = y.reason
      ∧ y'.shifts = (upto 16).map (shiftOf s b) ∧ (cmpOf t b).rows = putRow 0 (fun _ => y') (cmpOf s b).rows)
  ∧ (∀ (s : State) (b : Fin 16) (y : CmpRow), rowTurn s b 1 0x19 = some y → y.reason ≠ 0 →
    ∃ t y', exec (.refBlurRow b) s = .next t ∧ y'.stage = 2 ∧ y'.data = y.data ∧ y'.reason = y.reason
      ∧ (cmpOf t b).rows = putRow 1 (fun _ => y') (cmpOf s b).rows)

/-! ## The nozzle engine -/

/-- Stripes, residuals and the close (R271 to R276): the next segment of a side is measured once its last row is there;
the oldest residual row of a bar is taken when no side must close a cycle first; the oldest running cycle closes
when it may, and counts when the side runs; each needs its stage's tiles to run (R48). The ledger (R266, R267): the
high word of an entry of a module commits STATE, PIN and CORR with the low word held, and leaves the measured
fields. -/
def Obligations.NozzleCycle : Prop :=
  (∀ (s : State) (d : Fin 2) (x : Nat), s.nzl.sides.length = 2 → sideValid s d = true → stripeRep s d ≠ 0 →
    stripeCount s d ≠ 0 → (sideOf s d).top = some x →
    (segmentAt s d (sideOf s d).seg).first + stripeSeg s d - 1 ≤ x →
    stageRuns s 3 d (ownInsts s 0x20 3 d) = true →
    ∃ t, exec (.nzStripeMeasure d) s = .next t ∧ (sideOf t d).seg = (sideOf s d).seg + 1)
  ∧ (∀ (s : State) (b : Fin 16) (y : ResRow) (rest : List ResRow), (cmpOf s b).resid = y :: rest →
    ((sidesOf s b).all fun d => rowCycle s (sideOf s d) y.tag != 2 && stageRuns s 3 d (ownInsts s 0x21 3 d)) = true →
    ∃ t, exec (.nzResidRow b) s = .next t ∧ (cmpOf t b).resid = rest)
  ∧ (∀ (s : State) (d : Fin 2) (c : CycleRun) (cs : List CycleRun), s.nzl.sides.length = 2 →
    (sideOf s d).runs = c :: cs → mayClose s d c = true → sideOn s d = true →
    stageRuns s 3 d (ownInsts s 0x22 3 d) = true →
    ∃ t, exec (.cycleClose d) s = .next t ∧ (sideOf t d).runs = cs ∧ (sideOf t d).lastEnd = some (runEnd c)
      ∧ (sideOf t d).closed = c.num ∧ (sideOf t d).sums = []
      ∧ regGet t (Reg.NZL_SD_COUNTS d 0) = word ((regGet s (Reg.NZL_SD_COUNTS d 0)).toNat + 1))
  ∧ (∀ (s : State) (ini : Ini) (n : BitVec 20) (v lo : Word) (m : Nat), Reaches s ini (ledgerOff n.toNat + 4) →
    moduleAt s n.toNat = some m → mget? (latchKey ini (ledgerOff n.toNat)) s.acc.held = some lo →
    fld v 31 29 ≠ 0 → fld v 31 29 ≠ 7 →
    ∃ t, exec (.ledgerWrite ini n v) s = .next t
      ∧ ledgerGet t n.toNat = { ledgerGet s n.toNat with st := fld v 31 29, pin := bit v 28, corr := fld lo 15 0 }
      ∧ mget? (latchKey ini (ledgerOff n.toNat)) t.acc.held = none)
  ∧ (∀ (s : State) (d : Fin 2) (c : CycleRun) (cs : List CycleRun), s.nzl.sides.length = 2 →
    (sideOf s d).runs = c :: cs → mayClose s d c = true → sideOn s d = false →
    stageRuns s 3 d (ownInsts s 0x22 3 d) = true →
    ∃ t, exec (.cycleClose d) s = .next t ∧ (sideOf t d).runs = cs ∧ (sideOf t d).sums = [] ∧ t.regs = s.regs)

/-- Delivery (R112 to R115, R282 to R285): an OK for the one frame of a module's set makes the module ACKED; a frame
sent or answered BUSY 100 microseconds ago is resent before its deadline; at the deadline an acknowledged set is
met, and at its apply point the module commits it; EN of a side makes its modules UNSURE. -/
def Obligations.CorrectionDelivery : Prop :=
  (∀ (s : State) (f : RxFrame) (m : Fin 1024) (x : NzSet) (fr : NzFrame), Accepts s f 0x23 →
    (upto 1024).filter (fun k => modValid s k && modPartnerOf s k == f.src.toNat) = [m.val] →
    (nzModOf s m).set = some x → x.cycle % 2 ^ 24 = leAt f.payload 0 3 →
    x.frames = [fr] → fr.first = leAt f.payload 3 2 → leAt f.payload 7 1 = 0 →
    ∃ t, exec (.corrAckReceive f) s = .next t ∧ (nzModOf t m).st = 3
      ∧ (nzModOf t m).set = some { x with frames := [{ fr with st := 3 }] })
  ∧ (∀ (s : State) (m : Fin 1024) (k : Fin 16) (x : NzSet) (fr : NzFrame) (rest : List NzFrame),
    (nzModOf s m).set = some x → x.frames.drop k = fr :: rest → modValid s m = true → fr.st = 1 ∨ fr.st = 2 →
    fr.since + 50000 ≤ s.raw →
    timeNow s < x.apply - moduleLead s m → isActive s (modPartnerOf s m) = true →
    ∃ t, exec (.corrResend m k) s = .next t
      ∧ t.plk.txq = s.plk.txq ++ [⟨ptLane s (modPartnerOf s m), modPartnerOf s m, 1, 0x22,
          .corr m fr.first (corrPayload x fr.first fr.count (k.val + 1 == x.frames.length))⟩])
  ∧ (∀ (s : State) (d : Fin 2) (m : Nat) (x : NzSet), s.nzl.sides.length = 2 → sideMods s d = [m] →
    (nzModOf s m).set = some x → x.met = false → x.apply - moduleLead s m ≤ timeNow s → setAcked x = true →
    ∃ t, exec (.dcompDeadline d) s = .next t ∧ (nzModOf t m).set = some { x with met := true }
      ∧ (sideOf t d).acked = (sideOf s d).acked + 1)
  ∧ (∀ (s : State) (d : Fin 2) (m : Nat) (x : NzSet), m ∈ sideMods s d → (nzModOf s m).set = some x →
    x.met = true → x.apply ≤ timeNow s →
    ∃ t, exec (.corrCommit d) s = .next t ∧ (nzModOf t m).set = none ∧ (nzModOf t m).unsure = false
      ∧ (nzModOf t m).cur = (if x.neutral then [] else x.words) ∧ (nzModOf t m).prev = (nzModOf s m).cur
      ∧ t.regs = s.regs ∧ t.mem = s.mem)
  ∧ (∀ (s : State) (ini : Ini) (d : Fin 2) (v : Word), Reaches s ini (Reg.NZL_SD_CTRL d) →
    regBit s (Reg.NZL_SD_CTRL d) 30 = false → bit v 30 = true →
    ∃ t, exec (.sideEnable ini d v) s = .next t ∧ regBit t (Reg.NZL_SD_CTRL d) 30 = true
      ∧ ∀ m ∈ sideMods s d, (nzModOf t m).unsure = true)

/-! ## Memory -/

/-- The ownership ports (R293 to R297): ALLOC gives the lowest run of FREE units to the port's identity; FREE returns,
and GIVE hands on, a run that the port owns and nothing guards; QUERY shows an owner. -/
def Obligations.OwnershipPorts : Prop :=
  (∀ (s : State) (ini : Ini) (i : Fin 6) (g : Bool) (n : BitVec 21) (f : Nat), Reaches s ini (Reg.MEM_AP_CTRL i) →
    portBusy s i = false → n ≠ 0#21 → freeRun (unitCount (b2n g)) n.toNat 0 (ownersOf s (b2n g)) = some f →
    ∃ t, exec (.alloc ini i g n) s = .next t ∧ regFld t (Reg.MEM_AP_INDEX i) 19 0 = f
      ∧ ownersOf t (b2n g) = ownRun (portOwner i) f n.toNat (ownersOf s (b2n g))
      ∧ regGet t (Reg.MEM_AP_STATUS i) = word (2 ^ 30))
  ∧ (∀ (s : State) (ini : Ini) (i : Fin 6) (g : Bool) (n : BitVec 21), Reaches s ini (Reg.MEM_AP_CTRL i) →
    portBusy s i = false → n ≠ 0#21 → regFld s (Reg.MEM_AP_INDEX i) 19 0 + n.toNat ≤ unitCount (b2n g) →
    checkUnits s (b2n g) (portOwner i) (regFld s (Reg.MEM_AP_INDEX i) 19 0) n.toNat = none →
    ∃ t, exec (.free ini i g n) s = .next t
      ∧ ownersOf t (b2n g) = ownRun 0 (regFld s (Reg.MEM_AP_INDEX i) 19 0) n.toNat (ownersOf s (b2n g))
      ∧ regGet t (Reg.MEM_AP_STATUS i) = word (2 ^ 30))
  ∧ (∀ (s : State) (ini : Ini) (i : Fin 6) (g : Bool) (n : BitVec 21), Reaches s ini (Reg.MEM_AP_CTRL i) →
    portBusy s i = false → n ≠ 0#21 → regFld s (Reg.MEM_AP_INDEX i) 19 0 + n.toNat ≤ unitCount (b2n g) →
    1 ≤ regFld s (Reg.MEM_AP_OWNER i) 15 12 → regFld s (Reg.MEM_AP_OWNER i) 15 12 < 8 →
    checkUnits s (b2n g) (portOwner i) (regFld s (Reg.MEM_AP_INDEX i) 19 0) n.toNat = none →
    ∃ t, exec (.give ini i g n) s = .next t
      ∧ ownersOf t (b2n g) = ownRun (regFld s (Reg.MEM_AP_OWNER i) 15 0) (regFld s (Reg.MEM_AP_INDEX i) 19 0) n.toNat
          (ownersOf s (b2n g))
      ∧ regGet t (Reg.MEM_AP_STATUS i) = word (2 ^ 30))
  ∧ (∀ (s : State) (ini : Ini) (i : Fin 6) (g : Bool) (n : BitVec 21), Reaches s ini (Reg.MEM_AP_CTRL i) →
    portBusy s i = false → regFld s (Reg.MEM_AP_INDEX i) 19 0 < unitCount (b2n g) →
    ∃ t, exec (.query ini i g n) s = .next t
      ∧ regFld t (Reg.MEM_AP_OWNER i) 31 16 = ownerOf s (b2n g) (regFld s (Reg.MEM_AP_INDEX i) 19 0) % 2 ^ 16
      ∧ ownersOf t (b2n g) = ownersOf s (b2n g))

/-- A memory access that meets no error and no guard (R290, R294, R340): a write stores its bytes and every other byte
of memory stays; a read answers the word and changes no memory; a step of the scrubber that meets no error moves on
and changes no memory (R312). Check-value units (R124): GO of a free unit with a length starts a run with the
settings it finds; a run over memory that is there completes with the check value of its bytes, and changes no
memory but the ring of event records. -/
def Obligations.MemoryAccess : Prop :=
  (∀ (s : State) (c : Fin 64) (a : BitVec 40) (bs : List Byte), s.mainReset = false →
    inMap a.toNat bs.length = true → memPowered s a.toNat = true → guardOf s a.toNat bs.length = .none →
    ∃ t, exec (.apertureAccess (.mover c a) (.write (bs.map some)) []) s = .next t
      ∧ (∀ k, k < bs.length → memByte t (a.toNat + k) = nthD 0#8 k bs)
      ∧ (∀ x, x < a.toNat ∨ a.toNat + bs.length ≤ x → memByte t x = memByte s x)
      ∧ t.regs = s.regs ∧ t.hostMem = s.hostMem ∧ t.outs = s.outs)
  ∧ (∀ (s : State) (c : Fin 64) (a : BitVec 40), s.mainReset = false → inMap a.toNat 4 = true →
    memPowered s a.toNat = true → poisoned s a.toNat 4 = [] →
    ∃ t, exec (.apertureAccess (.mover c a) (.read 1#11) []) s = .next t
      ∧ t = { s with outs := .memWord 0x10 c (word (memNat s a.toNat 4)) :: s.outs })
  ∧ (∀ s : State, s.store.poison = [] → ∃ t, exec (.scrubStep []) s = .next t ∧ t.mem = s.mem ∧ t.regs = s.regs
    ∧ t.store = { s.store with scrub := (s.store.scrub + min (scrubShare t) scrubTotal) % scrubTotal })
  ∧ (∀ (s : State) (ini : Ini) (u : Fin 16) (v : Word), Reaches s ini (Reg.CVU_U_CTRL u) → bit v 31 = true →
    regBit s (Reg.CVU_U_CTRL u) 31 = false → regGet s (Reg.CVU_U_LEN u) ≠ 0#32 →
    ∃ t, exec (.cvuGo ini u v) s = .next t ∧ regGet t (Reg.CVU_U_STATUS u) = word (2 ^ 31)
      ∧ mget? u.val t.plk.cvuRuns = some {
          alg := fld v 9 8, resume := bit v 0, addr := regWide s (Reg.CVU_U_ADDR_LO u) (Reg.CVU_U_ADDR_HI u)
          len := (regGet s (Reg.CVU_U_LEN u)).toNat })
  ∧ (∀ (s : State) (u : Fin 16) (r : CvuRun), mget? u.val s.plk.cvuRuns = some r → r.alg < 2 →
    inMap r.addr r.len = true → memPowered s r.addr = true → poisoned s r.addr r.len = [] →
    ∃ t, exec (.cvuDone u) s = .next t
      ∧ regGet t (Reg.CVU_U_RESULT u) = word (crc32 (if r.alg = 0 then polyC else polyHdlc) (memBytes s r.addr r.len)
          (if r.resume then (regGet s (Reg.CVU_U_RESULT u)).toNat else 0))
      ∧ regGet t (Reg.CVU_U_STATUS u) = word (2 ^ 30) ∧ regBit t (Reg.CVU_U_CTRL u) 31 = false
      ∧ (∀ x, ¬ ringByte s x → memByte t x = memByte s x))

/-- Result queues (R298 to R303): a packet that fits before the end of an open ring advances TAIL by its padded size and
is counted; NOTIFY_US, FLUSH and a packet boundary notify; EN makes TAIL equal to HEAD; a HEAD within the written
packets is taken. -/
def Obligations.ResultQueues : Prop :=
  (∀ (s : State) (n : BitVec 16) (q : Fin 64) (p : Packet) (ps : List Packet), queueOf s n.toNat = some q.val →
    (producerOf s n.toNat).buf = p :: ps → p.due = none → rqOpen s q = true →
    rqPlace s q (padded (8 + p.payload.length)) = some false →
    ∃ t, exec (.rqPacketWrite n) s = .next t ∧ (producerOf t n.toNat).buf = ps
      ∧ (rqOf t q).tail = ((rqOf s q).tail + padded (8 + p.payload.length)) % rqSize s q
      ∧ regGet t (Reg.MEM_RQ_PKTS q) = word ((regGet s (Reg.MEM_RQ_PKTS q)).toNat + 1))
  ∧ (∀ (s : State) (q : Fin 64), regFld s (Reg.MEM_RQ_NOTIFY q) 15 0 ≠ 0 → (rqOf s q).news ≠ 0 →
    (rqOf s q).since + 500 * regFld s (Reg.MEM_RQ_NOTIFY q) 15 0 ≤ s.raw →
    ∃ t, exec (.rqNotifyTimeout q) s = .next t ∧ (rqOf t q).news = 0 ∧ (rqOf t q).tail = (rqOf s q).tail)
  ∧ (∀ (s : State) (ini : Ini) (q : Fin 64) (v : Word), Reaches s ini (Reg.MEM_RQ_CTRL q) → bit v 30 = true →
    ∃ t, exec (.rqFlush ini q v) s = .next t ∧ (rqOf t q).flush = true)
  ∧ (∀ (s : State) (ini : Ini) (q : Fin 64) (v : Word), Reaches s ini (Reg.MEM_RQ_CTRL q) → bit v 31 = true →
    (rqOf s q).enNow = false →
    ∃ t, exec (.rqEnable ini q v) s = .next t ∧ (rqOf t q).enNow = true ∧ (rqOf t q).tail = rqHead s q)
  ∧ (∀ (s : State) (q : Fin 64), (rqOf s q).flush = true →
    ∃ t, exec (.rqBoundaryApply q) s = .next t ∧ (rqOf t q).flush = false ∧ (rqOf t q).news = 0
      ∧ regBit t (Reg.MEM_RQ_CTRL q) 30 = false)
  ∧ (∀ (s : State) (ini : Ini) (q : Fin 64) (v : Word), Reaches s ini (Reg.MEM_RQ_HEAD q) → v.toNat % 64 = 0 →
    v.toNat < rqSize s q →
    (v.toNat + rqSize s q - rqHead s q) % rqSize s q ≤ ((rqOf s q).tail + rqSize s q - rqHead s q) % rqSize s q →
    ∃ t, exec (.rqHeadWrite ini q v) s = .next t ∧ regGet t (Reg.MEM_RQ_HEAD q) = v ∧ (rqOf t q).err = false)

/-! ## The Mover -/

/-- Channels and runs (R359 to R372): TAIL takes an index of the ring; EN of a channel empties it; a posted descriptor
of a bound channel that is valid runs; a run that has moved its bytes ends and is counted; RESUME takes a halted
channel on, and ABORT of a channel that is not running empties it. -/
def Obligations.MoverChannels : Prop :=
  (∀ (s : State) (ini : Ini) (c : Fin 64) (v : Word), Reaches s ini (Reg.MOV_CH_TAIL c) → chBound s c = false →
    fld v 15 0 < chEntries s c →
    ∃ t, exec (.movTailWrite ini c v) s = .next t ∧ chTail t c = fld v 15 0 ∧ t.mem = s.mem)
  ∧ (∀ (s : State) (ini : Ini) (c : Fin 64) (v : Word), Reaches s ini (Reg.MOV_CH_CTRL c) → chBound s c = false →
    chEn s c = false → bit v 31 = true → bit v 27 = false → bit v 29 = false →
    ∃ t, exec (.movEnable ini c v) s = .next t ∧ chEn t c = true ∧ chHead t c = chTail s c)
  ∧ (∀ (s : State) (c : Nat) (d : Desc) (rest : List Desc), s.mov.run = none → nextChannel s = some c →
    chBound s c = true → (chanOf s c).posts = d :: rest → descReject d = 0 → d.len ≠ 0 →
    ∃ t r, exec .moverRunStart s = .next t ∧ t.mov.run = some r ∧ r.ch = c ∧ r.desc = d ∧ (chanOf t c).posts = rest
      ∧ t.mem = s.mem ∧ t.regs = s.regs)
  ∧ (∀ (s : State) (r : MovRun), s.mov.run = some r → r.ch < 64 → (r.desc.usesHost = false ∨ canIssue s = true) →
    ∃ t, exec .moverRunEnd s = .next t ∧ t.mov.run = none ∧ t.mov.last = r.ch
      ∧ regGet t (Reg.MOV_CH_DONE r.ch) = word ((regGet s (Reg.MOV_CH_DONE r.ch)).toNat + 1))
  ∧ (∀ (s : State) (ini : Ini) (c : Fin 64) (v : Word), Reaches s ini (Reg.MOV_CH_CTRL c) → chBound s c = false →
    chEn s c = true → bit v 30 = true → bit v 29 = false →
    ∃ t, exec (.movResume ini c v) s = .next t ∧ (chanOf t c).halted = false)
  ∧ (∀ (s : State) (ini : Ini) (c : Fin 64) (v : Word), Reaches s ini (Reg.MOV_CH_CTRL c) → chBound s c = false →
    chEn s c = true → bit v 29 = true → s.mov.run = none →
    ∃ t, exec (.movAbort ini c v) s = .next t ∧ chHead t c = chTail s c ∧ regBit t (Reg.MOV_CH_CTRL c) 29 = false)

/-! ## The journal -/

/-- Extents (R316, R320 to R324): EN starts RSEQ again; an extent that can be opened ends FULL; SEAL, EN cleared, and
AGE_US since the first record seal the open extent, which no lesser age does; a FIRST of an idle window is taken. -/
def Obligations.JournalExtents : Prop :=
  (∀ (s : State) (ini : Ini) (v : Word), Reaches s ini Reg.JRN_CTRL → jrnOn s = false → bit v 1 = true →
    bit v 2 = false → ∃ t, exec (.journalEnable ini v) s = .next t ∧ t.jrn.rseq = 0 ∧ jrnOn t = true)
  ∧ (∀ (s : State) (e w k : Nat) (ks : List Nat), s.jrn.full = true → jrnOn s = true → s.jrn.ext = none →
    s.jrn.jobs = [] → nextExtent s = some (e, w) → stagesFree s = k :: ks →
    ∃ t x, exec .journalResumed s = .next t ∧ t.jrn.ext = some x ∧ x.extent = e ∧ x.window = w ∧ x.buf = k
      ∧ t.jrn.full = false)
  ∧ (∀ (s : State) (ini : Ini) (v : Word) (x : JExt), Reaches s ini Reg.JRN_CTRL → bit v 2 = true →
    bit v 1 = jrnOn s → s.jrn.ext = some x →
    ∃ t, exec (.sealWrite ini v) s = .next t ∧ t.jrn.ext = none ∧ t.jrn.jobs.length = s.jrn.jobs.length + 1
      ∧ regGet t Reg.JRN_SEAL_SEQ = word ((regGet s Reg.JRN_SEAL_SEQ).toNat + 1))
  ∧ (∀ (s : State) (x : JExt), s.jrn.ext = some x → x.records ≠ 0 → x.since + 500 * ageUs s ≤ s.raw →
    ∃ t, exec .extentAge s = .next t ∧ t.jrn.ext = none ∧ t.jrn.jobs.length = s.jrn.jobs.length + 1
      ∧ regGet t Reg.JRN_SEAL_SEQ = word ((regGet s Reg.JRN_SEAL_SEQ).toNat + 1))
  ∧ (∀ (s : State) (ini : Ini) (v : Word) (x : JExt), Reaches s ini Reg.JRN_CTRL → jrnOn s = true →
    bit v 1 = false → bit v 2 = false → s.jrn.note = none → s.jrn.wait = [] → s.jrn.ext = some x →
    ∃ t, exec (.journalStop ini v) s = .next t ∧ t.jrn.ext = none ∧ jrnOn t = false)
  ∧ (∀ (s : State) (ini : Ini) (w : Fin 16) (v : Word), Reaches s ini (Reg.JRN_WIN_FIRST w) → jwinEn s w = false →
    winBusy s w = false →
    ∃ t, exec (.windowWrite ini w 1 v) s = .next t ∧ winFirst t w = fld v 27 0 ∧ t.mem = s.mem)
  ∧ (∀ (s : State) (x : JExt), s.jrn.ext = some x → s.raw < x.since + 500 * ageUs s → exec .extentAge s = .next s)

/-- Records, copies and operations (R317, R319, R323 to R325, R330): a packet that fits is placed and counted; a note is
held, and accepted takes a record; after the data of an extent its header is copied, and a copy that fails is tried
once more; ACK makes a WRITTEN extent ACKED, FREE clears the entry of an ACKED one, and QUERY shows its STATE, while
the port is not BUSY. -/
def Obligations.JournalRecords : Prop :=
  (∀ (s : State) (n : BitVec 16) (p : Packet) (ps : List Packet) (x : JExt), jrnOn s = true → s.jrn.wait = [] →
    (producerOf s n.toNat).buf = p :: ps → mayAccept s n.toNat = true → s.jrn.ext = some x →
    recLen p.payload ≤ 2 ^ 24 - x.fill → gapsOf p = [] →
    ∃ t x', exec (.recordAccept n) s = .next t ∧ (producerOf t n.toNat).buf = ps ∧ t.jrn.ext = some x'
      ∧ x'.fill = x.fill + recLen p.payload ∧ x'.records = x.records + 1
      ∧ t.jrn.rseq = (s.jrn.rseq + 1) % 2 ^ 64)
  ∧ (∀ (s : State) (ini : Ini) (v : Word), Reaches s ini Reg.JRN_NOTE_GO → bit v 0 = true → noteRefusal s = 0 →
    ∃ t, exec (.noteGo ini v) s = .next t
      ∧ t.jrn.note = some ((upto 8).flatMap fun k => leBytes 4 (regGet s (Reg.JRN_NOTE_DATA k)).toNat))
  ∧ (∀ (s : State) (n : List Byte) (x : JExt), jrnOn s = true → s.jrn.wait = [] → s.jrn.owed = none → s.jrn.note = some n →
    s.jrn.ext = some x → recLen n ≤ 2 ^ 24 - x.fill →
    ∃ t, exec .noteAccept s = .next t ∧ t.jrn.note = none ∧ t.jrn.rseq = (s.jrn.rseq + 1) % 2 ^ 64)
  ∧ (∀ (s : State) (f : MovFin) (j : JJob), copyReport s = some (f, j) → copyFailed f = false → j.header = false →
    ∃ t, exec .extentCopyDone s = .next t ∧ t.jrn.jobs = { j with header := true } :: s.jrn.jobs.drop 1
      ∧ t.mem = s.mem ∧ t.regs = s.regs)
  ∧ (∀ (s : State) (f : MovFin) (j : JJob), copyReport s = some (f, j) → copyFailed f = true → j.tries = 0 →
    ∃ t, exec .extentCopyFail s = .next t
      ∧ t.jrn.jobs = { j with tries := 1, header := false } :: s.jrn.jobs.drop 1
      ∧ regGet t (Reg.JRN_RECORDS 3) = word (satAdd32 (regGet s (Reg.JRN_RECORDS 3)).toNat 1))
  ∧ (∀ (s : State) (ini : Ini) (v : Word), Reaches s ini Reg.JRN_OP → opBusy s = false → bit v 31 = true → fld v 30 28 = 0 →
    regFld s Reg.JRN_OP_COUNT 28 0 = 1 → regFld s Reg.JRN_OP_EXT 27 0 < jrnExtents s →
    extentState s (regFld s Reg.JRN_OP_EXT 27 0) = 3 →
    ∃ t, exec (.extentAck ini v) s = .next t ∧ extentState t (regFld s Reg.JRN_OP_EXT 27 0) = 4
      ∧ regFld t Reg.JRN_OP_STATUS 7 0 = 0 ∧ regBit t Reg.JRN_OP_STATUS 30 = true)
  ∧ (∀ (s : State) (ini : Ini) (v : Word), Reaches s ini Reg.JRN_OP → opBusy s = false → bit v 31 = true → fld v 30 28 = 1 →
    regFld s Reg.JRN_OP_COUNT 28 0 = 1 → regFld s Reg.JRN_OP_EXT 27 0 < jrnExtents s →
    extentState s (regFld s Reg.JRN_OP_EXT 27 0) = 4 →
    ∃ t, exec (.extentFree ini v) s = .next t ∧ indexGet t (regFld s Reg.JRN_OP_EXT 27 0) = 0
      ∧ regFld t Reg.JRN_OP_STATUS 7 0 = 0 ∧ regBit t Reg.JRN_OP_STATUS 30 = true)
  ∧ (∀ (s : State) (ini : Ini) (v : Word), Reaches s ini Reg.JRN_OP → opBusy s = false → bit v 31 = true → fld v 30 28 = 2 →
    regFld s Reg.JRN_OP_EXT 27 0 < jrnExtents s →
    ∃ t, exec (.extentQuery ini v) s = .next t ∧ t.mem = s.mem
      ∧ regGet t Reg.JRN_OP_STATUS = word (2 ^ 30 + extentState s (regFld s Reg.JRN_OP_EXT 27 0) * 2 ^ 8))

/-! ## The host gateway -/

/-- Errors and function level reset (R347, R348): an unsupported request is counted and reported to AER, as a poisoned
TLP is counted; a read without completion is no longer outstanding; FLR begins, after 8 ms ends the reads, and, once
none is left or those 8 ms have passed, leaves the enables and the windows as after reset. -/
def Obligations.GatewayErrors : Prop :=
  (∀ (s : State) (dw0 : Word) (a : BitVec 64), s.gw.up = true →
    ∃ t, exec (.unsupportedRequest false dw0 a) s = .next t ∧ t.gw.aer.testBit 20 = true
      ∧ regGet t Reg.HGW_UR = word (satAdd32 (regGet s Reg.HGW_UR).toNat 1))
  ∧ (∀ (s : State) (dw0 : Word), s.gw.up = true →
    ∃ t, exec (.tlpReceiveError .poisoned dw0) s = .next t ∧ t.gw.aer.testBit 12 = true
      ∧ regGet t Reg.HGW_TLP_ERR = word (satAdd32 (regGet s Reg.HGW_TLP_ERR).toNat 1))
  ∧ (∀ (s : State) (k : BitVec 10) (r : HostRead), firstWhere (fun x => x.tag == k.toNat) s.gw.reads = some r →
    r.block ≠ 0x10 →
    ∃ t, exec (.completionTimeout k) s = .next t ∧ t.gw.reads = s.gw.reads.filter (fun x => x.tag != k.toNat)
      ∧ t.gw.aer.testBit 14 = true ∧ regGet t Reg.HGW_CPL_TO = word (satAdd32 (regGet s Reg.HGW_CPL_TO).toNat 1))
  ∧ (∀ s : State, s.gw.up = true → s.gw.flr = false →
    ∃ t, exec .flr s = .next t ∧ t.gw = { s.gw with flr := true, flrFrom := s.raw, flrEnded := 0 }
      ∧ regGet t Reg.HGW_FLR = word (satAdd32 (regGet s Reg.HGW_FLR).toNat 1))
  ∧ (∀ s : State, s.gw.flr = true → flrCut s = true → ∃ t, exec .flrReadCutoff s = .next t ∧ t.gw.reads = [] ∧ t.gw.flr = true)
  ∧ (∀ s : State, s.gw.flr = true → s.gw.reads = [] ∨ flrCut s = true →
    ∃ t, exec .flrComplete s = .next t ∧ t.gw.flr = false ∧ t.gw.mse = false
    ∧ t.gw.bme = false ∧ t.gw.unmasked = 0 ∧ regGet t (Reg.HGW_WIN_BASE_LO 0) = 0#32
    ∧ regGet t (Reg.HGW_WIN_BASE_HI 0) = 0#32)

/-- The host link and its enables (R346, R350 to R355, R519): the link up, changed or down shows its speed, width and
capacity; D-state, MSI-X control and the configuration enables take what the host writes; L1 is requested when
nothing is outstanding; without L0p the link goes back to its full width. -/
def Obligations.HostLink : Prop :=
  (∀ (s : State) (c : DownCause), s.gw.up = true →
    ∃ t, exec (.hostLinkDown c) s = .next t ∧ t.gw.up = false ∧ t.gw.speed = 0 ∧ t.gw.reads = []
      ∧ regGet t Reg.HGW_CAP_UP = 0#32 ∧ regGet t Reg.HGW_CAP_DOWN = 0#32)
  ∧ (∀ (s : State) (sp : LinkSpeed) (w : LinkWidth), s.gw.up = false →
    ∃ t, exec (.hostLinkUp sp w) s = .next t ∧ t.gw.up = true ∧ t.gw.speed = speedCode sp ∧ t.gw.width = laneCount w
      ∧ regGet t Reg.HGW_CAP_UP = word (linkCap (speedCode sp) (laneCount w)))
  ∧ (∀ (s : State) (sp : LinkSpeed) (w : LinkWidth), s.gw.up = true → s.gw.speed ≠ speedCode sp →
    ∃ t, exec (.linkSpeedChange sp w) s = .next t ∧ t.gw.speed = speedCode sp ∧ t.gw.fullWidth = laneCount w
      ∧ regGet t Reg.HGW_CAP_DOWN = word (linkCap (speedCode sp) (laneCount w)))
  ∧ (∀ (s : State) (d3 pe cp : Bool), s.gw.up = true → s.gw.flr = false →
    ∃ t, exec (.dstateChange d3 pe cp) s = .next t ∧ t.gw.d3 = d3 ∧ t.gw.pmeEn = pe)
  ∧ (∀ (s : State) (en fm : Bool), s.gw.up = true → s.gw.flr = false →
    ∃ t, exec (.msixUnmask (.control en fm)) s = .next t ∧ t.gw.msixEn = en ∧ t.gw.fmask = fm)
  ∧ (∀ (s : State) (c : CfgSpace), s.gw.up = true → s.gw.flr = false →
    ∃ t, exec (.busMasterEnable c) s = .next t ∧ t.gw.mse = c.mse ∧ t.gw.bme = c.bme
      ∧ t.gw.mrrs = 128 * 2 ^ c.mrrs.val)
  ∧ (∀ s : State, s.gw.up = true → s.gw.aspm = true → s.gw.waiting = [] → s.gw.reads = [] →
    ∃ t, exec .l1Entry s = .next t ∧ t = { s with outs := .enterL1 :: s.outs })
  ∧ (∀ (s : State) (up down upNow downNow : BitVec 32), s.gw.up = true → regBit s Reg.HGW_CTRL 0 = false →
    regFld s Reg.HGW_L0P_POLICY 1 0 = 0 →
    ∃ t, exec (.l0pDecision up down upNow downNow) s = .next t ∧ t.gw.width = s.gw.fullWidth)

/-! ## Registers -/

/-- Writes (R10, R13, R15): a write of a register without an effect of its own leaves the bits outside its fields, and
its lk fields under LOCK, as they are, unless the configuration engine writes; a write with an invalid zero in an rw
field of a one-word register of the basic level changes no register; a write of a register's LOCK by LOCK_SET sets
it. -/
def Obligations.RegisterWrites : Prop :=
  (∀ (s : State) (ini : Ini) (off : BitVec 26) (v : Word) (d : RegDesc), Reaches s ini off.toNat →
    PlainWrite ini off.toNat v → descAt off.toNat = some d → ini ≠ .cfg →
    ∃ t, exec (.registerWrite ini off .whole v) s = .next t
      ∧ (∀ b < 32, (∀ f ∈ d.fields, b < f.lo ∨ f.hi < b) →
          regBit t off.toNat b = regBit s off.toNat b)
      ∧ (isLocked s off.toNat = true → ∀ f ∈ d.fields, f.acc = .lk →
          regFld t off.toNat f.hi f.lo = regFld s off.toNat f.hi f.lo))
  ∧ (∀ (s : State) (ini : Ini) (off : BitVec 26) (v : Word) (d : RegDesc) (f : Field), Reaches s ini off.toNat →
    PlainWrite ini off.toNat v → descAt off.toNat = some d → d.words ≤ 1 → d.lvl ≠ .expert → ini ≠ .cfg →
    f ∈ d.fields → f.acc = .rw → f.zeroBad = true → fld v f.hi f.lo = 0 →
    ∃ t, exec (.registerWrite ini off .whole v) s = .next t ∧ t.regs = s.regs ∧ t.acc = s.acc)
  ∧ (∀ (s : State) (ini : Ini) (off : BitVec 26) (v : Word), Reaches s ini (lockReg off.toNat) →
    ((descAt (lockReg off.toNat)).any fun d => d.fields.any fun f => f.acc == .w1s && f.hi == 31 && f.lo == 31) = true →
    PlainWrite ini (lockReg off.toNat) (setFld v 31 31 1) →
    ∃ t, exec (.lockSet ini off v) s = .next t ∧ isLocked t off.toNat = true)

/-- Quantities wider than 32 bits (R8, R9): a read of the low word latches the word above it for its initiator alone; a
read of a higher word answers with the latch; a write of the highest word of the load address applies the low word
that the same initiator has written before, and leaves what other initiators hold. -/
def Obligations.WideQuantities : Prop :=
  (∀ (s : State) (ini : Ini) (off : BitVec 26) (d : RegDesc), Reaches s ini off.toNat → PlainRead off.toNat →
    descAt off.toNat = some d → d.words = 2 → d.word = 0 →
    ∃ t, exec (.latchedRead ini off .whole) s = .next t ∧ t.outs = .read ini off.toNat (liveWord s off.toNat) :: s.outs
      ∧ mget 0#32 (latchKey ini (off.toNat + 4)) t.acc.latch = liveWord s (off.toNat + 4)
      ∧ (∀ (j : Ini) (o : Nat), j ≠ ini →
          mget 0#32 (latchKey j o) t.acc.latch = mget 0#32 (latchKey j o) s.acc.latch)
      ∧ t.regs = s.regs ∧ t.mem = s.mem)
  ∧ (∀ (s : State) (ini : Ini) (off : BitVec 26) (d : RegDesc), Reaches s ini off.toNat → PlainRead off.toNat →
    descAt off.toNat = some d → 2 ≤ d.words → d.word ≠ 0 →
    ∃ t, exec (.latchedRead ini off .whole) s = .next t
      ∧ t = { s with outs := .read ini off.toNat (mget 0#32 (latchKey ini off.toNat) s.acc.latch) :: s.outs })
  ∧ (∀ (s : State) (ini : Ini) (v lo : Word), Reaches s ini Reg.CFG_LD_ADDR_HI → ini ≠ .cfg →
    mget? (latchKey ini Reg.CFG_LD_ADDR_LO) s.acc.held = some lo →
    ∃ t, exec (.wideWriteApply ini (BitVec.ofNat 26 Reg.CFG_LD_ADDR_HI) v) s = .next t
      ∧ regFld t Reg.CFG_LD_ADDR_LO 31 6 = fld lo 31 6 ∧ regFld t Reg.CFG_LD_ADDR_HI 7 0 = fld v 7 0
      ∧ mget? (latchKey ini Reg.CFG_LD_ADDR_LO) t.acc.held = none
      ∧ (∀ (j : Ini) (o : Nat), j ≠ ini → mget? (latchKey j o) t.acc.held = mget? (latchKey j o) s.acc.held))
  ∧ (∀ (s : State) (ini : Ini) (v : Word), Reaches s ini Reg.CFG_LD_ADDR_HI → ini ≠ .cfg →
    mget? (latchKey ini Reg.CFG_LD_ADDR_LO) s.acc.held = none →
    ∃ t, exec (.wideWriteApply ini (BitVec.ofNat 26 Reg.CFG_LD_ADDR_HI) v) s = .next t
      ∧ regGet t Reg.CFG_LD_ADDR_LO = regGet s Reg.CFG_LD_ADDR_LO ∧ regFld t Reg.CFG_LD_ADDR_HI 7 0 = fld v 7 0)

/-- Unimplemented offsets (R16): a read of one answers all ones, a write to one is dropped, and the only other effects
are the gateway's count and its event UNMAPPED_ACCESS, with the BAR as SOURCE and in ARG0 above the offset, and the
data of a write in ARG1, whoever made the access. -/
def Obligations.UnmappedOffsets : Prop :=
  (∀ (s : State) (ini : Ini) (off : BitVec 30) (w : Option Word), s.mainReset = false →
    (ini = .host → takesRequests s = true ∧ gwBusy s = false) → (regionOf (off.toNat / 4 * 4) = 0xFF ∨
      (blockPowered s (blockOf (off.toNat / 4 * 4)) = true ∧ descAt (off.toNat / 4 * 4) = none
        ∧ regionOf (off.toNat / 4 * 4) ≠ 0x30)) →
    ∃ t, exec (.unmappedAccess ini 0 off w) s = .next t
      ∧ t = go (raise 0x0005 0 notice (off.toNat / 4 * 4) (w.getD 0#32).toNat) { s with
          outs := (if w.isNone then [Out.read ini (off.toNat / 4 * 4) allOnes] else []) ++ s.outs
          regs := mput Reg.HGW_UNMAPPED (word (satAdd32 (regGet s Reg.HGW_UNMAPPED).toNat 1)) s.regs })
  ∧ (∀ (s : State) (off : BitVec 30) (w : Option Word), takesRequests s = true → gwBusy s = false → 0x30000000 ≤ off.toNat →
    (ptAbsent (off.toNat / 0x10000 % 0x1000) = true ∨ ptValid s (off.toNat / 0x10000 % 0x1000) = false
      ∨ leAt (partnerOf s (off.toNat / 0x10000 % 0x1000)).desc 56 4 ≤ off.toNat / 4 * 4 % 0x10000) →
    ∃ t, exec (.unmappedAccess .host 1 off w) s = .next t
      ∧ t = go (raise 0x0005 2 notice (2 * 2 ^ 32 + off.toNat / 4 * 4) (w.getD 0#32).toNat) { s with
          outs := (if w.isNone then [Out.window 2 (off.toNat / 4 * 4) allOnes] else []) ++ s.outs
          regs := mput Reg.HGW_UNMAPPED (word (satAdd32 (regGet s Reg.HGW_UNMAPPED).toNat 1)) s.regs })
  ∧ (∀ (s : State) (off : BitVec 30) (w : Option Word), takesRequests s = true → gwBusy s = false →
    0x400 ≤ off.toNat / 4 * 4 → off.toNat / 4 * 4 ≠ 0x8000 → off.toNat / 4 * 4 ≠ 0x8004 →
    ∃ t, exec (.unmappedAccess .host 2 off w) s = .next t
      ∧ t = go (raise 0x0005 4 notice (4 * 2 ^ 32 + off.toNat / 4 * 4) (w.getD 0#32).toNat) { s with
          outs := (if w.isNone then [Out.window 4 (off.toNat / 4 * 4) allOnes] else []) ++ s.outs
          regs := mput Reg.HGW_UNMAPPED (word (satAdd32 (regGet s Reg.HGW_UNMAPPED).toNat 1)) s.regs })

/-- Levels (R17, R18, R20): a write of LEVEL of a block without a boundary is in force at once; of ERG and MOV, only at
the boundary, which brings LEVEL_NOW to the LEVEL bit and, on entering the basic level, arms EXPERT_IGNORED again;
at the basic level a write of an expert register changes no register. -/
def Obligations.Levels : Prop :=
  (∀ (s : State) (ini : Ini) (off : BitVec 26) (v : Word), noBoundary (levelUnit off.toNat) = true →
    Reaches s ini (levelUnit off.toNat) →
    (PlainWrite ini (levelUnit off.toNat) v ∨ levelUnit off.toNat = Reg.HAM_CTRL ∨ levelUnit off.toNat = Reg.EVT_CTRL) →
    ∃ t, exec (.levelWrite ini off v) s = .next t ∧ atExpert t (levelUnit off.toNat) = bit v 0)
  ∧ (∀ (s : State) (ini : Ini) (off : BitVec 26) (v : Word),
    levelUnit off.toNat = Reg.ERG_CTRL ∨ levelUnit off.toNat = Reg.MOV_CTRL → Reaches s ini (levelUnit off.toNat) →
    ∃ t, exec (.levelWrite ini off v) s = .next t ∧ regBit t (levelUnit off.toNat) 0 = bit v 0
      ∧ ∀ u, atExpert t u = atExpert s u)
  ∧ (∀ (s : State) (u : BitVec 26), levelUnit u.toNat = u.toNat → s.mainReset = false →
    blockPowered s (blockOf u.toNat) = true →
    ∃ t, exec (.levelBoundary u) s = .next t ∧ atExpert t u.toNat = regBit s u.toNat 0
      ∧ (atExpert s u.toNat = true → regBit s u.toNat 0 = false → mget? u.toNat t.acc.ignored = none)
      ∧ (∀ w, w ≠ u.toNat → atExpert t w = atExpert s w) ∧ t.regs = s.regs ∧ t.mem = s.mem)
  ∧ (∀ (s : State) (ini : Ini) (off : BitVec 26) (v : Word) (d : RegDesc), Reaches s ini off.toNat →
    PlainWrite ini off.toNat v → descAt off.toNat = some d → d.lvl = .expert → ini ≠ .cfg →
    atExpert s (levelUnit off.toNat) = false →
    ∃ t, exec (.registerWrite ini off .whole v) s = .next t ∧ t.regs = s.regs
      ∧ mget? (levelUnit off.toNat) t.acc.ignored ≠ none)

/-! ## Configuration -/

/-- SEQ values are compared by serial-number arithmetic (R381): a is newer than b when (a - b) mod 2^32 lies in 1 to
2^31 - 1, and two values that differ by exactly 2^31 are neither newer nor older than each other. -/
def Obligations.SerialOrder : Prop :=
  (∀ a b : Nat, a < 2 ^ 32 → b < 2 ^ 32 →
    (seqNewer a b = true ↔ ∃ d : Nat, 1 ≤ d ∧ d ≤ 2 ^ 31 - 1 ∧ (b + d) % 2 ^ 32 = a))
  ∧ (∀ a b : Nat, a < 2 ^ 32 → b < 2 ^ 32 → (a + 2 ^ 31) % 2 ^ 32 = b →
    seqNewer a b = false ∧ seqNewer b a = false)

/-- Loads (R382, R384, R386 to R389): main reset's release samples BOOT_SEL and starts the boot from flash or waits for
a load; LOAD_GO guards the image in device memory and starts a load; an image that passes every check is in force
with its SEQ, and one that fails is refused with its REASON and leaves the structure; PREP_GO starts a shadow build;
FLOOR_COMMIT sets the floor to the SEQ of the full image in force unless the floor is newer. -/
def Obligations.ConfigLoad : Prop :=
  (∀ (s : State) (b : BitVec 2) (j : BitVec 24) (r : Bool), s.mainReset = true → hamOn s = true → (s.ham.starting = true → suppliesGood s = true) →
    ∃ t, exec (.mainResetRelease b j r) s = .next t ∧ t.mainReset = false ∧ t.cfg.bootSel = b.toNat
      ∧ t.cfg.flashId = j.toNat ∧ t.cfg.st = (if b.toNat % 2 = 0 then 1 else 5)
      ∧ (b.toNat % 2 = 0 → t.cfg.loading = true ∧ t.cfg.hostLoad = false))
  ∧ (∀ (s : State) (ini : Ini) (v : Word), Reaches s ini Reg.CFG_CTRL → engineBusy s = false →
    regBit s Reg.CFG_CTRL 31 = false → bit v 31 = false → regGet s Reg.CFG_LD_LEN ≠ 0#32 →
    ∃ t, exec (.loadGo ini v) s = .next t ∧ t.cfg.st = 1 ∧ t.cfg.loading = true ∧ t.cfg.hostLoad = true
      ∧ t.store.image = some (regWide s Reg.CFG_LD_ADDR_LO Reg.CFG_LD_ADDR_HI, (regGet s Reg.CFG_LD_LEN).toNat)
      ∧ t.erg = s.erg)
  ∧ (∀ (s : State) (c d : Candidate) (img : List Byte) (i : Image), s.cfg.loading = true → s.cfg.hostLoad = true →
    s.mainReset = false → loadImage s = some img → c.readable = true → checkFull s img true c.fit 13 = .ok i →
    ∃ t, exec (.imageApply c d) s = .next t ∧ t.erg.valid = true ∧ t.erg.seq = i.seq ∧ t.cfg.st = 4
      ∧ t.cfg.loading = false ∧ t.store.image = none ∧ regGet t Reg.CFG_SEQ = word i.seq)
  ∧ (∀ (s : State) (c d : Candidate) (img : List Byte) (e : ImgBad), s.cfg.loading = true → s.cfg.hostLoad = true →
    s.mainReset = false → loadImage s = some img → checkFull s img c.readable c.fit 13 = .error e →
    ∃ t, exec (.imageApply c d) s = .next t ∧ t.erg = s.erg ∧ t.cfg.reason = e.reason ∧ t.cfg.loading = false
      ∧ t.store.image = none
      ∧ regGet t Reg.CFG_REFUSALS = word (satAdd32 (regGet s Reg.CFG_REFUSALS).toNat 1))
  ∧ (∀ (s : State) (ini : Ini) (v : Word), Reaches s ini Reg.CFG_CTRL → engineBusy s = false →
    regBit s Reg.CFG_CTRL 31 = false → bit v 31 = false → bit v 2 = false → bit v 6 = false →
    regGet s Reg.CFG_LD_LEN ≠ 0#32 →
    ∃ t, exec (.prepGo ini v) s = .next t ∧ t.cfg.st = 6 ∧ t.erg = s.erg
      ∧ t.store.image = some (regWide s Reg.CFG_LD_ADDR_LO Reg.CFG_LD_ADDR_HI, (regGet s Reg.CFG_LD_LEN).toNat))
  ∧ (∀ (s : State) (ini : Ini) (v : Word), Reaches s ini Reg.CFG_CTRL → s.cfg.full = true → bit v 5 = false →
    seqNewer (regGet s Reg.CFG_SEQ_FLOOR).toNat (regGet s Reg.CFG_SEQ).toNat = false →
    ∃ t, exec (.floorCommit ini v) s = .next t ∧ regGet t Reg.CFG_SEQ_FLOOR = regGet s Reg.CFG_SEQ)

/-- A live change of structure (R390, R391, R393, R396): the shadow build ends PREPARED; ARM, or the warm frames with
AUTO_ARM or a held ARM, leave it ARMED; each cut, forced or not, takes the next owner, and the last one leaves the
device with the image's SEQ in force, when the image writes no register of HAM (such a write may move the power
state); ABORT before the first cut ends it and takes the shadow instances away. -/
def Obligations.LiveChange : Prop :=
  (∀ (s : State) (k : Candidate) (img : List Byte) (i : Image) (c : Change), s.cfg.st = 6 → s.mainReset = false →
    loadImage s = some img → k.readable = true → checkPartial s img true k.fit = .ok (i, c) → s.cfg.armHeld = false →
    regBit s Reg.CFG_CTRL 4 = false →
    ∃ t, exec (.prepared k) s = .next t ∧ t.cfg.st = 7 ∧ t.cfg.change = some c ∧ t.store.image = none
      ∧ t.erg.seq = s.erg.seq)
  ∧ (∀ (s : State) (k : Candidate) (img : List Byte) (e : ImgBad), s.cfg.st = 6 → s.mainReset = false →
    loadImage s = some img → checkPartial s img k.readable k.fit = .error e →
    ∃ t, exec (.prepared k) s = .next t ∧ t.cfg.st = cfgRest s ∧ t.cfg.reason = e.reason ∧ t.erg = s.erg)
  ∧ (∀ (s : State) (ini : Ini) (v : Word) (c : Change), Reaches s ini Reg.CFG_CTRL → s.cfg.st = 7 →
    s.cfg.change = some c → c.owners ≠ [] → bit v 6 = false →
    ∃ t, exec (.arm ini v) s = .next t ∧ t.cfg.st = 8 ∧ t.cfg.change = some { c with armed := s.raw } ∧ t.erg = s.erg)
  ∧ (∀ (s : State) (c : Change), s.cfg.st = 7 → s.cfg.armHeld = true ∨ regBit s Reg.CFG_CTRL 4 = true →
    shadowsWarm s = true → s.cfg.change = some c → c.owners ≠ [] →
    ∃ t, exec .armed s = .next t ∧ t.cfg.st = 8 ∧ t.cfg.change = some { c with armed := s.raw } ∧ t.erg = s.erg)
  ∧ (∀ (s : State) (a : BitVec 32) (c : Change) (o : Nat × Nat) (rest : List (Nat × Nat)), s.mainReset = false →
    s.cfg.st = 8 ∨ s.cfg.st = 9 → s.cfg.change = some c → c.owners.drop c.done = o :: rest →
    atBoundary s o = true →
    (∀ w ∈ c.writes, regionOf w.2.1 ≠ 0x01) →
    ∃ t, exec (.ownerCut a) s = .next t
      ∧ (rest ≠ [] → t.cfg.st = 9 ∧ t.cfg.change.map (fun x => x.done) = some (c.done + 1) ∧ t.erg.seq = s.erg.seq)
      ∧ (rest = [] → t.cfg.st = 4 ∧ t.cfg.change = none ∧ t.erg.seq = c.seq))
  ∧ (∀ (s : State) (a : BitVec 32) (c : Change) (o : Nat × Nat) (rest : List (Nat × Nat)), s.mainReset = false →
    s.cfg.st = 8 ∨ s.cfg.st = 9 → s.cfg.change = some c → c.owners.drop c.done = o :: rest →
    cutTimedOut s = true →
    (∀ w ∈ c.writes, regionOf w.2.1 ≠ 0x01) →
    ∃ t, exec (.cutForced a) s = .next t
      ∧ (rest ≠ [] → t.cfg.st = 9 ∧ t.cfg.change.map (fun x => x.done) = some (c.done + 1) ∧ t.erg.seq = s.erg.seq)
      ∧ (rest = [] → t.cfg.st = 4 ∧ t.cfg.change = none ∧ t.erg.seq = c.seq))
  ∧ (∀ (s : State) (ini : Ini) (v : Word), Reaches s ini Reg.CFG_CTRL → 6 ≤ s.cfg.st → s.cfg.st ≤ 8 →
    ((s.cfg.change.map fun x => x.done).getD 0) = 0 → bit v 5 = false →
    ∃ t, exec (.cfgAbort ini v) s = .next t ∧ t.cfg.st = cfgRest s ∧ t.cfg.change = none ∧ t.store.image = none
      ∧ t.erg = { s.erg with insts := s.erg.insts.filter fun x => !x.2.shadow })

/-- The flash port (R385): a GO whose checks pass starts a READ, a PROGRAM or an ERASE of LEN bytes at ADDR; an ERASE
leaves 0xFF, a PROGRAM takes the device's bytes, and each ends with RESULT 0 and BUSY cleared. PROGRAM clears bits
only (log 98: presumed of the flash). -/
def Obligations.FlashPort : Prop :=
  (∀ (s : State) (ini : Ini) (v : Word), Reaches s ini Reg.CFG_FL_CTRL → s.cfg.flashOp = none →
    flashCheck s 0 (regGet s Reg.CFG_FL_ADDR).toNat (regGet s Reg.CFG_FL_LEN).toNat = none →
    ∃ t, exec (.flashRead ini v) s = .next t
      ∧ t.cfg.flashOp = some ⟨0, (regGet s Reg.CFG_FL_ADDR).toNat, (regGet s Reg.CFG_FL_LEN).toNat,
          regWide s Reg.CFG_FL_DEV_LO Reg.CFG_FL_DEV_HI % 2 ^ 40⟩ ∧ t.mem = s.mem ∧ t.cfg.flash = s.cfg.flash)
  ∧ (∀ (s : State) (ini : Ini) (v : Word), Reaches s ini Reg.CFG_FL_CTRL → s.cfg.flashOp = none →
    flashCheck s 1 (regGet s Reg.CFG_FL_ADDR).toNat (regGet s Reg.CFG_FL_LEN).toNat = none →
    ∃ t, exec (.flashProgram ini v) s = .next t
      ∧ t.cfg.flashOp = some ⟨1, (regGet s Reg.CFG_FL_ADDR).toNat, (regGet s Reg.CFG_FL_LEN).toNat,
          regWide s Reg.CFG_FL_DEV_LO Reg.CFG_FL_DEV_HI % 2 ^ 40⟩ ∧ t.mem = s.mem ∧ t.cfg.flash = s.cfg.flash)
  ∧ (∀ (s : State) (ini : Ini) (v : Word), Reaches s ini Reg.CFG_FL_CTRL → s.cfg.flashOp = none →
    flashCheck s 2 (regGet s Reg.CFG_FL_ADDR).toNat (regGet s Reg.CFG_FL_LEN).toNat = none →
    ∃ t, exec (.flashErase ini v) s = .next t
      ∧ t.cfg.flashOp = some ⟨2, (regGet s Reg.CFG_FL_ADDR).toNat, (regGet s Reg.CFG_FL_LEN).toNat,
          regWide s Reg.CFG_FL_DEV_LO Reg.CFG_FL_DEV_HI % 2 ^ 40⟩ ∧ t.mem = s.mem ∧ t.cfg.flash = s.cfg.flash)
  ∧ (∀ (s : State) (o : FlashOp), s.mainReset = false → s.cfg.flashOp = some o → o.op = 1 ∨ o.op = 2 →
    ∃ t, exec (.flashDone false) s = .next t ∧ t.cfg.flashOp = none ∧ t.cfg.flashDone = true ∧ t.cfg.flashResult = 0
      ∧ regBit t Reg.CFG_FL_CTRL 31 = false
      ∧ (∀ k < o.len, flashByte t (o.addr + k) =
          if o.op = 2 then 0xFF#8 else flashByte s (o.addr + k) &&& memByte s (o.dev + k))
      ∧ (∀ a, a < o.addr ∨ o.addr + o.len ≤ a → flashByte t a = flashByte s a)
      ∧ ∀ a, ¬ringByte s a → memByte t a = memByte s a)

/-! ## The control cores -/

/-- Control of the cores (R410, R412, R414, R415): RESET starts a core again at its entry when RUN is set; DINV empties
its data cache; a kick with the key restarts its watchdog, and another key does nothing; a first expiry warns, a
second resets the core, and a watchdog with time left does nothing; the timer ends a WFI; MSIP holds what is
written; a debug halt stops a core and its watchdog, a resume goes on. -/
def Obligations.CoreControl : Prop :=
  (∀ (s : State) (ini : Ini) (n : Fin 4) (v : Word), Reaches s ini (Reg.CCO_CORE_CTRL n) →
    ∃ t, exec (.coreReset ini n v) s = .next t
      ∧ coreOf t n = (if bit v 30 then ⟨1, coreEntry s n, [], [], true, [], [0, 0, 0, 0, 0, 0], none, [], [], [], 1, s.raw,
          none, false⟩ else { wdgFrom := s.raw })
      ∧ regBit t (Reg.CCO_CORE_CTRL n) 31 = false)
  ∧ (∀ (s : State) (ini : Ini) (n : Fin 4) (v : Word), Reaches s ini (Reg.CCO_CORE_CTRL n) → bit v 31 = false →
    ∃ t, exec (.dinv ini n v) s = .next t ∧ coreOf t n = { coreOf s n with dcache := [] }
      ∧ regBit t (Reg.CCO_CORE_CTRL n) 29 = false ∧ t.mem = s.mem)
  ∧ (∀ (s : State) (ini : Ini) (n : Fin 4) (v : Word), Reaches s ini (Reg.CCO_WDG_KICK n) →
    ∃ t, exec (.wdogKick ini n v) s = .next t
      ∧ (fld v 15 0 = 0x5AFE → (coreOf t n).wdgFrom = s.raw ∧ (coreOf t n).warned = false)
      ∧ (fld v 15 0 ≠ 0x5AFE → t.cco = s.cco) ∧ t.mem = s.mem)
  ∧ (∀ (s : State) (n : Fin 4), ccoOn s = true → regBit s (Reg.CCO_WDG_CTRL n) 31 = true → (coreOf s n).st ≠ 3 →
    (coreOf s n).warned = false → wdgLeft s n = 0 →
    ∃ t, exec (.wdogExpire n) s = .next t ∧ regBit t (Reg.CCO_IRQ_PEND n) 4 = true ∧ (coreOf t n).warned = true
      ∧ (coreOf t n).wdgFrom = s.raw ∧ (coreOf t n).pc = (coreOf s n).pc)
  ∧ (∀ (s : State) (n : Fin 4), ccoOn s = true → regBit s (Reg.CCO_WDG_CTRL n) 31 = true → (coreOf s n).st ≠ 3 →
    (coreOf s n).warned = true → wdgLeft s n = 0 → regBit s (Reg.CCO_CORE_CTRL n) 30 = true →
    ∃ t, exec (.wdogExpire n) s = .next t ∧ (coreOf t n).st = 1 ∧ (coreOf t n).pc = coreEntry s n
      ∧ (coreOf t n).warned = false
      ∧ regGet t (Reg.CCO_WDG_RESETS n) = word (satAdd32 (regGet s (Reg.CCO_WDG_RESETS n)).toNat 1))
  ∧ (∀ (s : State) (n : Fin 4), ccoOn s = true → mtip s n = true → (coreOf s n).st = 2 → irqWaits s n = true →
    ∃ t, exec (.machineTimer n) s = .next t ∧ coreOf t n = { coreOf s n with st := 1 } ∧ t.regs = s.regs ∧ t.mem = s.mem)
  ∧ (∀ (s : State) (ini : Ini) (n : Fin 4) (v : Word), Reaches s ini (Reg.CCO_MSIP n) →
    ∃ t, exec (.msipWrite ini n v) s = .next t ∧ regBit t (Reg.CCO_MSIP n) 0 = bit v 0 ∧ t.mem = s.mem)
  ∧ (∀ (s : State) (n : Fin 4), ccoOn s = true → (coreOf s n).st = 1 ∨ (coreOf s n).st = 2 →
    ∃ t, exec (.debugHalt n) s = .next t ∧ coreOf t n = { coreOf s n with
        st := 3, before := (coreOf s n).st, wdgHeld := some (s.raw - (coreOf s n).wdgFrom) }
      ∧ t = { s with cco := t.cco })
  ∧ (∀ (s : State) (n : Fin 4), ccoOn s = true → (coreOf s n).st = 3 →
    ∃ t, exec (.debugResume n) s = .next t ∧ (coreOf t n).st = (coreOf s n).before ∧ (coreOf t n).wdgHeld = none
      ∧ t = { s with cco := t.cco })
  ∧ (∀ (s : State) (n : Fin 4), wdgLeft s n ≠ 0 → exec (.wdogExpire n) s = .next s)

/-- The mailbox (R413): a doorbell makes MAILBOX pending at each core it names; a core's clear takes its bit of CORES
away; GO sends MBX_VEC and stays set until ACK, and while it is set another GO sends nothing. -/
def Obligations.Mailbox : Prop :=
  (∀ (s : State) (ini : Ini) (v : Word) (n : Fin 4), Reaches s ini Reg.CCO_MBX_IN_DB → bit v n = true →
    ∃ t, exec (.mbxDoorbell ini v) s = .next t ∧ regBit t (Reg.CCO_IRQ_PEND n) 0 = true
      ∧ regBit t Reg.CCO_MBX_IN_DB n = true)
  ∧ (∀ (s : State) (ini : Ini) (n : Fin 4) (v : Word), Reaches s ini (Reg.CCO_IRQ_PEND n) →
    ∃ t, exec (.mailboxClear ini n v) s = .next t ∧ regBit t (Reg.CCO_IRQ_PEND n) 0 = false
      ∧ regBit t Reg.CCO_MBX_IN_DB n = false ∧ t.mem = s.mem ∧ t.cco = s.cco)
  ∧ (∀ (s : State) (ini : Ini) (v : Word), Reaches s ini Reg.CCO_MBX_OUT_DB → regBit s Reg.CCO_MBX_OUT_DB 31 = false →
    isLocked s Reg.CCO_MBX_OUT_DB = false → msixHeld s (fld v 5 0) = false →
    ∃ t, exec (.mbxOutGo ini v) s = .next t ∧ regBit t Reg.CCO_MBX_OUT_DB 31 = true
      ∧ t.outs = .msix (fld v 5 0) (mget 0 (fld v 5 0) s.gw.msixAddr) (mget 0#32 (fld v 5 0) s.gw.msixData) :: s.outs)
  ∧ (∀ (s : State) (ini : Ini) (v : Word), Reaches s ini Reg.CCO_MBX_OUT_DB → regBit s Reg.CCO_MBX_OUT_DB 31 = true →
    isLocked s Reg.CCO_MBX_OUT_DB = false → bit v 30 = false →
    ∃ t, exec (.mbxOutGo ini v) s = .next t ∧ regBit t Reg.CCO_MBX_OUT_DB 31 = true ∧ t.outs = s.outs)
  ∧ (∀ (s : State) (ini : Ini) (v : Word), Reaches s ini Reg.CCO_MBX_OUT_DB → isLocked s Reg.CCO_MBX_OUT_DB = false →
    bit v 31 = false →
    ∃ t, exec (.mbxAck ini v) s = .next t ∧ regBit t Reg.CCO_MBX_OUT_DB 31 = false ∧ t.outs = s.outs)

/-- Instructions of a core (R399 to R404, R409): a register operation, with x0 as destination too, changes its
destination and the pc alone; a branch or jump moves the pc; a store waits in the store buffer and leaves memory;
the I/O count and the number of instructions advance; ECALL and an instruction the core does not have trap; an
interrupt is taken before the next instruction. What an operation computes is RISC-V's (log 100: presumed). -/
def Obligations.CoreInstructions : Prop :=
  (∀ (s : State) (n : Fin 4) (w : Nat) (v : XWord), CoreReady s n w → w % 128 = 0x33 →
    aluOp (bits w 31 25) (bits w 14 12) (getX (coreOf s n) (bits w 19 15)) (getX (coreOf s n) (bits w 24 20)) = some v →
    ∃ t, exec (.coreInstruction n []) s = .next t ∧ (coreOf t n).pc = (coreOf s n).pc + 4
      ∧ (∀ r, getX (coreOf t n) r = if r = bits w 11 7 ∧ r ≠ 0 then v else getX (coreOf s n) r)
      ∧ (coreOf t n).csr = (coreOf s n).csr ∧ (coreOf t n).f = (coreOf s n).f
      ∧ nthD 0#64 1 (coreOf t n).counts = nthD 0#64 1 (coreOf s n).counts + (if 1 < (coreOf s n).counts.length then 1 else 0)
      ∧ t.mem = s.mem ∧ t.regs = s.regs)
  ∧ (∀ (s : State) (n : Fin 4) (w : Nat) (b : Bool), CoreReady s n w → w % 128 = 0x63 →
    branchTaken (bits w 14 12) (getX (coreOf s n) (bits w 19 15)) (getX (coreOf s n) (bits w 24 20)) = some b →
    ∃ t, exec (.coreInstruction n []) s = .next t
      ∧ (coreOf t n).pc = (if b then (xw (coreOf s n).pc + immB w).toNat else (coreOf s n).pc + 4)
      ∧ (coreOf t n).x = (coreOf s n).x ∧ t.mem = s.mem ∧ t.regs = s.regs)
  ∧ (∀ (s : State) (n : Fin 4) (w a : Nat), CoreReady s n w → w % 128 = 0x23 → bits w 14 12 = 3 →
    a = (getX (coreOf s n) (bits w 19 15) + immS w).toNat → 0x20000000 ≤ a → a + 8 ≤ 0x20400000 →
    pmpAllows (coreOf s n) (dataMode (coreOf s n)) a 8 1 = true → poisoned s a 8 = [] →
    ∃ t, exec (.coreInstruction n []) s = .next t ∧ (coreOf t n).pc = (coreOf s n).pc + 4
      ∧ (coreOf t n).stores = [(a, leBytes 8 (getX (coreOf s n) (bits w 24 20)).toNat)]
      ∧ (coreOf t n).x = (coreOf s n).x ∧ t.mem = s.mem ∧ t.regs = s.regs)
  ∧ (∀ (s : State) (n : Fin 4), CoreReady s n 0x00000073 →
    ∃ t, exec (.coreInstruction n []) s = .next t ∧ csrGet (coreOf t n) 0x341 = xw (coreOf s n).pc
      ∧ csrGet (coreOf t n) 0x342 = 11#64 ∧ (coreOf t n).machine = true
      ∧ (coreOf t n).pc = (csrGet (coreOf s n) 0x305).toNat / 4 * 4 ∧ mst (coreOf t n) 7 7 = mst (coreOf s n) 3 3
      ∧ mst (coreOf t n) 3 3 = 0 ∧ mst (coreOf t n) 12 11 = 3 ∧ t.mem = s.mem)
  ∧ (∀ (s : State) (n : Fin 4) (k : Nat), ccoOn s = true → s.ham.st = .watch ∨ s.ham.st = .run ∨ s.ham.st = .full →
    (coreOf s n).st = 1 → (coreOf s n).stores = [] → irqCause s n = some k →
    ∃ t, exec (.coreInstruction n []) s = .next t ∧ csrGet (coreOf t n) 0x341 = xw (coreOf s n).pc
      ∧ csrGet (coreOf t n) 0x342 = xw (2 ^ 63 + k) ∧ (coreOf t n).machine = true
      ∧ (coreOf t n).x = (coreOf s n).x ∧ t.mem = s.mem ∧ t.regs = s.regs)

/-! ## Hamada -/

/-- Resets (R429 to R431, R434, R519): power-up leaves main reset asserted, memory empty and no structure, keeps the
backup words when the domain lost nothing and its check word is right and else clears them, and device time is
COARSE or UNSET by them; RESET_N and the reset key assert main reset, record the cause, take the structure, the
cores and the summary bits away, and keep device time and the backup domain; a loss of main power takes the link and
held writes; supplies that are not good 100 ms after power-up are reported, and good ones never. -/
def Obligations.Resets : Prop :=
  (∀ (s : State) (e : BitVec 64), hamOn s = false →
    ∃ t, exec (.powerUp e) s = .next t ∧ t.mainReset = true ∧ t.raw = 0 ∧ t.erg.valid = false ∧ t.cco = {}
      ∧ t.lne = {} ∧ t.plk = {} ∧ t.cap = {} ∧ t.taps = {} ∧ t.jrn = {} ∧ t.ham.st = .run ∧ t.ham.held = [] ∧ t.ham.starting = true
      ∧ (∀ a < 2 ^ 37, memByte t a = 0#8)
      ∧ t.tim.st = (if t.ham.bkValid && t.ham.coarseOk then .coarse else .unset)
      ∧ (s.ham.st ≠ .off → s.ham.lost = 0 → s.ham.check.toNat = bkCheck s.ham.words →
          t.ham.bkValid = true ∧ t.ham.words = s.ham.words)
      ∧ (s.ham.st = .off ∨ s.ham.lost ≠ 0 ∨ s.ham.check.toNat ≠ bkCheck s.ham.words →
          t.ham.bkValid = false ∧ t.ham.words = [] ∧ t.ham.lost ≠ 0))
  ∧ (∀ s : State, s.ham.st ≠ .off → s.ham.st ≠ .backup →
    ∃ t, exec .resetNAssert s = .next t ∧ t.mainReset = true ∧ t.erg.valid = false ∧ t.cco = {} ∧ t.lne = {} ∧ t.plk = {}
      ∧ timeNow t = timeNow s ∧ t.ham.words = s.ham.words ∧ t.ham.st = .run ∧ t.ham.moving = false
      ∧ regBit t Reg.HAM_RESET_CAUSE 1 = true ∧ regBit t Reg.HAM_CTRL 31 = false
      ∧ ∀ k < 20, t.evtFault.testBit k = false ∧ t.evtHalt.testBit k = false)
  ∧ (∀ (s : State) (ini : Ini) (v : Word), Reaches s ini Reg.HAM_RESET →
    ∃ t, exec (.softwareReset ini v) s = .next t ∧ t.mainReset = true ∧ t.erg.valid = false ∧ t.cco = {}
      ∧ timeNow t = timeNow s ∧ t.ham.words = s.ham.words ∧ regBit t Reg.HAM_RESET_CAUSE 2 = true
      ∧ ∀ k < 20, t.evtFault.testBit k = false ∧ t.evtHalt.testBit k = false)
  ∧ (∀ (s : State) (cell : Bool), hamOn s = true ∨ (s.ham.st = .backup ∧ cell = false) →
    ∃ t, exec (.mainPowerLoss cell) s = .next t ∧ t.mainReset = true ∧ t.gw.up = false
      ∧ t.ham.st = (if cell then .backup else .off) ∧ t.ham.held = [] ∧ t.ham.words = s.ham.words)
  ∧ (∀ (s : State) (m : BitVec 16), evtPowered s = true → hamOn s = true → s.mainReset = true → s.ham.starting = true →
    50000000 ≤ s.raw → suppliesGood s = false → (∀ k < 16, m.getLsbD k = (decide (k < 9) && supplyOut s k)) →
    ∃ t, exec (.powerFail m) s = .next t ∧ t.evtFault.testBit 1 = true ∧ t.regs = s.regs ∧ t.ham = s.ham)
  ∧ (∀ (s : State) (m : BitVec 16), suppliesGood s = true ∨ s.raw < 50000000 → exec (.powerFail m) s = .next s)

/-- Power states (R422 to R426, R512): a TARGET starts the change to the next state on its way, or waits for the change
that runs; the drain before WATCH, once the frames are shut or DRAIN_MS has passed, empties the pipelines outside
the watch set and is recorded; a change that is done is in force; capture-ready, with no lane in its first attempt,
resumes the generators; a wake source that fires in REST starts the change to WATCH, and one whose condition does
not hold does nothing; the alarm disarms, and wakes as its source; a thermal trip is in REST at once, until its
release with cool dies. -/
def Obligations.PowerStates : Prop :=
  (∀ (s : State) (ini : Ini) (v : Word), Reaches s ini Reg.HAM_PWR_REQ → 2 ≤ fld v 2 0 → fld v 2 0 ≤ 5 →
    s.ham.moving = false →
    ∃ t, exec (.pwrTargetWrite ini v) s = .next t ∧ t.ham.target = fld v 2 0 ∧ t.ham.st = s.ham.st
      ∧ t.ham.moving = (nextPower s.ham.st (powerOfCode (fld v 2 0)) != s.ham.st)
      ∧ (t.ham.moving = true → t.ham.goal = nextPower s.ham.st (powerOfCode (fld v 2 0)) ∧ t.ham.since = s.raw))
  ∧ (∀ (s : State) (ini : Ini) (v : Word), Reaches s ini Reg.HAM_PWR_REQ → 2 ≤ fld v 2 0 → fld v 2 0 ≤ 5 →
    s.ham.moving = true →
    ∃ t, exec (.pwrTargetWrite ini v) s = .next t ∧ t.ham = { s.ham with later := some (fld v 2 0) })
  ∧ (∀ s : State, s.ham.moving = true → mainPowered s = true → s.ham.goal = .watch → changeRuns s = false →
    s.ham.drained = false → framesShut s = true ∨ drainTimedOut s = true →
    ∃ t, exec .drainComplete s = .next t ∧ t.ham.drained = true
      ∧ ∀ p ∈ s.cap.pipes.map Prod.fst, s.erg.watch.contains p = false →
          (pipeOf t p).flow = [] ∧ (pipeOf t p).frameOpen = false)
  ∧ (∀ s : State, s.ham.moving = true → (mainPowered s = true → s.ham.goal = .watch → s.ham.drained = true) →
    s.ham.later = none → s.ham.wakeLater = none → powerOfCode s.ham.target = s.ham.goal → s.ham.goal ≠ .off →
    s.ham.goal ≠ .backup →
    ∃ t, exec .powerStateReached s = .next t ∧ t.ham.st = s.ham.goal ∧ t.ham.moving = false
      ∧ (s.ham.goal = .rest → t.erg.valid = false ∧ t.cco = {}))
  ∧ (∀ s : State, mainPowered s = true → s.erg.valid = true → s.ham.genHold = true → s.ham.drained = false →
    s.ham.moving = false → (∀ n < 128, firstAttempt s n = false) →
    ∃ t, exec .captureReady s = .next t ∧ t.ham.genHold = false ∧ t.ham.st = s.ham.st)
  ∧ (∀ (s : State) (b : Fin 9), s.mainReset = false → s.ham.st = .rest → s.ham.moving = false → s.ham.tripped = false →
    regBit s Reg.HAM_WAKE_EN b = true → b.val ≠ 7 → wakeHolds s b = true →
    ∃ t, exec (.wake b) s = .next t ∧ t.ham.moving = true ∧ t.ham.goal = .watch
      ∧ t.ham.target = (if regBit s Reg.HAM_WAKE_RUN b then 4 else 3)
      ∧ regBit t Reg.HAM_WAKE_STATUS b = true ∧ regFld t Reg.HAM_WAKE_STATUS 31 24 = b)
  ∧ (∀ s : State, hamOn s = true → regBit s Reg.HAM_ALARM_EN 0 = true →
    wrapTo 32 (secondsNow s - (regGet s Reg.HAM_ALARM).toNat) < 2 ^ 31 →
    ∃ t, exec .alarm s = .next t ∧ regBit t Reg.HAM_ALARM_EN 0 = false
      ∧ (regBit s Reg.HAM_WAKE_EN 7 = true → s.ham.tripped = false → s.ham.st = .rest ∨ s.ham.st = .watch →
          regBit t Reg.HAM_WAKE_STATUS 7 = true))
  ∧ (∀ (s : State) (a : BitVec 7), s.ham.st = .rest → s.ham.twb0 = some a.toNat →
    ∃ t, exec (.twb0WakeMatch a) s = .next t ∧ t.ham.sclHeld = true)
  ∧ (∀ s : State, ∃ t, exec .twb0WakeRelease s = .next t ∧ t = { s with ham := { s.ham with sclHeld := false } })
  ∧ (∀ (s : State) (k : Fin 4), hamOn s = true →
    ∃ t, exec (.thermalTrip k) s = .next t ∧ t.ham.st = .rest ∧ t.ham.tripped = true ∧ t.ham.moving = false
      ∧ regBit t Reg.HAM_RESET_CAUSE 4 = true ∧ (s.ham.st ≠ .rest → t.erg.valid = false ∧ t.cco = {} ∧ t.plk = {}))
  ∧ (∀ s : State, diesCool s = true →
    ∃ t, exec .thermtripRelease s = .next t ∧ t = { s with ham := { s.ham with tripped := false } })
  ∧ (∀ s : State, hamOn s = true → s.mainReset = false → exec (.wake 7) s = exec .alarm s)
  ∧ (∀ (s : State) (b : Fin 9), b.val ≠ 7 → wakeHolds s b = false → exec (.wake b) s = .next s)
  ∧ (∀ s : State, diesCool s = false → exec .thermtripRelease s = .next s)
  ∧ (∀ s : State, framesShut s = false → drainTimedOut s = false → exec .drainComplete s = .next s)

/-- The supply monitor, the clock and the backup domain (R418, R432 to R434): Hamada runs on the crystal once it is
stable and on RC when it fails; a conversion within its limits ends a run of bad ones, and FILTER conversions below
LOW make a channel without a reset or power action LOW; a backup word written is read back while it is held, and a
commit takes the oldest held write with its check word; REVALIDATE makes the content valid; the coarse keeper loads
from set time; losses of the cell are latched. -/
def Obligations.BackupDomain : Prop :=
  (∀ s : State, hamOn s = true →
    ∃ t, exec .clk32XtSwitch s = .next t ∧ t = { s with ham := { s.ham with rc := false } })
  ∧ (∀ s : State, hamOn s = true → ∃ t, exec .clk32Fail s = .next t ∧ t.ham = { s.ham with rc := true } ∧ t.regs = s.regs)
  ∧ (∀ (s : State) (k : Fin 16) (v : BitVec 12), hamOn s = true → regBit s Reg.HAM_MON_CFG (16 + k) = true →
    regFld s Reg.HAM_MON_CFG 3 0 ≠ 0 → regFld s (Reg.HAM_MON_THR k) 11 0 ≤ v.toNat →
    v.toNat ≤ regFld s (Reg.HAM_MON_THR k) 27 16 →
    (mget {} k.val s.ham.supplies).oks + 1 < regFld s Reg.HAM_MON_CFG 3 0 →
    ∃ t, exec (.supplyConversion k v) s = .next t ∧ t.evt = s.evt ∧ mget {} k.val t.ham.supplies
      = ⟨min 4 ((mget {} k.val s.ham.supplies).good + 1), (mget {} k.val s.ham.supplies).st, v.toNat, 0, 0,
          (mget {} k.val s.ham.supplies).oks + 1⟩)
  ∧ (∀ (s : State) (k : Fin 16) (v : BitVec 12), hamOn s = true → regBit s Reg.HAM_MON_CFG (16 + k) = true →
    v.toNat < regFld s (Reg.HAM_MON_THR k) 11 0 → regFld s (Reg.HAM_MON_THR k) 31 30 < 2 →
    regFld s Reg.HAM_MON_CFG 3 0 ≤ (mget {} k.val s.ham.supplies).lows + 1 →
    ∃ t, exec (.supplyConversion k v) s = .next t ∧ (mget {} k.val t.ham.supplies).st = 1
      ∧ (mget {} k.val t.ham.supplies).value = v.toNat ∧ t.ham.st = s.ham.st)
  ∧ (∀ (s : State) (ini : Ini) (k : Fin 64) (v : Word), Reaches s ini (Reg.HAM_BK_REG k) → s.ham.held.length < 8 →
    ∃ t, exec (.bkWrite ini k v) s = .next t ∧ bkWord t k = v ∧ (∀ j, j ≠ k.val → bkWord t j = bkWord s j)
      ∧ t.ham.words = s.ham.words ∧ t.ham.check = s.ham.check)
  ∧ (∀ (s : State) (k : Nat) (v : Word) (r : List (Nat × Word)), hamOn s = true → s.ham.held = (k, v) :: r →
    ∃ t, exec .bkCommit s = .next t ∧ t.ham.held = r ∧ t.ham.words = mput k v s.ham.words
      ∧ t.ham.check = word (bkCheck t.ham.words))
  ∧ (∀ (s : State) (ini : Ini) (v : Word), Reaches s ini Reg.HAM_BK_CTRL →
    ∃ t, exec (.revalidate ini v) s = .next t ∧ t.ham = { s.ham with bkValid := true, lost := 0 }
      ∧ regBit t Reg.HAM_BK_CTRL 0 = false)
  ∧ (∀ s : State, hamOn s = true → s.tim.st ≠ .unset → s.tim.st ≠ .coarse →
    timeNow s % (10 ^ 9 * 2 ^ 32) * 32768 < 10 ^ 9 * 2 ^ 32 →
    ∃ t, exec .coarseLoad s = .next t ∧ t.ham.coarseOk = true ∧ t.ham.coarseSec = (secondsNow s).toNat)
  ∧ (∀ s : State, s.ham.onVbak = true →
    (∃ t, exec .vbakLow s = .next t ∧ t = { s with ham := { s.ham with lost := s.ham.lost ||| 2 } })
      ∧ ∃ t, exec .oscStop s = .next t ∧ t = { s with ham := { s.ham with lost := s.ham.lost ||| 8, coarseOk := false } })
  ∧ (∀ s : State, s.ham.st = .off →
    ∃ t, exec .vbakPor s = .next t ∧ t.ham.st = .backup ∧ t.ham.onVbak = true ∧ t.ham.lost = s.ham.lost ||| 1
      ∧ t.ham.coarseOk = false)

/-- The safety inputs (R436 to R438): a demand on either channel applies the demand action, counts and makes the strobes
inactive when STROBE_OFF is set; a discrepancy that has lasted latches a fault, whose action applies, and none
before; SAFE_ACK releases a demand that has gone, or a fault in its last phase. -/
def Obligations.SafetyInputs : Prop :=
  (∀ (s : State) (i : Fin 2) (a b : Bool), hamOn s = true → i.val < s.ham.safety.length →
    ((inDemand s i a b).1 || (inDemand s i a b).2) = true → (safetyOf s i).now = false →
    ∃ t, exec (.safetyChange i a b) s = .next t ∧ (safetyOf t i).a = a ∧ (safetyOf t i).b = b
      ∧ (safetyOf t i).now = true ∧ safeApplies (safetyOf t i) = true
      ∧ regGet t (Reg.HAM_SAFE_COUNT i) = word (satAdd32 (regGet s (Reg.HAM_SAFE_COUNT i)).toNat 1)
      ∧ (regBit s (Reg.HAM_SAFE_CTRL i) 0 = true → ∀ k < 8, (stbOf t k).active = [] ∧ (stbOf t k).phase = false))
  ∧ (∀ (s : State) (i : Fin 2), hamOn s = true → i.val < s.ham.safety.length →
    (inDemand s i (safetyOf s i).a (safetyOf s i).b).1 ≠ (inDemand s i (safetyOf s i).a (safetyOf s i).b).2 →
    ((safetyOf s i).apart.map (discDue s i)).getD false = true →
    ∃ t, exec (.safetyDiscrepancy i) s = .next t ∧ (safetyOf t i).phase = 1 ∧ safeApplies (safetyOf t i) = true
      ∧ (evtPowered s = true → t.evtHalt.testBit 1 = true ∧ t.evtFault.testBit 1 = true))
  ∧ (∀ (s : State) (ini : Ini) (i : Fin 2) (v : Word), Reaches s ini (Reg.HAM_SAFE_ACK i) →
    i.val < s.ham.safety.length → (safetyOf s i).now = false →
    (safetyOf s i).phase = 3 ∨ ((safetyOf s i).phase = 0 ∧ (safetyOf s i).demand = true) →
    ∃ t, exec (.safeAck ini i v) s = .next t ∧ safeApplies (safetyOf t i) = false
      ∧ ∀ j, j ≠ i.val → safetyOf t j = safetyOf s j)
  ∧ (∀ (s : State) (i : Fin 2), ((safetyOf s i).apart.map (discDue s i)).getD false = false →
    exec (.safetyDiscrepancy i) s = .next s)

/-! ## Barchan -/

/-- Repair and test (R444 to R449, R460): GO takes the rows that wait into a run; each row takes a spare of its group
and is counted; a free tile that the schedule picks, or that GO names, is under test; a test that passes leaves the
tile good, and one that fails retires it; a test that is not due does not start, and one that still takes its time
does not end; a droop stretches its region. -/
def Obligations.RepairAndTest : Prop :=
  (∀ (s : State) (ini : Ini) (v : Word), Reaches s ini Reg.BCH_DRAM_CTRL → bit v 31 = true →
    ∃ t, exec (.dramRepairGo ini v) s = .next t ∧ t.bch = { s.bch with dramRun := s.bch.dramRows }
      ∧ regBit t Reg.BCH_DRAM_CTRL 31 = !s.bch.dramRows.isEmpty)
  ∧ (∀ (s : State) (r : Nat) (rest : List Nat), s.bch.dramRun = r :: rest → dramSpare s (Config.dramGroup r) ≠ 0 →
    ∃ t, exec .dramRowRepair s = .next t ∧ t.bch.dramRun = rest ∧ t.bch.dramRows = s.bch.dramRows.filter (· != r)
      ∧ dramSpare t (Config.dramGroup r) = dramSpare s (Config.dramGroup r) - 1
      ∧ regFld t Reg.BCH_DRAM_STATUS 15 0 = min (regFld s Reg.BCH_DRAM_STATUS 15 0 + 1) 0xFFFF)
  ∧ (∀ (s : State) (p : Fin 2304), testable s p = true → tileDue s p = true → s.bch.tests = [] →
    ∃ t, exec (.testSchedule (.tile p)) s = .next t ∧ underTest t p = true ∧ mget? p.val t.erg.bad = some 6
      ∧ t.erg.moved = s.erg.moved ∧ t.regs = s.regs ∧ t.mem = s.mem)
  ∧ (∀ (s : State) (l : Fin 2176), regFld s Reg.BCH_TEST_SCHED 31 24 ≠ 0 → tileRuns s l = true → migRoom s l = true →
    paceDue s s.bch.rotated l (24 * regFld s Reg.BCH_TEST_SCHED 31 24) = true →
    ∃ t, exec (.testSchedule (.rotate l)) s = .next t ∧ t.bch.queue.any (fun q => q.tile == l.val) = true
      ∧ t.erg = s.erg ∧ t.mem = s.mem)
  ∧ (∀ (s : State) (ini : Ini) (v : Word), Reaches s ini Reg.BCH_TEST_CTRL → bit v 31 = true →
    s.bch.tests.any (fun t => t.go) = false → fld v 11 0 < 2304 →
    ((instOn s (fld v 11 0)).map fun e => instRuns s e.2).getD false = false →
    ∃ t, exec (.tileTestGo ini v) s = .next t ∧ underTest t (fld v 11 0) = true ∧ t.bch.testDone = false)
  ∧ (∀ (s : State) (p : Fin 2304), underTest s p = true → testRipe s p = true → mget? p.val s.erg.bad = some 6 →
    (∃ t, exec (.tileTestDone p true) s = .next t ∧ underTest t p = false ∧ mget? p.val t.erg.bad = none
      ∧ regGet t Reg.BCH_TESTS = word ((regGet s Reg.BCH_TESTS).toNat + 1) ∧ t.erg.moved = s.erg.moved)
    ∧ ∃ t, exec (.tileTestDone p false) s = .next t ∧ underTest t p = false ∧ mget? p.val t.erg.bad = some 5
      ∧ regGet t Reg.BCH_TEST_FAILS = word (satAdd32 (regGet s Reg.BCH_TEST_FAILS).toNat 1))
  ∧ (∀ (s : State) (r : Fin 16) (m : Fin 8) (ps : BitVec 8), mainPowered s = true → ps.toNat < 5 →
    ∃ t, exec (.droop r m ps) s = .next t ∧ t.bch.stretched.contains r.val = true ∧ t.erg = s.erg
      ∧ regGet t Reg.BCH_DROOPS = word (satAdd32 (regGet s Reg.BCH_DROOPS).toNat 1))
  ∧ (∀ (s : State) (p : Fin 2304) (b : Bool), testRipe s p = false → exec (.tileTestDone p b) s = .next s)
  ∧ (∀ (s : State) (p : Fin 2304), tileDue s p = false → exec (.testSchedule (.tile p)) s = .next s)

/-- Live migration (R451 to R454): a REQUEST for a tile of a running instance is queued; the next request starts on the
spare named, where that may be taken; at L0 both tiles process the lines; equal lines count up to SHADOW_LINES; the
cut maps the logical tile to the target, tests the old tile, or retires it after a FAULT, and counts; an instance
idle for IDLE_MS is cut too, and none before. -/
def Obligations.Migration : Prop :=
  (∀ (s : State) (ini : Ini) (v : Word) (n : Nat) (i : Inst), Reaches s ini Reg.BCH_MIG_CTRL → bit v 31 = true →
    fld v 11 0 ≤ 2175 → instAtTile s (fld v 11 0) = some (n, i) → i.shadow = false → instRuns s i = true →
    migRoom s (fld v 11 0) = true →
    ∃ t, exec (.migrateRequest ini v) s = .next t ∧ t.bch.queue.any (fun q => q.tile == fld v 11 0) = true
      ∧ regBit t Reg.BCH_MIG_CTRL 31 = false ∧ t.erg = s.erg)
  ∧ (∀ (s : State) (p : Fin 2304) (added : List (BitVec 16 × Fin 7)) (q : MigReq) (n : Nat) (i : Inst),
    s.bch.mig = none → nextMig s = some q → regBit s Reg.BCH_MIG_CTRL 31 = false → instAtTile s q.tile = some (n, i) →
    i.shadow = false → p.val ∈ freeSpares s (tileArea q.tile) →
    ∃ t m, exec (.migrateStart p (.ok added)) s = .next t ∧ t.bch.mig = some m ∧ m.req = q ∧ m.inst = n ∧ m.target = p
      ∧ m.st = 2 ∧ t.bch.queue = s.bch.queue.filter (· != q) ∧ (∀ e ∈ t.erg.insts, e.1 = n → e.2.st = 3)
      ∧ t.erg.moved = s.erg.moved)
  ∧ (∀ (s : State) (b : Bool) (m : MigRun), s.bch.mig = some m → m.st = 2 →
    ∃ t, exec (.migrateCopy b) s = .next t ∧ t.bch = { s.bch with mig := some { m with st := 3, since := s.raw } }
      ∧ (∀ e ∈ t.erg.insts, e.1 = m.inst → e.2.moving = true) ∧ t.erg.moved = s.erg.moved ∧ t.regs = s.regs)
  ∧ (∀ (s : State) (q : BitVec 16) (b : Bool) (m : MigRun), s.bch.mig = some m → m.st = 3 →
    ∃ t, exec (.migrateShadowLine q false true b) s = .next t ∧ t.bch = { s.bch with mig := some { m with
        lines := m.lines + 1, equal := m.equal + 1, since := s.raw
        st := if regFld s Reg.BCH_MIG_CFG 15 0 ≤ m.equal + 1 then 4 else 3 } } ∧ t.erg = s.erg)
  ∧ (∀ (s : State) (q : BitVec 16) (m : MigRun), s.bch.mig = some m → m.st = 4 →
    ∃ t, exec (.migrateCut q) s = .next t ∧ t.bch.mig = none ∧ physOf t m.req.tile = m.target
      ∧ (m.req.reason ≠ 1 → underTest t (physOf s m.req.tile) = true)
      ∧ (m.req.reason = 1 → mget? (physOf s m.req.tile) t.erg.bad = some 5)
      ∧ regGet t Reg.BCH_MIGRATIONS = word ((regGet s Reg.BCH_MIGRATIONS).toNat + 1)
      ∧ (∀ e ∈ t.erg.insts, e.1 = m.inst → e.2.moving = false ∧ e.2.st = 1))
  ∧ (∀ (s : State) (m : MigRun), s.bch.mig = some m → m.st = 3 ∨ m.st = 4 →
    m.since + regFld s Reg.BCH_MIG_CFG 31 16 * 500000 ≤ s.raw →
    ∃ t, exec .migrateIdleCut s = .next t ∧ t.bch.mig = none ∧ physOf t m.req.tile = m.target
      ∧ regGet t Reg.BCH_MIGRATIONS = word ((regGet s Reg.BCH_MIGRATIONS).toNat + 1))
  ∧ (∀ (s : State) (m : MigRun), s.bch.mig = some m → s.raw < m.since + regFld s Reg.BCH_MIG_CFG 31 16 * 500000 →
    exec .migrateIdleCut s = .next s)

/-- Aging and voltage (R450, R457, R458): a measurement adds an hour and keeps each region's highest value; a sample
shows each region's worst reading, and the margin is the least of them; a step of the voltage loop never takes the
code below the one in force while the margin is below 23 ps, never lowers it by more than one, and raises it no
further than FLOOR or CEIL and 40 allow. -/
def Obligations.AgingAndVoltage : Prop :=
  (∀ (s : State) (ppm : List (BitVec 16)),
    ∃ t, exec (.ageMeasure ppm) s = .next t ∧ regGet t Reg.BCH_HOURS = word ((regGet s Reg.BCH_HOURS).toNat + 1)
      ∧ (∀ r < 17, regFld t (Reg.BCH_REGION r) 31 16
          = max (nthD 0 r (ppm.map BitVec.toNat)) (regFld s (Reg.BCH_REGION r) 31 16))
      ∧ t.erg = s.erg)
  ∧ (∀ (s : State) (m : List (BitVec 8)), mainPowered s = true → m ≠ [] →
    ∃ t, exec (.marginSample m) s = .next t ∧ t.bch.margin = nthD 0 t.bch.worst (m.map BitVec.toNat)
      ∧ (∀ r < 16, r < m.length → t.bch.margin ≤ nthD 0 r (m.map BitVec.toNat)
          ∧ regFld t (Reg.BCH_REGION r) 15 8 = nthD 0 r (m.map BitVec.toNat))
      ∧ t.erg = s.erg ∧ t.mem = s.mem)
  ∧ (∀ s : State, mainPowered s = true →
    ∃ t, exec .avsStep s = .next t ∧ (s.bch.margin < 23 → s.bch.vid ≤ t.bch.vid) ∧ s.bch.vid ≤ t.bch.vid + 1
      ∧ t.bch.vid ≤ max s.bch.vid (max (regFld s Reg.BCH_AVS_BOUND 5 0) (min 40 (regFld s Reg.BCH_AVS_BOUND 13 8)))
      ∧ t.bch.vidWrite = none
      ∧ t.erg.insts = s.erg.insts)

/-! ## Peripheral I/O -/

/-- The two-wire buses (R464 to R472): GO on a free bus starts a transfer or a probe; a transfer that ends reports
RESULT and BYTES and is counted; the TWB0 target takes written bytes, and sends those made ready, or 0xFF in REST;
RX_FULL, TX_READY and IBR_GO follow their writes; an in-band request is acknowledged; a low line beyond its limit
ends the transfer with RESULT 4 or 5; a measurement starts on a free bus and shows its rise times; a bus seen free
is at its boundary. -/
def Obligations.TwoWireBuses : Prop :=
  (∀ (s : State) (ini : Ini) (n : Fin 4) (v : Word), Reaches s ini (Reg.TWB_XFER n) → (twbOf s n).busy = false →
    regBit s (Reg.TWB_CTRL n) 31 = true → (twbOf s n).free = true → (twbOf s n).running = false →
    (twbOf s n).measRun = false → n.val ≠ 0 ∨ fld v 22 16 ≠ regFld s Reg.TWB_TGT_CTRL 6 0 → fld v 13 8 ≤ 32 →
    fld v 5 0 ≤ 32 →
    (fld v 13 8 ≠ 0 ∨ fld v 5 0 ≠ 0 → ∃ t, exec (.twbXferGo ini n v) s = .next t ∧ (twbOf t n).running = true
      ∧ (twbOf t n).free = false
      ∧ t.outs = .twbStart n (fld v 22 16) false (wordBytes s (Reg.TWB_TX n 0) (fld v 5 0)) (fld v 13 8) :: s.outs)
    ∧ ∃ t, exec (.twbProbe ini n v) s = .next t ∧ (twbOf t n).running = true ∧ (twbOf t n).free = false
      ∧ t.outs = .twbStart n (fld v 22 16) true [] 0 :: s.outs)
  ∧ (∀ (s : State) (n : Fin 4) (bs : List Byte) (k : BitVec 6), perOn s = true → (twbOf s n).running = true →
    regBit s (Reg.TWB_XFER n) 30 = false →
    (∃ t, exec (.twbXferDone n (.ok bs)) s = .next t ∧ (twbOf t n).busy = false ∧ (twbOf t n).done = true
      ∧ (twbOf t n).result = 0 ∧ (twbOf t n).bytes = regFld s (Reg.TWB_XFER n) 5 0 + regFld s (Reg.TWB_XFER n) 13 8
      ∧ regGet t (Reg.TWB_XFERS n) = word ((regGet s (Reg.TWB_XFERS n)).toNat + 1))
    ∧ ∃ t, exec (.twbXferDone n (.nackAddr k)) s = .next t ∧ (twbOf t n).busy = false ∧ (twbOf t n).result = 1
      ∧ (twbOf t n).bytes = k.toNat
      ∧ regGet t (Reg.TWB_ERRS n) = word (satAdd32 (regGet s (Reg.TWB_ERRS n)).toNat 1))
  ∧ (∀ (s : State) (bs : List Byte), perOn s = true → regBit s Reg.TWB_TGT_CTRL 31 = true →
    regBit s Reg.TWB_TGT_STATUS 31 = false →
    ∃ t, exec (.twbTargetWrite bs) s = .next t ∧ regBit t Reg.TWB_TGT_STATUS 31 = true
      ∧ regFld t Reg.TWB_TGT_STATUS 5 0 = min 32 bs.length
      ∧ ∀ j < min 32 bs.length, regFld t (Reg.TWB_TGT_RX 0 + 4 * (j / 4)) (8 * (j % 4) + 7) (8 * (j % 4))
          = (nthD 0#8 j bs).toNat)
  ∧ (∀ (s : State) (n : BitVec 16), perOn s = true → regBit s Reg.TWB_TGT_CTRL 31 = true →
    regBit s Reg.TWB_TGT_CTRL 29 = true →
    ∃ t, exec (.twbTargetRead n) s = .next t ∧ regBit t Reg.TWB_TGT_CTRL 29 = false
      ∧ Out.twbSend ((wordBytes s (Reg.TWB_TGT_TX 0) (regFld s Reg.TWB_TGT_CTRL 13 8)
          ++ List.replicate n.toNat 0xFF#8).take n.toNat) ∈ t.outs)
  ∧ (∀ (s : State) (ini : Ini) (v : Word), Reaches s ini Reg.TWB_TGT_STATUS → bit v 31 = true →
    ∃ t, exec (.rxFullClear ini v) s = .next t ∧ regBit t Reg.TWB_TGT_STATUS 31 = false ∧ t.per = s.per)
  ∧ (∀ (s : State) (ini : Ini) (v : Word), Reaches s ini Reg.TWB_TGT_CTRL →
    (∃ t, exec (.txReadySet ini v) s = .next t ∧ regBit t Reg.TWB_TGT_CTRL 29 = true)
    ∧ ((twbOf s 0).free = true → (twbOf s 0).asking = false → ∃ t, exec (.ibrGo ini v) s = .next t
      ∧ regBit t Reg.TWB_TGT_CTRL 30 = true ∧ (twbOf t 0).asking = true ∧ Out.ibrRequest ∈ t.outs))
  ∧ (∀ (s : State) (n : Fin 4) (us : BitVec 16), perOn s = true → regBit s (Reg.TWB_CTRL n) 31 = true →
    regBit s (Reg.TWB_CTRL n) 30 = true → (twbOf s n).running = false → (twbOf s n).free = true →
    regFld s (Reg.TWB_IBR n) 7 0 ≤ us.toNat →
    ∃ t, exec (.ibrDetect n us) s = .next t ∧ regBit t (Reg.TWB_STATUS n) 28 = true ∧ (twbOf t n).free = false
      ∧ Out.ibrAck n ∈ t.outs)
  ∧ (∀ (s : State) (n : Fin 4) (us : BitVec 32) (k : BitVec 6), perOn s = true → regFld s (Reg.TWB_TO n) 31 16 ≠ 0 →
    regFld s (Reg.TWB_TO n) 31 16 ≤ us.toNat → (twbOf s n).running = true →
    ∃ t, exec (.sclLowTimeout n us k) s = .next t ∧ (twbOf t n).busy = false ∧ (twbOf t n).result = 4
      ∧ (twbOf t n).bytes = k.toNat ∧ (twbOf t n).free = false)
  ∧ (∀ (s : State) (n : Fin 4) (us : BitVec 32) (p : Fin 10), perOn s = true → regFld s (Reg.TWB_TO n) 15 0 ≠ 0 →
    regFld s (Reg.TWB_TO n) 15 0 ≤ us.toNat → (twbOf s n).running = false → (twbOf s n).busy = true →
    ∃ t, exec (.sdaLowTimeout n us p false) s = .next t ∧ (twbOf t n).busy = false ∧ (twbOf t n).result = 5)
  ∧ (∀ (s : State) (ini : Ini) (n : Fin 4) (v : Word), Reaches s ini (Reg.TWB_MEAS n) → fld v 15 0 ≠ 0 →
    regBit s (Reg.TWB_CTRL n) 31 = true → (twbOf s n).free = true → (twbOf s n).busy = false →
    (twbOf s n).running = false → (twbOf s n).measRun = false →
    ∃ t, exec (.twbMeasGo ini n v) s = .next t ∧ (twbOf t n).measRun = true ∧ (twbOf t n).free = false
      ∧ regBit t (Reg.TWB_MEAS n) 30 = false)
  ∧ (∀ (s : State) (n : Fin 4) (a b : BitVec 16), perOn s = true → (twbOf s n).measRun = true →
    ∃ t, exec (.twbMeasDone n (some (a, b))) s = .next t ∧ regBit t (Reg.TWB_MEAS n) 30 = true
      ∧ regBit t (Reg.TWB_MEAS n) 31 = false ∧ regFld t (Reg.TWB_TR n) 11 0 = min 4095 a.toNat
      ∧ regFld t (Reg.TWB_TR n) 27 16 = min 4095 b.toNat)
  ∧ (∀ (s : State) (n : Fin 4), perOn s = true → (twbOf s n).running = false → (twbOf s n).measRun = false →
    (twbOf s n).busy = false → (twbOf s n).measuring = false →
    ∃ t, exec (.twbBusFree n) s = .next t ∧ (twbOf t n).free = true
      ∧ atExpert t (Reg.TWB_CTRL n) = regBit s (Reg.TWB_CTRL n) 0)
  ∧ (∀ (s : State) (n : BitVec 16), s.ham.st = .rest → s.ham.twb0 ≠ none →
    exec (.twbTargetRead n) s = .next { s with outs := .twbSend (List.replicate n.toNat 0xFF#8) :: s.outs })

/-- The Pod engines (R473 to R477): an engine named with AT 0 begins its start step at once, and one with a later start
time waits for it and begins then; STOP stops the engines it names; the end of a step without branch, gate or catch
leads to the next step; feed words are pushed while there is room, else dropped and counted; a catch read pops the
oldest word; cues are set. -/
def Obligations.PodEngines : Prop :=
  (∀ (s : State) (ini : Ini) (v : Word) (b : Fin 2) (e : Fin 4), Reaches s ini Reg.POD_START → bit v 8 = false →
    bit v (4 * b + e) = true → stepBad (stepWord s b (regFld s (Reg.POD_E_CTRL b e) 26 20) 1) = false →
    bit (stepWord s b (regFld s (Reg.POD_E_CTRL b e) 26 20) 1) 19 = false →
    ∃ t, exec (.podStart ini v) s = .next t ∧ (podOf t b e).running = true
      ∧ (podOf t b e).step = regFld s (Reg.POD_E_CTRL b e) 26 20
      ∧ (podOf t b e).drive = fld (stepWord s b (regFld s (Reg.POD_E_CTRL b e) 26 20) 0) 15 0)
  ∧ (∀ (s : State) (ini : Ini) (v : Word), Reaches s ini Reg.POD_START → bit v 8 = true → fld v 7 0 ≠ 0 →
    timeNow s < sint 64 (regWide s Reg.POD_AT_LO Reg.POD_AT_HI) * 2 ^ 32 →
    ∃ t, exec (.podStart ini v) s = .next t ∧ t.per = { s.per with podAt := s.per.podAt
        ++ [(sint 64 (regWide s Reg.POD_AT_LO Reg.POD_AT_HI) * 2 ^ 32, fld v 7 0)] })
  ∧ (∀ (s : State) (x : Int × Nat) (b : Fin 2) (e : Fin 4), perOn s = true → x ∈ s.per.podAt → x.1 ≤ timeNow s →
    x.2.testBit (4 * b + e) = true → stepBad (stepWord s b (regFld s (Reg.POD_E_CTRL b e) 26 20) 1) = false →
    bit (stepWord s b (regFld s (Reg.POD_E_CTRL b e) 26 20) 1) 19 = false →
    ∃ t, exec .podTimedStart s = .next t ∧ (podOf t b e).running = true
      ∧ (podOf t b e).step = regFld s (Reg.POD_E_CTRL b e) 26 20 ∧ ∀ y ∈ t.per.podAt, timeNow s < y.1)
  ∧ (∀ (s : State) (ini : Ini) (v : Word), Reaches s ini Reg.POD_STOP →
    ∃ t, exec (.podStop ini v) s = .next t
      ∧ ∀ (b : Fin 2) (e : Fin 4), podOf t b e = (if bit v (4 * b + e) then
          { podOf s b e with running := false, enter := none, held := false } else podOf s b e))
  ∧ (∀ (s : State) (b : Fin 2) (e : Fin 4) (pins : BitVec 16), perOn s = true → (podOf s b e).running = true →
    (podOf s b e).enter = none → (podOf s b e).held = false → (podOf s b e).catchBits.length < 32 →
    (∀ k : Fin 4, k ≠ e → (podOf s b k).running = false) → holdEnd s b e ≤ 2 * s.raw →
    bit (stepWord s b (podOf s b e).step 1) 18 = false →
    fld (stepWord s b (podOf s b e).step 1) 17 16 = 0 → fld (stepWord s b (podOf s b e).step 1) 11 9 = 0 →
    stepBad (stepWord s b (((podOf s b e).step + 1) % 128) 1) = false →
    bit (stepWord s b (((podOf s b e).step + 1) % 128) 1) 19 = false →
    ∃ t, exec (.podStepEnd b e pins) s = .next t ∧ (podOf t b e).running = true
      ∧ (podOf t b e).step = ((podOf s b e).step + 1) % 128
      ∧ (podOf t b e).drive = fld (stepWord s b (((podOf s b e).step + 1) % 128) 0) 15 0 ∧ t.regs = s.regs)
  ∧ (∀ (s : State) (ini : Ini) (b : Fin 2) (e : Fin 4) (v : Word), Reaches s ini (Reg.POD_E_FEED b e) →
    (e.val = 0 ∨ (podOf s b (e - 1)).chain = false) →
    ((podOf s b e).feed.length < 16 → blockRuns s b = false →
      ∃ t, exec (.podFeedWrite ini b e v) s = .next t ∧ (podOf t b e).feed = (podOf s b e).feed ++ [v])
    ∧ (16 ≤ (podOf s b e).feed.length → ∃ t, exec (.podFeedWrite ini b e v) s = .next t ∧ t.per = s.per
      ∧ regFld t (Reg.POD_E_LOST b e) 31 16 = min 65535 (regFld s (Reg.POD_E_LOST b e) 31 16 + 1)))
  ∧ (∀ (s : State) (ini : Ini) (b : Fin 2) (e : Fin 4) (w : Word) (ws : List Word),
    Reaches s ini (Reg.POD_E_CATCH b e) → (podOf s b e).catchQ = w :: ws → blockRuns s b = false →
    ∃ t, exec (.podCatchRead ini b e) s = .next t ∧ t.outs = .read ini (Reg.POD_E_CATCH b e) w :: s.outs
      ∧ (podOf t b e).catchQ = ws)
  ∧ (∀ (s : State) (ini : Ini) (b : Fin 2) (v : Word), Reaches s ini (Reg.POD_CUES b) → blockRuns s b = false →
    ∃ t, exec (.podCueSet ini b v) s = .next t
      ∧ ∀ k < 8, regBit t (Reg.POD_CUES b) k = (regBit s (Reg.POD_CUES b) k || bit v k))
  ∧ (∀ s : State, (∀ x ∈ s.per.podAt, timeNow s < x.1) → exec .podTimedStart s = .next s)

/-- Pins, encoders and strobes (R478 to R482): GPIO_SET and GPIO_CLR change GPIO_OUT, and GPIO_PEND by the edges that
follow; an edge of an input that is enabled is pending, and a driven pin has none; an encoder step counts up or down
by one, and a count in the clock of a write adds to it; the index copies the position; pulses start and end at their
times, a PWM period starts its phase when it is due, a load is measured once in a phase, an overload latches FAULT
with the output inactive, and FAULT is cleared. -/
def Obligations.PinsAndStrobes : Prop :=
  (∀ (s : State) (ini : Ini) (v : Word), Reaches s ini Reg.GPIO_SET →
    ∃ t, exec (.gpioSet ini v) s = .next t ∧ t.per = s.per
      ∧ (∀ k < 24, regBit t Reg.GPIO_OUT k = (regBit s Reg.GPIO_OUT k || bit v k)
          ∧ regBit t Reg.GPIO_PEND k = (regBit s Reg.GPIO_PEND k || (gpioPin s k != gpioPin t k
              && regBit s (if gpioPin t k then Reg.GPIO_RISE else Reg.GPIO_FALL) k)))
      ∧ ∀ o, o ≠ Reg.GPIO_OUT → o ≠ Reg.GPIO_PEND → regGet t o = regGet s o)
  ∧ (∀ (s : State) (ini : Ini) (v : Word), Reaches s ini Reg.GPIO_CLR →
    ∃ t, exec (.gpioClr ini v) s = .next t ∧ t.per = s.per
      ∧ (∀ k < 24, regBit t Reg.GPIO_OUT k = (regBit s Reg.GPIO_OUT k && !bit v k)
          ∧ regBit t Reg.GPIO_PEND k = (regBit s Reg.GPIO_PEND k || (gpioPin s k != gpioPin t k
              && regBit s (if gpioPin t k then Reg.GPIO_RISE else Reg.GPIO_FALL) k)))
      ∧ ∀ o, o ≠ Reg.GPIO_OUT → o ≠ Reg.GPIO_PEND → regGet t o = regGet s o)
  ∧ (∀ (s : State) (p : Fin 24) (l : Bool), perOn s = true → s.per.gpio.testBit p = !l → regBit s Reg.GPIO_OE p = false →
    ((safeActions s).testBit 2 && regBit s Reg.HAM_SAFE_GPIO p) = false →
    ∃ t, exec (.gpioEdge p l) s = .next t ∧ t.per.gpio.testBit p = l
      ∧ (regBit s (if l then Reg.GPIO_RISE else Reg.GPIO_FALL) p = true → regBit t Reg.GPIO_PEND p = true)
      ∧ (regBit s (if l then Reg.GPIO_RISE else Reg.GPIO_FALL) p = false → t.regs = s.regs))
  ∧ (∀ (s : State) (e : Fin 4) (a b d : Bool), perOn s = true → regBit s (Reg.ENC_CTRL e) 31 = true →
    encStep (regFld s (Reg.ENC_CTRL e) 25 24) ((nthD 0 e s.per.enc).testBit 0) ((nthD 0 e s.per.enc).testBit 1) a b
      = .count d →
    ∃ t, exec (.encoderCount e a b) s = .next t
      ∧ regGet t (Reg.ENC_POS e) = regGet s (Reg.ENC_POS e) + (if d then 0xFFFFFFFF#32 else 1#32) ∧ t.mem = s.mem)
  ∧ (∀ (s : State) (e : Fin 4) (l : Bool), perOn s = true → regBit s (Reg.ENC_CTRL e) 31 = true →
    regBit s (Reg.ENC_CTRL e) 30 = true → regBit s (Reg.ENC_CTRL e) 29 = l → (nthD 0 e s.per.enc).testBit 2 = !l →
    regBit s (Reg.ENC_STATUS e) 31 = false →
    ∃ t, exec (.encIndex e l) s = .next t ∧ regGet t (Reg.ENC_IDX_POS e) = regGet s (Reg.ENC_POS e)
      ∧ regBit t (Reg.ENC_STATUS e) 31 = true)
  ∧ (∀ (s : State) (ini : Ini) (e : Fin 4) (v : Word) (a b d : Bool), Reaches s ini (Reg.ENC_POS e) → perOn s = true →
    (∃ t, exec (.encPosWrite ini e v none) s = .next t ∧ regGet t (Reg.ENC_POS e) = v)
    ∧ (regBit s (Reg.ENC_CTRL e) 31 = true → encStep (regFld s (Reg.ENC_CTRL e) 25 24)
        ((nthD 0 e s.per.enc).testBit 0) ((nthD 0 e s.per.enc).testBit 1) a b = .count d →
      ∃ t, exec (.encPosWrite ini e v (some (a, b))) s = .next t
        ∧ regGet t (Reg.ENC_POS e) = v + (if d then 0xFFFFFFFF#32 else 1#32)))
  ∧ (∀ (s : State) (k : Fin 8) (p : StbPulse), perOn s = true → stbBlocked s k = false → (stbOf s k).pulses = [p] →
    p.start ≤ timeNow s → timeNow s < p.stop →
    ∃ t, exec (.stbPulseStart k) s = .next t ∧ (stbOf t k).active = (stbOf s k).active ++ [p] ∧ (stbOf t k).pulses = []
      ∧ regGet t (Reg.STB_PULSES k) = word ((regGet s (Reg.STB_PULSES k)).toNat + 1)
      ∧ (stbOn (stbOf s k) = false → t.outs = .strobe k true :: s.outs))
  ∧ (∀ (s : State) (k : Fin 8), perOn s = true → stbOn (stbOf s k) = true →
    (∀ p ∈ (stbOf s k).active, p.stop ≤ timeNow s) → ((stbOf s k).phase = true → phaseOver s k = true) →
    ∃ t, exec (.stbPulseEnd k) s = .next t ∧ stbOn (stbOf t k) = false ∧ t.outs = .strobe k false :: s.outs
      ∧ t.regs = s.regs)
  ∧ (∀ (s : State) (k : Fin 8), perOn s = true → regBit s (Reg.STB_CTRL k) 30 = true → stbBlocked s k = false →
    0 < regFld s (Reg.STB_PWM k) 9 0 →
    ((stbOf s k).since.map fun u => decide (u + regFld s (Reg.STB_PWM k) 31 16 * 500 ≤ s.raw)).getD true = true →
    ∃ t, exec (.stbPwmPeriod k) s = .next t ∧ (stbOf t k).phase = true ∧ t.regs = s.regs)
  ∧ (∀ (s : State) (k : Fin 8) (ma : BitVec 12), perOn s = true → stbOn (stbOf s k) = true → stbLong s k = true →
    stbSettled s k = true → (stbOf s k).measured = false →
    ∃ t, exec (.stbLoadMeasure k ma) s = .next t ∧ regFld t (Reg.STB_LOAD k) 11 0 = ma.toNat
      ∧ regBit t (Reg.STB_CTRL k) 27 = decide (ma.toNat < regFld s (Reg.STB_LIMIT k) 11 0))
  ∧ (∀ (s : State) (k : Fin 8), perOn s = true → stbOn (stbOf s k) = true →
    ∃ t, exec (.stbShort k) s = .next t ∧ regBit t (Reg.STB_CTRL k) 28 = true ∧ stbOn (stbOf t k) = false)
  ∧ (∀ (s : State) (ini : Ini) (k : Fin 8) (v : Word), Reaches s ini (Reg.STB_CTRL k) →
    ∃ t, exec (.stbFaultClear ini k v) s = .next t ∧ regBit t (Reg.STB_CTRL k) 28 = false)
  ∧ (∀ (s : State) (p : Fin 24) (l : Bool), hamOn s = true → s.mainReset = false → regBit s Reg.GPIO_OE p = true →
    regBit s Reg.GPIO_OD p = false →
    exec (.gpioEdge p l) s = .next { s with per := { s.per with gpio := setBits s.per.gpio p p (b2n l) } })
  ∧ (∀ (s : State) (k : Fin 8) (u : Nat), (stbOf s k).since = some u →
    s.raw < u + regFld s (Reg.STB_PWM k) 31 16 * 500 → exec (.stbPwmPeriod k) s = .next s)
  ∧ (∀ (s : State) (k : Fin 8) (ma : BitVec 12), stbSettled s k = false ∨ (stbOf s k).measured = true →
    exec (.stbLoadMeasure k ma) s = .next s)

/-! ## The device as a whole -/

/-- One step takes the command at the front of the queue and runs it on the state with the queue's rest. -/
def Obligations.StepRunsFront : Prop :=
  ∀ (c : Instr) (rest : List Instr) (s : State),
    Machine.step { s with pending := c :: rest } = exec c { s with pending := rest }

/-- Every command, whatever its operands and the state, ends in a next state and leaves the queue alone; with an empty
queue a step lets the clock run on, and changes nothing else while no core has a store that waits and the gateway
holds no request (the model's choice, log 4). -/
def Obligations.CommandsComplete : Prop :=
  (∀ (c : Instr) (s : State), ∃ t, exec c s = .next t ∧ t.pending = s.pending)
  ∧ ∀ s : State, s.pending = [] → (∀ n < 4, (coreOf s n).stores = []) → s.gw.held = [] →
      Machine.step s = .next { s with raw := s.raw + idleTicks s }

/-- Every step keeps the standing invariant: memories in canonical form, register words listed once in rising order, and
EVT_HALT within EVT_FAULT (R491). -/
def Obligations.SafeStep : Prop :=
  ∀ s t : State, s.Safe → Machine.step s = .next t → t.Safe

/-- The state right after reset meets the standing invariant, waits in main reset in the state RUN (log 3), with the
power-on bit of HAM_RESET_CAUSE set (log 2), no structure, no link, an empty queue and nothing listed in memory. -/
def Obligations.SafeReset : Prop :=
  State.reset.Safe ∧ State.reset.mainReset = true ∧ State.reset.ham.st = .run ∧ State.reset.erg.valid = false
    ∧ State.reset.gw.up = false ∧ State.reset.pending = [] ∧ State.reset.mem = [] ∧ State.reset.hostMem = []
    ∧ State.reset.tim.st = .unset ∧ regGet State.reset Reg.HAM_RESET_CAUSE = 1#32

/-! ## Frames -/

/-- Every command leaves alone the parts of the state outside the list that `touches` gives for it: blocks' states,
memories, latches, clocks and what leaves the device. -/
def Obligations.PartFrames : Prop :=
  ∀ (c : Instr) (s t : State) (p : Part), exec c s = .next t → p ∉ touches c → p.same s t

/-- Every command leaves alone the registers outside those that `mayChange` names for it, and the queue. -/
def Obligations.RegisterFrames : Prop :=
  ∀ (c : Instr) (s t : State) (o : Nat), exec c s = .next t → ¬mayChange c o →
    regGet t o = regGet s o ∧ t.pending = s.pending

/-- Every command but those that store bytes leaves every byte of device memory outside the ring of event records. -/
def Obligations.MemoryFrame : Prop :=
  ∀ (c : Instr) (s t : State) (a : Nat), storesBytes c = false → exec c s = .next t → ¬ringByte s a →
    memByte t a = memByte s a

/-- A command that stores does so outside the ring of event records only at the bytes that `storesAt` computes for it:
the tables, rings, entries, buffers and destinations of the command's own rules (R170, R175, R196, R261, R266, R298
to R300, R317, R322 to R325, R365, R370). -/
def Obligations.StoredBytes : Prop :=
  ∀ (c : Instr) (s t : State) (a : Nat), storesBytes c = true → storesAt s c a = false → exec c s = .next t → ¬ringByte s a →
    memByte t a = memByte s a
end

