-- ==== Sys2Proof/Laws/Effects.lean ====
section
/-!
SUPPORT. What running an effect does: the equations of `go` for the ways effects are put together, and the frame rule.
`Within P e` says that every act of the effect `e` satisfies `P`; what an effect leaves alone follows from it.
-/
namespace Sys2Proof.Machine

/-! ## Running effects -/

@[simp] theorem run_nil (s : State) : run [] s = s := rfl
@[simp] theorem run_cons (a : Act) (l : List Act) (s : State) : run (a :: l) s = run l (apply a s) := rfl

theorem run_append (l m : List Act) (s : State) : run (l ++ m) s = run m (run l s) := by
  induction l generalizing s with
  | nil => rfl
  | cons a l ih => exact ih _

@[simp] theorem go_skip (s : State) : go skip s = s := rfl
@[simp] theorem go_act (a : Act) (s : State) : go (act a) s = apply a s := rfl
@[simp] theorem go_rd (k : State → Eff) (s : State) : go (rd k) s = go (k s) s := rfl
@[simp] theorem go_emit (o : Out) (s : State) : go (emit o) s = { s with outs := o :: s.outs } := rfl
@[simp] theorem go_chain_nil (s : State) : go (chain []) s = s := rfl

@[simp] theorem go_chain_cons (e : Eff) (es : List Eff) (s : State) :
    go (chain (e :: es)) s = go (chain es) (go e s) := by
  simp only [go, chain, run_append]

@[simp] theorem go_when_true (e : Eff) (s : State) : go (when true e) s = go e s := rfl
@[simp] theorem go_when_false (e : Eff) (s : State) : go (when false e) s = s := rfl

theorem go_when (c : Bool) (e : Eff) (s : State) : go (when c e) s = if c then go e s else s := by
  cases c <;> rfl

@[simp] theorem go_each_nil {α : Type} (f : α → Eff) (s : State) : go (each [] f) s = s := rfl
@[simp] theorem go_each_cons {α : Type} (x : α) (l : List α) (f : α → Eff) (s : State) :
    go (each (x :: l) f) s = go (each l f) (go (f x) s) := go_chain_cons _ _ _

@[simp] theorem go_withFree (n : Nat) (k : BitVec n → Eff) (s : State) :
    go (withFree n k) s = go (k (Config.freeValue n s.fresh)) { s with fresh := s.fresh + 1 } := rfl

@[simp] theorem go_setReg (off : Nat) (w : Word) (s : State) :
    go (setReg off w) s = { s with regs := mput off w s.regs } := rfl

@[simp] theorem go_modAcc (f : Access → Access) (s : State) : go (modAcc f) s = { s with acc := f s.acc } := rfl
@[simp] theorem go_modEvt (f : Evt → Evt) (s : State) : go (modEvt f) s = { s with evt := f s.evt } := rfl
@[simp] theorem go_modGw (f : Gw → Gw) (s : State) : go (modGw f) s = { s with gw := f s.gw } := rfl
@[simp] theorem go_modHam (f : Ham → Ham) (s : State) : go (modHam f) s = { s with ham := f s.ham } := rfl
@[simp] theorem go_modLne (f : Lne → Lne) (s : State) : go (modLne f) s = { s with lne := f s.lne } := rfl
@[simp] theorem go_modPlk (f : Plk → Plk) (s : State) : go (modPlk f) s = { s with plk := f s.plk } := rfl
@[simp] theorem go_modTim (f : Tim → Tim) (s : State) : go (modTim f) s = { s with tim := f s.tim } := rfl
@[simp] theorem go_modErg (f : Erg → Erg) (s : State) : go (modErg f) s = { s with erg := f s.erg } := rfl
@[simp] theorem go_modBch (f : Bch → Bch) (s : State) : go (modBch f) s = { s with bch := f s.bch } := rfl
@[simp] theorem go_modSei (f : Sei → Sei) (s : State) : go (modSei f) s = { s with sei := f s.sei } := rfl
@[simp] theorem go_modCmp (f : Cmp → Cmp) (s : State) : go (modCmp f) s = { s with cmp := f s.cmp } := rfl
@[simp] theorem go_modNzl (f : Nzl → Nzl) (s : State) : go (modNzl f) s = { s with nzl := f s.nzl } := rfl
@[simp] theorem go_modJrn (f : Jrn → Jrn) (s : State) : go (modJrn f) s = { s with jrn := f s.jrn } := rfl
@[simp] theorem go_modMov (f : Mov → Mov) (s : State) : go (modMov f) s = { s with mov := f s.mov } := rfl
@[simp] theorem go_modCap (f : Cap → Cap) (s : State) : go (modCap f) s = { s with cap := f s.cap } := rfl
@[simp] theorem go_modTaps (f : OutBlk → OutBlk) (s : State) : go (modTaps f) s = { s with taps := f s.taps } := rfl
@[simp] theorem go_modStore (f : Mem → Mem) (s : State) : go (modStore f) s = { s with store := f s.store } := rfl
@[simp] theorem go_modPer (f : Per → Per) (s : State) : go (modPer f) s = { s with per := f s.per } := rfl
@[simp] theorem go_modCfg (f : Cfg → Cfg) (s : State) : go (modCfg f) s = { s with cfg := f s.cfg } := rfl
@[simp] theorem go_modCco (f : Cco → Cco) (s : State) : go (modCco f) s = { s with cco := f s.cco } := rfl

/-! ## Frames -/

/-- Every act of an effect satisfies a predicate, whatever the state. -/
def Within (P : Act → Prop) (e : Eff) : Prop := ∀ s, ∀ a ∈ e s, P a

theorem Within.mono {P Q : Act → Prop} {e : Eff} (h : Within P e) (i : ∀ a, P a → Q a) : Within Q e :=
  fun s a m => i a (h s a m)

theorem within_skip (P : Act → Prop) : Within P skip := fun _ _ m => nomatch m

theorem within_act {P : Act → Prop} {a : Act} (h : P a) : Within P (act a) := by
  intro s b m
  rw [List.mem_singleton.mp m]; exact h

theorem within_rd {P : Act → Prop} {k : State → Eff} (h : ∀ s, Within P (k s)) : Within P (rd k) :=
  fun s a m => h s s a m

theorem within_when {P : Act → Prop} {c : Bool} {e : Eff} (h : c = true → Within P e) : Within P (when c e) := by
  cases c with
  | false => exact within_skip P
  | true => exact h rfl

theorem within_chain {P : Act → Prop} {es : List Eff} (h : ∀ e ∈ es, Within P e) : Within P (chain es) := by
  induction es with
  | nil => exact fun _ _ m => nomatch m
  | cons e es ih =>
    intro s a m
    rcases List.mem_append.mp m with m | m
    · exact h e (List.mem_cons_self ..) s a m
    · exact ih (fun f g => h f (List.mem_cons_of_mem _ g)) _ a m

theorem within_each {α : Type} {P : Act → Prop} {l : List α} {f : α → Eff} (h : ∀ x ∈ l, Within P (f x)) :
    Within P (each l f) := by
  apply within_chain
  intro e m
  obtain ⟨x, mx, rfl⟩ := List.mem_map.mp m
  exact h x mx

theorem within_withFree {P : Act → Prop} {n : Nat} {k : BitVec n → Eff} (h : P .fresh) (i : ∀ v, Within P (k v)) :
    Within P (withFree n k) := by
  intro s a m
  rcases List.mem_cons.mp m with m | m
  · rw [m]; exact h
  · exact i _ _ a m

/-- What is kept by every act that satisfies `P` is kept by a run of such acts. -/
theorem run_keeps {α : Type} {P : Act → Prop} (get : State → α) (h : ∀ a s, P a → get (apply a s) = get s)
    (l : List Act) (s : State) (i : ∀ a ∈ l, P a) : get (run l s) = get s := by
  induction l generalizing s with
  | nil => rfl
  | cons a l ih =>
    rw [run_cons, ih _ fun b m => i b (List.mem_cons_of_mem _ m)]
    exact h a s (i a (List.mem_cons_self ..))

/-- The frame rule. -/
theorem Within.keeps {α : Type} {P : Act → Prop} {e : Eff} (w : Within P e) (get : State → α)
    (h : ∀ a s, P a → get (apply a s) = get s) (s : State) : get (go e s) = get s :=
  run_keeps get h _ s (w s)

/-- An invariant that every act keeps is kept by every run. -/
theorem run_inv {Inv : State → Prop} (h : ∀ a s, Inv s → Inv (apply a s)) (l : List Act) (s : State) (i : Inv s) :
    Inv (run l s) := by
  induction l generalizing s with
  | nil => exact i
  | cons a l ih => exact ih _ (h a s i)

/-! ## Acts and the parts of the state -/

/-- The acts that do not change a part. -/
def Spares (p : Part) (a : Act) : Prop := a.part ≠ p

/-- No act adds or removes a waiting command. -/
@[simp] theorem apply_pending (a : Act) (s : State) : (apply a s).pending = s.pending := by cases a <;> rfl
@[simp] theorem run_pending (l : List Act) (s : State) : (run l s).pending = s.pending := by
  induction l generalizing s with
  | nil => rfl
  | cons a l ih => rw [run_cons, ih, apply_pending]
@[simp] theorem go_pending (e : Eff) (s : State) : (go e s).pending = s.pending := run_pending _ _

theorem apply_regs {a : Act} (s : State) (h : Spares .regs a) : (apply a s).regs = s.regs := by
  cases a <;> first | rfl | exact absurd rfl h
theorem apply_mem {a : Act} (s : State) (h : Spares .mem a) : (apply a s).mem = s.mem := by
  cases a <;> first | rfl | exact absurd rfl h
theorem apply_hostMem {a : Act} (s : State) (h : Spares .hostMem a) : (apply a s).hostMem = s.hostMem := by
  cases a <;> first | rfl | exact absurd rfl h
theorem apply_outs {a : Act} (s : State) (h : Spares .outs a) : (apply a s).outs = s.outs := by
  cases a <;> first | rfl | exact absurd rfl h
theorem apply_fresh {a : Act} (s : State) (h : Spares .fresh a) : (apply a s).fresh = s.fresh := by
  cases a <;> first | rfl | exact absurd rfl h
theorem apply_raw {a : Act} (s : State) (h : Spares .raw a) : (apply a s).raw = s.raw := by
  cases a <;> first | rfl | exact absurd rfl h
theorem apply_evtFault {a : Act} (s : State) (h : Spares .latch a) : (apply a s).evtFault = s.evtFault := by
  cases a <;> first | rfl | exact absurd rfl h
theorem apply_evtHalt {a : Act} (s : State) (h : Spares .latch a) : (apply a s).evtHalt = s.evtHalt := by
  cases a <;> first | rfl | exact absurd rfl h
theorem apply_mainReset {a : Act} (s : State) (h : Spares .mainReset a) : (apply a s).mainReset = s.mainReset := by
  cases a <;> first | rfl | exact absurd rfl h
theorem apply_acc {a : Act} (s : State) (h : Spares .acc a) : (apply a s).acc = s.acc := by
  cases a <;> first | rfl | exact absurd rfl h
theorem apply_evt {a : Act} (s : State) (h : Spares .evt a) : (apply a s).evt = s.evt := by
  cases a <;> first | rfl | exact absurd rfl h
theorem apply_gw {a : Act} (s : State) (h : Spares .gw a) : (apply a s).gw = s.gw := by
  cases a <;> first | rfl | exact absurd rfl h
theorem apply_ham {a : Act} (s : State) (h : Spares .ham a) : (apply a s).ham = s.ham := by
  cases a <;> first | rfl | exact absurd rfl h
theorem apply_lne {a : Act} (s : State) (h : Spares .lne a) : (apply a s).lne = s.lne := by
  cases a <;> first | rfl | exact absurd rfl h
theorem apply_plk {a : Act} (s : State) (h : Spares .plk a) : (apply a s).plk = s.plk := by
  cases a <;> first | rfl | exact absurd rfl h
theorem apply_tim {a : Act} (s : State) (h : Spares .tim a) : (apply a s).tim = s.tim := by
  cases a <;> first | rfl | exact absurd rfl h
theorem apply_erg {a : Act} (s : State) (h : Spares .erg a) : (apply a s).erg = s.erg := by
  cases a <;> first | rfl | exact absurd rfl h
theorem apply_bch {a : Act} (s : State) (h : Spares .bch a) : (apply a s).bch = s.bch := by
  cases a <;> first | rfl | exact absurd rfl h
theorem apply_sei {a : Act} (s : State) (h : Spares .sei a) : (apply a s).sei = s.sei := by
  cases a <;> first | rfl | exact absurd rfl h
theorem apply_cmp {a : Act} (s : State) (h : Spares .cmp a) : (apply a s).cmp = s.cmp := by
  cases a <;> first | rfl | exact absurd rfl h
theorem apply_nzl {a : Act} (s : State) (h : Spares .nzl a) : (apply a s).nzl = s.nzl := by
  cases a <;> first | rfl | exact absurd rfl h
theorem apply_jrn {a : Act} (s : State) (h : Spares .jrn a) : (apply a s).jrn = s.jrn := by
  cases a <;> first | rfl | exact absurd rfl h
theorem apply_mov {a : Act} (s : State) (h : Spares .mov a) : (apply a s).mov = s.mov := by
  cases a <;> first | rfl | exact absurd rfl h
theorem apply_cap {a : Act} (s : State) (h : Spares .cap a) : (apply a s).cap = s.cap := by
  cases a <;> first | rfl | exact absurd rfl h
theorem apply_taps {a : Act} (s : State) (h : Spares .taps a) : (apply a s).taps = s.taps := by
  cases a <;> first | rfl | exact absurd rfl h
theorem apply_store {a : Act} (s : State) (h : Spares .store a) : (apply a s).store = s.store := by
  cases a <;> first | rfl | exact absurd rfl h
theorem apply_per {a : Act} (s : State) (h : Spares .per a) : (apply a s).per = s.per := by
  cases a <;> first | rfl | exact absurd rfl h
theorem apply_cfg {a : Act} (s : State) (h : Spares .cfg a) : (apply a s).cfg = s.cfg := by
  cases a <;> first | rfl | exact absurd rfl h
theorem apply_cco {a : Act} (s : State) (h : Spares .cco a) : (apply a s).cco = s.cco := by
  cases a <;> first | rfl | exact absurd rfl h

end Sys2Proof.Machine
end

