-- ==== Sys2Proof/Laws/Keys.lean ====
section
/-!
SUPPORT. Key lists and memories: a read after a write, writes that leave other keys alone, and the canonical form that every
act keeps.
-/
namespace Sys2Proof.Machine

/-! ## Key lists -/

@[simp] theorem mget?_mput_same {α : Type} (k : Nat) (v : α) (l : List (Nat × α)) : mget? k (mput k v l) = some v := by
  induction l with
  | nil => simp [mput, mget?]
  | cons e r ih =>
    obtain ⟨j, w⟩ := e
    simp only [mput]
    split
    · simp [mget?]
    · split
      · simp [mget?]
      · rename_i h; simp [mget?, h, ih]

theorem mget?_mput_ne {α : Type} {k j : Nat} (h : k ≠ j) (v : α) (l : List (Nat × α)) :
    mget? k (mput j v l) = mget? k l := by
  induction l with
  | nil => simp [mput, mget?, Ne.symm h]
  | cons e r ih =>
    obtain ⟨i, w⟩ := e
    simp only [mput]
    split
    · simp [mget?, Ne.symm h]
    · split
      · rename_i q; subst q; simp [mget?, Ne.symm h]
      · simp [mget?, ih]

@[simp] theorem mget_mput_same {α : Type} (d : α) (k : Nat) (v : α) (l : List (Nat × α)) : mget d k (mput k v l) = v := by
  simp [mget]

theorem mget_mput_ne {α : Type} {k j : Nat} (h : k ≠ j) (d v : α) (l : List (Nat × α)) :
    mget d k (mput j v l) = mget d k l := by
  simp [mget, mget?_mput_ne h]

/-- A change of the entry under one key, read under any key. -/
theorem mget_mput {α : Type} (d : α) (k j : Nat) (v : α) (l : List (Nat × α)) :
    mget d k (mput j v l) = if k = j then v else mget d k l := by
  split
  · rename_i h; subst h; simp
  · rename_i h; exact mget_mput_ne h d v l

theorem mget?_mdel_same {α : Type} (k : Nat) (l : List (Nat × α)) : mget? k (mdel k l) = none := by
  induction l with
  | nil => rfl
  | cons e r ih =>
    obtain ⟨j, w⟩ := e
    simp only [mdel]
    split
    · exact ih
    · rename_i h; simp [mget?, h, ih]

theorem mget?_mdel_ne {α : Type} {k j : Nat} (h : k ≠ j) (l : List (Nat × α)) : mget? k (mdel j l) = mget? k l := by
  induction l with
  | nil => rfl
  | cons e r ih =>
    obtain ⟨i, w⟩ := e
    simp only [mdel]
    split
    · rename_i q; subst q; simp [mget?, Ne.symm h, ih]
    · simp [mget?, ih]

/-! ## Rising keys -/

/-- Every key of a list lies above a bound. -/
def above {α : Type} (a : Nat) (l : List (Nat × α)) : Prop := ∀ e ∈ l, a < e.1

theorem rising_cons {α : Type} (a : Nat) (v : α) (l : List (Nat × α)) :
    rising ((a, v) :: l) = true ↔ above a l ∧ rising l = true := by
  induction l generalizing a v with
  | nil => simp [rising, above]
  | cons e r ih =>
    obtain ⟨c, w⟩ := e
    simp only [rising, Bool.and_eq_true, decide_eq_true_eq, above, List.mem_cons, forall_eq_or_imp]
    constructor
    · rintro ⟨h, g⟩
      refine ⟨⟨h, fun x m => ?_⟩, g⟩
      exact Nat.lt_trans h (((ih c w).mp g).1 x m)
    · rintro ⟨⟨h, _⟩, g⟩
      exact ⟨h, g⟩

theorem above_mput {α : Type} {a k : Nat} {v : α} {l : List (Nat × α)} (h : above a l) (g : a < k) :
    above a (mput k v l) := by
  induction l with
  | nil => intro e m; simp [mput] at m; subst m; exact g
  | cons e r ih =>
    obtain ⟨j, w⟩ := e
    have hr : above a r := fun x m => h x (List.mem_cons_of_mem _ m)
    have hj : a < j := h (j, w) (List.mem_cons_self ..)
    simp only [mput]
    split
    · intro x m
      rcases List.mem_cons.mp m with m | m
      · subst m; exact g
      · exact h x m
    · split
      · intro x m
        rcases List.mem_cons.mp m with m | m
        · subst m; exact g
        · exact hr x m
      · intro x m
        rcases List.mem_cons.mp m with m | m
        · subst m; exact hj
        · exact ih hr x m

theorem rising_mput {α : Type} (k : Nat) (v : α) (l : List (Nat × α)) (h : rising l = true) :
    rising (mput k v l) = true := by
  induction l with
  | nil => rfl
  | cons e r ih =>
    obtain ⟨j, w⟩ := e
    obtain ⟨ha, hr⟩ := (rising_cons j w r).mp h
    simp only [mput]
    split
    · rename_i q
      refine (rising_cons k v _).mpr ⟨fun x m => ?_, h⟩
      rcases List.mem_cons.mp m with m | m
      · subst m; exact q
      · exact Nat.lt_trans q (ha x m)
    · split
      · rename_i q; subst q; exact (rising_cons _ v r).mpr ⟨ha, hr⟩
      · rename_i q p
        exact (rising_cons j w _).mpr ⟨above_mput ha (by omega), ih hr⟩

theorem above_sub {α : Type} {a : Nat} {l m : List (Nat × α)} (h : above a l) (s : ∀ e ∈ m, e ∈ l) : above a m :=
  fun e g => h e (s e g)

theorem mem_mdel {α : Type} {k : Nat} {l : List (Nat × α)} : ∀ e ∈ mdel k l, e ∈ l := by
  induction l with
  | nil => exact fun _ m => m
  | cons x r ih =>
    obtain ⟨j, w⟩ := x
    intro e m
    simp only [mdel] at m
    split at m
    · exact List.mem_cons_of_mem _ (ih e m)
    · rcases List.mem_cons.mp m with m | m
      · subst m; exact List.mem_cons_self ..
      · exact List.mem_cons_of_mem _ (ih e m)

theorem rising_mdel {α : Type} (k : Nat) (l : List (Nat × α)) (h : rising l = true) : rising (mdel k l) = true := by
  induction l with
  | nil => rfl
  | cons e r ih =>
    obtain ⟨j, w⟩ := e
    obtain ⟨ha, hr⟩ := (rising_cons j w r).mp h
    simp only [mdel]
    split
    · exact ih hr
    · exact (rising_cons j w _).mpr ⟨above_sub ha mem_mdel, ih hr⟩

theorem mem_cutKeys {α : Type} {lo hi : Nat} {l : List (Nat × α)} : ∀ e ∈ cutKeys lo hi l, e ∈ l := by
  induction l with
  | nil => exact fun _ m => m
  | cons x r ih =>
    obtain ⟨j, w⟩ := x
    intro e m
    simp only [cutKeys] at m
    split at m
    · exact List.mem_cons_of_mem _ (ih e m)
    · rcases List.mem_cons.mp m with m | m
      · subst m; exact List.mem_cons_self ..
      · exact List.mem_cons_of_mem _ (ih e m)

theorem rising_cutKeys {α : Type} (lo hi : Nat) (l : List (Nat × α)) (h : rising l = true) :
    rising (cutKeys lo hi l) = true := by
  induction l with
  | nil => rfl
  | cons e r ih =>
    obtain ⟨j, w⟩ := e
    obtain ⟨ha, hr⟩ := (rising_cons j w r).mp h
    simp only [cutKeys]
    split
    · exact ih hr
    · exact (rising_cons j w _).mpr ⟨above_sub ha mem_cutKeys, ih hr⟩

/-! ## Memory -/

/-- The canonical form: rising addresses, and no byte listed that an unlisted one reads as. -/
theorem memory_wf_iff (m : List Host.Cell) : Memory.wf m = true ↔ rising m = true ∧ ∀ e ∈ m, e.2 ≠ 0#8 := by
  induction m with
  | nil => simp [Memory.wf, rising]
  | cons e r ih =>
    obtain ⟨a, b⟩ := e
    cases r with
    | nil => simp [Memory.wf, rising]
    | cons f r =>
      obtain ⟨c, d⟩ := f
      simp only [Memory.wf, rising, Bool.and_eq_true, decide_eq_true_eq, bne_iff_ne, ne_eq, ih]
      simp only [List.mem_cons, forall_eq_or_imp]
      grind

theorem mem_mput {α : Type} {k : Nat} {v : α} {l : List (Nat × α)} : ∀ e ∈ mput k v l, e = (k, v) ∨ e ∈ l := by
  induction l with
  | nil => intro e m; exact Or.inl (List.mem_singleton.mp m)
  | cons x r ih =>
    obtain ⟨j, w⟩ := x
    intro e m
    simp only [mput] at m
    split at m
    · exact List.mem_cons.mp m
    · split at m
      · rcases List.mem_cons.mp m with m | m
        · exact Or.inl m
        · exact Or.inr (List.mem_cons_of_mem _ m)
      · rcases List.mem_cons.mp m with m | m
        · exact Or.inr (m ▸ List.mem_cons_self ..)
        · rcases ih e m with q | q
          · exact Or.inl q
          · exact Or.inr (List.mem_cons_of_mem _ q)

/-- Writing a byte keeps the canonical form. -/
theorem putByte_wf (a : Nat) (b : Byte) (m : List Host.Cell) (h : Memory.wf m = true) :
    Memory.wf (putByte a b m) = true := by
  obtain ⟨hr, hz⟩ := (memory_wf_iff m).mp h
  unfold putByte
  split
  · exact (memory_wf_iff _).mpr ⟨rising_mdel a m hr, fun e g => hz e (mem_mdel e g)⟩
  · rename_i q
    refine (memory_wf_iff _).mpr ⟨rising_mput a b m hr, fun e g => ?_⟩
    rcases mem_mput e g with g | g
    · subst g; exact q
    · exact hz e g

/-- Losing a range of memory keeps the canonical form. -/
theorem cutKeys_wf (lo hi : Nat) (m : List Host.Cell) (h : Memory.wf m = true) : Memory.wf (cutKeys lo hi m) = true := by
  obtain ⟨hr, hz⟩ := (memory_wf_iff m).mp h
  exact (memory_wf_iff _).mpr ⟨rising_cutKeys lo hi m hr, fun e g => hz e (mem_cutKeys e g)⟩

/-- A byte reads as it was last written. -/
theorem putByte_read (a c : Nat) (b : Byte) (m : List Host.Cell) :
    mget 0#8 c (putByte a b m) = if c = a then b else mget 0#8 c m := by
  unfold putByte
  split
  · rename_i q
    split
    · rename_i p; subst p; simp [mget, mget?_mdel_same, q]
    · rename_i p; simp [mget, mget?_mdel_ne p]
  · exact mget_mput 0#8 c a b m

/-- Every act keeps the device's memory, and what it knows of the host's, in canonical form. -/
theorem apply_mem_wf (a : Act) (s : State) (h : Memory.wf s.mem = true) : Memory.wf (apply a s).mem = true := by
  cases a <;> first
    | exact h
    | exact putByte_wf _ _ _ h
    | exact cutKeys_wf _ _ _ h

theorem apply_hostMem_wf (a : Act) (s : State) (h : Memory.wf s.hostMem = true) : Memory.wf (apply a s).hostMem = true := by
  cases a <;> first
    | exact h
    | exact putByte_wf _ _ _ h

/-- Every act keeps the register words listed at rising offsets. -/
theorem apply_regs_rising (a : Act) (s : State) (h : rising s.regs = true) : rising (apply a s).regs = true := by
  cases a <;> first
    | exact h
    | exact rising_mput _ _ _ h
    | exact rising_cutKeys _ _ _ h

/-! ## Reading registers and memory after acts -/

@[simp] theorem regGet_setReg_same (s : State) (off : Nat) (w : Word) :
    regGet { s with regs := mput off w s.regs } off = w := by simp [regGet]

theorem regGet_setReg_ne {off o : Nat} (h : off ≠ o) (s : State) (w : Word) :
    regGet { s with regs := mput o w s.regs } off = regGet s off := by simp [regGet, mget_mput_ne h]

/-- A register word depends on the register words alone. -/
theorem regGet_congr {s t : State} (h : t.regs = s.regs) (off : Nat) : regGet t off = regGet s off := by
  unfold regGet; rw [h]

/-- The acts that leave a register word alone. -/
def SparesReg (off : Nat) : Act → Prop
  | .reg o _ => o ≠ off
  | .clearRegs lo hi => ¬(lo ≤ off ∧ off < hi)
  | _ => True

theorem mget?_cutKeys {α : Type} {lo hi k : Nat} (h : ¬(lo ≤ k ∧ k < hi)) (l : List (Nat × α)) :
    mget? k (cutKeys lo hi l) = mget? k l := by
  induction l with
  | nil => rfl
  | cons e r ih =>
    obtain ⟨j, w⟩ := e
    simp only [cutKeys]
    split
    · rename_i q
      have : j ≠ k := by intro p; subst p; exact h q
      simp [mget?, this, ih]
    · simp [mget?, ih]

theorem apply_regGet {a : Act} (s : State) (off : Nat) (h : SparesReg off a) :
    regGet (apply a s) off = regGet s off := by
  cases a with
  | reg o w => exact regGet_setReg_ne (Ne.symm h) s w
  | clearRegs lo hi => simp [regGet, apply, mget, mget?_cutKeys h]
  | _ => rfl

/-- The acts that leave a byte of device memory alone. -/
def SparesByte (x : Nat) : Act → Prop
  | .mem a _ => a ≠ x
  | .clearMem lo hi => ¬(lo ≤ x ∧ x < hi)
  | _ => True

theorem apply_memByte {a : Act} (s : State) (x : Nat) (h : SparesByte x a) : memByte (apply a s) x = memByte s x := by
  cases a with
  | mem c b => simp only [memByte, apply, putByte_read]; split
               · rename_i q; exact absurd q.symm h
               · rfl
  | clearMem lo hi => simp [memByte, apply, mget, mget?_cutKeys h]
  | _ => rfl

/-- An effect without an act on a register word leaves it alone. -/
theorem Within.regGet {off : Nat} {e : Eff} (w : Within (SparesReg off) e) (s : State) :
    Machine.regGet (go e s) off = Machine.regGet s off :=
  w.keeps (fun s => Machine.regGet s off) (fun _ s h => apply_regGet s off h) s

/-- An effect without an act on a byte of device memory leaves it alone. -/
theorem Within.memByte {x : Nat} {e : Eff} (w : Within (SparesByte x) e) (s : State) :
    Machine.memByte (go e s) x = Machine.memByte s x :=
  w.keeps (fun s => Machine.memByte s x) (fun _ s h => apply_memByte s x h) s

end Sys2Proof.Machine
end

