-- ==== Sys2Proof/Laws/Bus.lean ====
section
/-! SUPPORT. The way of a register access to its block. -/
namespace Sys2Proof.Machine

/-- A whole access that arrives has its effect and nothing else. -/
theorem reach_whole {s : State} {ini : Ini} {off : Nat} (h : Reaches s ini off) (data : Nat) (ones k : Eff) :
    go (reach ini off .whole data ones k) s = go k s := by
  obtain ⟨hm, hp, hh, hr, hd⟩ := h
  have h1 : (ini == Ini.host && !takesRequests s) = false := by
    cases hi : ini == Ini.host with
    | false => rfl
    | true => rw [(hh (eq_of_beq hi)).1]; rfl
  have h2 : ((descAt off).isNone && regionOf off != 0x30) = false := by
    rcases hd with hd | hd
    · cases hq : descAt off with
      | none => rw [hq] at hd; cases hd
      | some _ => rfl
    · rw [hd]; simp
  have e : reach ini off .whole data ones k s = k s := by
    simp only [reach, rd, h1, hm, hr, hp, h2]; rfl
  simp only [go, e]

/-- An access that arrives does not wait behind others. -/
theorem access_whole {s : State} {ini : Ini} {off : Nat} (h : Reaches s ini off) (w : Option Word) (ones k : Eff) :
    go (access ini off .whole w ones k) s = go k s := by
  rw [← reach_whole h (w.getD 0#32).toNat ones k]
  unfold access
  cases hi : ini == Ini.host with
  | false => rfl
  | true => simp only [inOrder, go, rd, if_true, (h.2.2.1 (eq_of_beq hi)).2, Bool.and_false]; rfl

@[simp] theorem busWrite_go {s : State} {ini : Ini} {off : Nat} (h : Reaches s ini off) (v : Word) (k : Eff) :
    go (busWrite ini off v k) s = go k s := access_whole h _ _ _

@[simp] theorem busRead_go {s : State} {ini : Ini} {off : Nat} (h : Reaches s ini off) (k : Eff) :
    go (busRead ini off k) s = go k s := access_whole h _ _ _

end Sys2Proof.Machine
end

