-- ==== Sys2Proof/Laws/Events.lean ====
section
/-! SUPPORT. What raising an event can change: EVT, its latches, its ring in memory, messages, and the strobes that a halt
stops. Every other part of the state stays. -/
namespace Sys2Proof.Machine

/-- The acts that raising an event is made of. -/
def RaiseAct : Act → Prop
  | .reg off _ => ∃ k, k < 8 ∧ off = Reg.STB_MISSED k
  | .mem _ _ => True
  | .out _ => True
  | .evt _ => True
  | .gw _ => True
  | .fault _ => True
  | .halt _ => True
  | .per _ => True
  | _ => False

theorem within_memWrite {P : Act → Prop} (h : ∀ a b, P (.mem a b)) (a : Nat) (bs : List Byte) :
    Within P (memWrite a bs) := by
  intro s
  induction bs generalizing a with
  | nil => exact fun _ m => nomatch m
  | cons b bs ih =>
    intro x m
    rcases List.mem_cons.mp m with m | m
    · rw [m]; exact h a b
    · exact ih (a + 1) x m

theorem within_msix (v : Nat) : Within RaiseAct (msix v) := by
  unfold msix
  refine within_rd fun s => ?_
  split
  · refine within_chain ?_
    intro e m
    simp only [List.mem_cons, List.not_mem_nil, or_false] at m
    rcases m with m | m <;> subst m
    · exact within_rd fun _ => within_act trivial
    · refine within_when fun _ => within_chain ?_
      intro e m
      simp only [List.mem_cons, List.not_mem_nil, or_false] at m
      rcases m with m | m <;> subst m
      · exact within_act trivial
      · exact within_rd fun _ => within_act trivial
  · exact within_act trivial

theorem within_modEvt (f : Evt → Evt) : Within RaiseAct (modEvt f) := within_rd fun _ => within_act trivial

theorem within_modPer (f : Per → Per) : Within RaiseAct (modPer f) := within_rd fun _ => within_act trivial

theorem within_storeRec (n : Nat) : Within RaiseAct (storeRec n) :=
  within_rd fun _ => within_when fun _ => within_memWrite (fun _ _ => trivial) _ _

/-- A chain of two or three effects. -/
theorem within_two {P : Act → Prop} {d e : Eff} (hd : Within P d) (he : Within P e) : Within P (chain [d, e]) := by
  refine within_chain ?_
  intro x m
  simp only [List.mem_cons, List.not_mem_nil, or_false] at m
  rcases m with m | m <;> subst m <;> assumption

theorem within_three {P : Act → Prop} {c d e : Eff} (hc : Within P c) (hd : Within P d) (he : Within P e) :
    Within P (chain [c, d, e]) := by
  refine within_chain ?_
  intro x m
  simp only [List.mem_cons, List.not_mem_nil, or_false] at m
  rcases m with m | m | m <;> subst m <;> assumption

theorem within_appendRec (r : EventRec) : Within RaiseAct (appendRec r) :=
  within_rd fun _ => within_three (within_modEvt _) (within_storeRec _) (within_when fun _ => within_modEvt _)

theorem within_routeEvent (blk sev : Nat) : Within RaiseAct (routeEvent blk sev) :=
  within_rd fun _ => within_two (within_modEvt _) (within_each fun _ _ => within_msix _)

theorem within_loseEvent (sev : Nat) : Within RaiseAct (loseEvent sev) := by
  refine within_rd fun s => within_two (within_modEvt _) ?_
  split
  · exact within_rd fun _ => within_two (within_modEvt _) (within_storeRec _)
  · exact within_three (within_modEvt _) (within_appendRec _) (within_routeEvent _ _)

theorem within_queueRec (b : Bool) (r : EventRec) : Within RaiseAct (queueRec b r) := by
  refine within_rd fun s => ?_
  dsimp only
  split
  · exact within_two (within_modEvt _) (within_storeRec _)
  · split
    · exact within_appendRec _
    · exact within_loseEvent _

theorem within_stbCut (k : Nat) (h : k < 8) : Within RaiseAct (stbCut k) := by
  refine within_rd fun s => within_when fun _ => within_three ?_ ?_ (within_act trivial)
  · exact within_rd fun _ => within_act ⟨k, h, rfl⟩
  · exact within_modPer _

theorem lt_of_mem_upFrom {n a k : Nat} (h : k ∈ upFrom a n) : k < a + n := by
  induction n generalizing a with
  | zero => cases h
  | succ n ih =>
    rcases List.mem_cons.mp h with h | h
    · omega
    · have := ih h; omega

theorem within_latchEvent (blk sev : Nat) : Within RaiseAct (latchEvent blk sev) := by
  refine within_rd fun s => ?_
  split
  · refine within_three (within_when fun _ => within_modEvt _) (within_when fun _ => within_each fun k m => ?_)
      (within_act trivial)
    exact within_stbCut k (by have := lt_of_mem_upFrom m; omega)
  · exact within_when fun _ => within_act trivial

/-- What raising an event is made of. -/
theorem within_raiseWith (b : Bool) (code src sev a0 a1 : Nat) : Within RaiseAct (raiseWith b code src sev a0 a1) := by
  refine within_rd fun s => ?_
  split
  · exact within_modEvt _
  · split
    · exact within_three (within_latchEvent _ _) (within_queueRec _ _) (within_routeEvent _ _)
    · exact within_modEvt _

theorem within_raise (code src sev a0 a1 : Nat) : Within RaiseAct (raise code src sev a0 a1) := within_raiseWith _ _ _ _ _ _
theorem within_raiseMerge (code src sev a0 a1 : Nat) : Within RaiseAct (raiseMerge code src sev a0 a1) :=
  within_raiseWith _ _ _ _ _ _

/-- A register word that counts no missed pulses is none of an event's. -/
def notMissed (off : Nat) : Prop := ∀ k, k < 8 → off ≠ Reg.STB_MISSED k

theorem raiseAct_sparesReg {off : Nat} (h : notMissed off) (a : Act) (i : RaiseAct a) : SparesReg off a := by
  cases a <;> first
    | trivial
    | (obtain ⟨k, hk, rfl⟩ := i; exact fun q => h k hk q.symm)
    | cases i

theorem raise_regGet {off : Nat} (h : notMissed off) (b : Bool) (code src sev a0 a1 : Nat) (s : State) :
    regGet (go (raiseWith b code src sev a0 a1) s) off = regGet s off :=
  ((within_raiseWith b code src sev a0 a1).mono (raiseAct_sparesReg h)).regGet s

/-- The parts of the state that an event can change. -/
def raiseParts : List Part := [.regs, .mem, .outs, .evt, .gw, .latch, .per]

theorem raiseAct_part (a : Act) (h : RaiseAct a) : a.part ∈ raiseParts := by
  cases a <;> first | exact absurd h id | simp [Act.part, raiseParts]

/-- A part that no event changes. -/
theorem raise_keeps {α : Type} (get : State → α) (p : Part) (hp : p ∉ raiseParts)
    (h : ∀ a s, Spares p a → get (apply a s) = get s) (b : Bool) (code src sev a0 a1 : Nat) (s : State) :
    get (go (raiseWith b code src sev a0 a1) s) = get s :=
  ((within_raiseWith b code src sev a0 a1).mono fun a i (q : a.part = p) => hp (q ▸ raiseAct_part a i)).keeps get h s

section
variable (b : Bool) (code src sev a0 a1 : Nat) (s : State)

@[simp] theorem raise_hostMem : (go (raiseWith b code src sev a0 a1) s).hostMem = s.hostMem :=
  raise_keeps (·.hostMem) .hostMem (by decide) (fun _ s h => apply_hostMem s h) ..
@[simp] theorem raise_fresh : (go (raiseWith b code src sev a0 a1) s).fresh = s.fresh :=
  raise_keeps (·.fresh) .fresh (by decide) (fun _ s h => apply_fresh s h) ..
@[simp] theorem raise_raw : (go (raiseWith b code src sev a0 a1) s).raw = s.raw :=
  raise_keeps (·.raw) .raw (by decide) (fun _ s h => apply_raw s h) ..
@[simp] theorem raise_mainReset : (go (raiseWith b code src sev a0 a1) s).mainReset = s.mainReset :=
  raise_keeps (·.mainReset) .mainReset (by decide)
    (fun _ s h => apply_mainReset s h) ..
@[simp] theorem raise_acc : (go (raiseWith b code src sev a0 a1) s).acc = s.acc :=
  raise_keeps (·.acc) .acc (by decide) (fun _ s h => apply_acc s h) ..
@[simp] theorem raise_ham : (go (raiseWith b code src sev a0 a1) s).ham = s.ham :=
  raise_keeps (·.ham) .ham (by decide) (fun _ s h => apply_ham s h) ..
@[simp] theorem raise_lne : (go (raiseWith b code src sev a0 a1) s).lne = s.lne :=
  raise_keeps (·.lne) .lne (by decide) (fun _ s h => apply_lne s h) ..
@[simp] theorem raise_plk : (go (raiseWith b code src sev a0 a1) s).plk = s.plk :=
  raise_keeps (·.plk) .plk (by decide) (fun _ s h => apply_plk s h) ..
@[simp] theorem raise_tim : (go (raiseWith b code src sev a0 a1) s).tim = s.tim :=
  raise_keeps (·.tim) .tim (by decide) (fun _ s h => apply_tim s h) ..
@[simp] theorem raise_erg : (go (raiseWith b code src sev a0 a1) s).erg = s.erg :=
  raise_keeps (·.erg) .erg (by decide) (fun _ s h => apply_erg s h) ..
@[simp] theorem raise_bch : (go (raiseWith b code src sev a0 a1) s).bch = s.bch :=
  raise_keeps (·.bch) .bch (by decide) (fun _ s h => apply_bch s h) ..
@[simp] theorem raise_sei : (go (raiseWith b code src sev a0 a1) s).sei = s.sei :=
  raise_keeps (·.sei) .sei (by decide) (fun _ s h => apply_sei s h) ..
@[simp] theorem raise_cmp : (go (raiseWith b code src sev a0 a1) s).cmp = s.cmp :=
  raise_keeps (·.cmp) .cmp (by decide) (fun _ s h => apply_cmp s h) ..
@[simp] theorem raise_nzl : (go (raiseWith b code src sev a0 a1) s).nzl = s.nzl :=
  raise_keeps (·.nzl) .nzl (by decide) (fun _ s h => apply_nzl s h) ..
@[simp] theorem raise_jrn : (go (raiseWith b code src sev a0 a1) s).jrn = s.jrn :=
  raise_keeps (·.jrn) .jrn (by decide) (fun _ s h => apply_jrn s h) ..
@[simp] theorem raise_mov : (go (raiseWith b code src sev a0 a1) s).mov = s.mov :=
  raise_keeps (·.mov) .mov (by decide) (fun _ s h => apply_mov s h) ..
@[simp] theorem raise_cap : (go (raiseWith b code src sev a0 a1) s).cap = s.cap :=
  raise_keeps (·.cap) .cap (by decide) (fun _ s h => apply_cap s h) ..
@[simp] theorem raise_taps : (go (raiseWith b code src sev a0 a1) s).taps = s.taps :=
  raise_keeps (·.taps) .taps (by decide) (fun _ s h => apply_taps s h) ..
@[simp] theorem raise_store : (go (raiseWith b code src sev a0 a1) s).store = s.store :=
  raise_keeps (·.store) .store (by decide) (fun _ s h => apply_store s h) ..
@[simp] theorem raise_cfg : (go (raiseWith b code src sev a0 a1) s).cfg = s.cfg :=
  raise_keeps (·.cfg) .cfg (by decide) (fun _ s h => apply_cfg s h) ..
@[simp] theorem raise_cco : (go (raiseWith b code src sev a0 a1) s).cco = s.cco :=
  raise_keeps (·.cco) .cco (by decide) (fun _ s h => apply_cco s h) ..
end

end Sys2Proof.Machine
end

