-- ==== Sys2Proof/Laws/Exec.lean ====
section
/-!
SUPPORT. What every command is: a list of primitive acts on the state. Whatever each act keeps, every command and every
step keep.
-/
namespace Sys2Proof.Machine

/-- Every command runs a list of acts and answers a next state. -/
theorem exec_acts (c : Instr) (s : State) : ∃ l : List Act, exec c s = .next (run l s) := by
  cases c <;> exact ⟨_, rfl⟩

/-- A command's next state is the state after its acts. -/
theorem exec_next {c : Instr} {s t : State} (h : exec c s = .next t) : ∃ l : List Act, t = run l s := by
  obtain ⟨l, e⟩ := exec_acts c s
  exact ⟨l, by rw [e] at h; exact (Host.Outcome.next.inj h).symm⟩

/-- What every act keeps, every command keeps. -/
theorem exec_inv {Inv : State → Prop} (k : ∀ a s, Inv s → Inv (apply a s)) {c : Instr} {s t : State}
    (h : exec c s = .next t) (i : Inv s) : Inv t := by
  obtain ⟨l, rfl⟩ := exec_next h
  exact run_inv k l s i

/-- What every act keeps, and what does not look at the queue, every step keeps. -/
theorem step_inv {Inv : State → Prop} (k : ∀ a s, Inv s → Inv (apply a s))
    (q : ∀ s l, Inv s → Inv { s with pending := l }) {s t : State} (h : step s = .next t) (i : Inv s) : Inv t := by
  unfold step at h
  split at h
  · exact Host.Outcome.next.inj h ▸ run_inv k _ s i
  · exact exec_inv k h (q s _ i)

end Sys2Proof.Machine
end

