-- ==== Sys2Proof/Laws/State.lean ====
section
/-!
SUPPORT. Each primitive act, field by field: the fields it gives a new value, and that it leaves every other field of
the state as it was. `simp` takes each conjunct as a rule of its own, so no proof unfolds a record update.
-/
namespace Sys2Proof.Machine

variable (s : State)

@[simp] theorem apply_act_reg (off : Nat) (w : Word) :
    (apply (.reg off w) s).pending = s.pending ∧ (apply (.reg off w) s).raw = s.raw ∧
    (apply (.reg off w) s).regs = mput off w s.regs ∧ (apply (.reg off w) s).mem = s.mem ∧
    (apply (.reg off w) s).hostMem = s.hostMem ∧ (apply (.reg off w) s).outs = s.outs ∧
    (apply (.reg off w) s).fresh = s.fresh ∧ (apply (.reg off w) s).evtFault = s.evtFault ∧
    (apply (.reg off w) s).evtHalt = s.evtHalt ∧ (apply (.reg off w) s).mainReset = s.mainReset ∧
    (apply (.reg off w) s).acc = s.acc ∧ (apply (.reg off w) s).evt = s.evt ∧ (apply (.reg off w) s).gw = s.gw ∧
    (apply (.reg off w) s).ham = s.ham ∧ (apply (.reg off w) s).lne = s.lne ∧ (apply (.reg off w) s).plk = s.plk ∧
    (apply (.reg off w) s).tim = s.tim ∧ (apply (.reg off w) s).erg = s.erg ∧ (apply (.reg off w) s).bch = s.bch ∧
    (apply (.reg off w) s).sei = s.sei ∧ (apply (.reg off w) s).cmp = s.cmp ∧ (apply (.reg off w) s).nzl = s.nzl ∧
    (apply (.reg off w) s).jrn = s.jrn ∧ (apply (.reg off w) s).mov = s.mov ∧ (apply (.reg off w) s).cap = s.cap ∧
    (apply (.reg off w) s).taps = s.taps ∧ (apply (.reg off w) s).store = s.store ∧
    (apply (.reg off w) s).per = s.per ∧ (apply (.reg off w) s).cfg = s.cfg ∧ (apply (.reg off w) s).cco = s.cco := by
  simp only [apply, and_self]

@[simp] theorem apply_act_clearRegs (lo hi : Nat) :
    (apply (.clearRegs lo hi) s).pending = s.pending ∧ (apply (.clearRegs lo hi) s).raw = s.raw ∧
    (apply (.clearRegs lo hi) s).regs = cutKeys lo hi s.regs ∧ (apply (.clearRegs lo hi) s).mem = s.mem ∧
    (apply (.clearRegs lo hi) s).hostMem = s.hostMem ∧ (apply (.clearRegs lo hi) s).outs = s.outs ∧
    (apply (.clearRegs lo hi) s).fresh = s.fresh ∧ (apply (.clearRegs lo hi) s).evtFault = s.evtFault ∧
    (apply (.clearRegs lo hi) s).evtHalt = s.evtHalt ∧ (apply (.clearRegs lo hi) s).mainReset = s.mainReset ∧
    (apply (.clearRegs lo hi) s).acc = s.acc ∧ (apply (.clearRegs lo hi) s).evt = s.evt ∧
    (apply (.clearRegs lo hi) s).gw = s.gw ∧ (apply (.clearRegs lo hi) s).ham = s.ham ∧
    (apply (.clearRegs lo hi) s).lne = s.lne ∧ (apply (.clearRegs lo hi) s).plk = s.plk ∧
    (apply (.clearRegs lo hi) s).tim = s.tim ∧ (apply (.clearRegs lo hi) s).erg = s.erg ∧
    (apply (.clearRegs lo hi) s).bch = s.bch ∧ (apply (.clearRegs lo hi) s).sei = s.sei ∧
    (apply (.clearRegs lo hi) s).cmp = s.cmp ∧ (apply (.clearRegs lo hi) s).nzl = s.nzl ∧
    (apply (.clearRegs lo hi) s).jrn = s.jrn ∧ (apply (.clearRegs lo hi) s).mov = s.mov ∧
    (apply (.clearRegs lo hi) s).cap = s.cap ∧ (apply (.clearRegs lo hi) s).taps = s.taps ∧
    (apply (.clearRegs lo hi) s).store = s.store ∧ (apply (.clearRegs lo hi) s).per = s.per ∧
    (apply (.clearRegs lo hi) s).cfg = s.cfg ∧ (apply (.clearRegs lo hi) s).cco = s.cco := by
  simp only [apply, and_self]

@[simp] theorem apply_act_mem (a : Nat) (b : Byte) :
    (apply (.mem a b) s).pending = s.pending ∧ (apply (.mem a b) s).raw = s.raw ∧
    (apply (.mem a b) s).regs = s.regs ∧ (apply (.mem a b) s).mem = putByte a b s.mem ∧
    (apply (.mem a b) s).hostMem = s.hostMem ∧ (apply (.mem a b) s).outs = s.outs ∧
    (apply (.mem a b) s).fresh = s.fresh ∧ (apply (.mem a b) s).evtFault = s.evtFault ∧
    (apply (.mem a b) s).evtHalt = s.evtHalt ∧ (apply (.mem a b) s).mainReset = s.mainReset ∧
    (apply (.mem a b) s).acc = s.acc ∧ (apply (.mem a b) s).evt = s.evt ∧ (apply (.mem a b) s).gw = s.gw ∧
    (apply (.mem a b) s).ham = s.ham ∧ (apply (.mem a b) s).lne = s.lne ∧ (apply (.mem a b) s).plk = s.plk ∧
    (apply (.mem a b) s).tim = s.tim ∧ (apply (.mem a b) s).erg = s.erg ∧ (apply (.mem a b) s).bch = s.bch ∧
    (apply (.mem a b) s).sei = s.sei ∧ (apply (.mem a b) s).cmp = s.cmp ∧ (apply (.mem a b) s).nzl = s.nzl ∧
    (apply (.mem a b) s).jrn = s.jrn ∧ (apply (.mem a b) s).mov = s.mov ∧ (apply (.mem a b) s).cap = s.cap ∧
    (apply (.mem a b) s).taps = s.taps ∧ (apply (.mem a b) s).store = s.store ∧ (apply (.mem a b) s).per = s.per ∧
    (apply (.mem a b) s).cfg = s.cfg ∧ (apply (.mem a b) s).cco = s.cco := by
  simp only [apply, and_self]

@[simp] theorem apply_act_clearMem (lo hi : Nat) :
    (apply (.clearMem lo hi) s).pending = s.pending ∧ (apply (.clearMem lo hi) s).raw = s.raw ∧
    (apply (.clearMem lo hi) s).regs = s.regs ∧ (apply (.clearMem lo hi) s).mem = cutKeys lo hi s.mem ∧
    (apply (.clearMem lo hi) s).hostMem = s.hostMem ∧ (apply (.clearMem lo hi) s).outs = s.outs ∧
    (apply (.clearMem lo hi) s).fresh = s.fresh ∧ (apply (.clearMem lo hi) s).evtFault = s.evtFault ∧
    (apply (.clearMem lo hi) s).evtHalt = s.evtHalt ∧ (apply (.clearMem lo hi) s).mainReset = s.mainReset ∧
    (apply (.clearMem lo hi) s).acc = s.acc ∧ (apply (.clearMem lo hi) s).evt = s.evt ∧
    (apply (.clearMem lo hi) s).gw = s.gw ∧ (apply (.clearMem lo hi) s).ham = s.ham ∧
    (apply (.clearMem lo hi) s).lne = s.lne ∧ (apply (.clearMem lo hi) s).plk = s.plk ∧
    (apply (.clearMem lo hi) s).tim = s.tim ∧ (apply (.clearMem lo hi) s).erg = s.erg ∧
    (apply (.clearMem lo hi) s).bch = s.bch ∧ (apply (.clearMem lo hi) s).sei = s.sei ∧
    (apply (.clearMem lo hi) s).cmp = s.cmp ∧ (apply (.clearMem lo hi) s).nzl = s.nzl ∧
    (apply (.clearMem lo hi) s).jrn = s.jrn ∧ (apply (.clearMem lo hi) s).mov = s.mov ∧
    (apply (.clearMem lo hi) s).cap = s.cap ∧ (apply (.clearMem lo hi) s).taps = s.taps ∧
    (apply (.clearMem lo hi) s).store = s.store ∧ (apply (.clearMem lo hi) s).per = s.per ∧
    (apply (.clearMem lo hi) s).cfg = s.cfg ∧ (apply (.clearMem lo hi) s).cco = s.cco := by
  simp only [apply, and_self]

@[simp] theorem apply_act_host (a : Nat) (b : Byte) :
    (apply (.host a b) s).pending = s.pending ∧ (apply (.host a b) s).raw = s.raw ∧
    (apply (.host a b) s).regs = s.regs ∧ (apply (.host a b) s).mem = s.mem ∧
    (apply (.host a b) s).hostMem = putByte a b s.hostMem ∧ (apply (.host a b) s).outs = s.outs ∧
    (apply (.host a b) s).fresh = s.fresh ∧ (apply (.host a b) s).evtFault = s.evtFault ∧
    (apply (.host a b) s).evtHalt = s.evtHalt ∧ (apply (.host a b) s).mainReset = s.mainReset ∧
    (apply (.host a b) s).acc = s.acc ∧ (apply (.host a b) s).evt = s.evt ∧ (apply (.host a b) s).gw = s.gw ∧
    (apply (.host a b) s).ham = s.ham ∧ (apply (.host a b) s).lne = s.lne ∧ (apply (.host a b) s).plk = s.plk ∧
    (apply (.host a b) s).tim = s.tim ∧ (apply (.host a b) s).erg = s.erg ∧ (apply (.host a b) s).bch = s.bch ∧
    (apply (.host a b) s).sei = s.sei ∧ (apply (.host a b) s).cmp = s.cmp ∧ (apply (.host a b) s).nzl = s.nzl ∧
    (apply (.host a b) s).jrn = s.jrn ∧ (apply (.host a b) s).mov = s.mov ∧ (apply (.host a b) s).cap = s.cap ∧
    (apply (.host a b) s).taps = s.taps ∧ (apply (.host a b) s).store = s.store ∧
    (apply (.host a b) s).per = s.per ∧ (apply (.host a b) s).cfg = s.cfg ∧ (apply (.host a b) s).cco = s.cco := by
  simp only [apply, and_self]

@[simp] theorem apply_act_out (o : Out) :
    (apply (.out o) s).pending = s.pending ∧ (apply (.out o) s).raw = s.raw ∧ (apply (.out o) s).regs = s.regs ∧
    (apply (.out o) s).mem = s.mem ∧ (apply (.out o) s).hostMem = s.hostMem ∧
    (apply (.out o) s).outs = o :: s.outs ∧ (apply (.out o) s).fresh = s.fresh ∧
    (apply (.out o) s).evtFault = s.evtFault ∧ (apply (.out o) s).evtHalt = s.evtHalt ∧
    (apply (.out o) s).mainReset = s.mainReset ∧ (apply (.out o) s).acc = s.acc ∧ (apply (.out o) s).evt = s.evt ∧
    (apply (.out o) s).gw = s.gw ∧ (apply (.out o) s).ham = s.ham ∧ (apply (.out o) s).lne = s.lne ∧
    (apply (.out o) s).plk = s.plk ∧ (apply (.out o) s).tim = s.tim ∧ (apply (.out o) s).erg = s.erg ∧
    (apply (.out o) s).bch = s.bch ∧ (apply (.out o) s).sei = s.sei ∧ (apply (.out o) s).cmp = s.cmp ∧
    (apply (.out o) s).nzl = s.nzl ∧ (apply (.out o) s).jrn = s.jrn ∧ (apply (.out o) s).mov = s.mov ∧
    (apply (.out o) s).cap = s.cap ∧ (apply (.out o) s).taps = s.taps ∧ (apply (.out o) s).store = s.store ∧
    (apply (.out o) s).per = s.per ∧ (apply (.out o) s).cfg = s.cfg ∧ (apply (.out o) s).cco = s.cco := by
  simp only [apply, and_self]

@[simp] theorem apply_act_fresh :
    (apply .fresh s).pending = s.pending ∧ (apply .fresh s).raw = s.raw ∧ (apply .fresh s).regs = s.regs ∧
    (apply .fresh s).mem = s.mem ∧ (apply .fresh s).hostMem = s.hostMem ∧ (apply .fresh s).outs = s.outs ∧
    (apply .fresh s).fresh = s.fresh + 1 ∧ (apply .fresh s).evtFault = s.evtFault ∧
    (apply .fresh s).evtHalt = s.evtHalt ∧ (apply .fresh s).mainReset = s.mainReset ∧ (apply .fresh s).acc = s.acc
    ∧ (apply .fresh s).evt = s.evt ∧ (apply .fresh s).gw = s.gw ∧ (apply .fresh s).ham = s.ham ∧
    (apply .fresh s).lne = s.lne ∧ (apply .fresh s).plk = s.plk ∧ (apply .fresh s).tim = s.tim ∧
    (apply .fresh s).erg = s.erg ∧ (apply .fresh s).bch = s.bch ∧ (apply .fresh s).sei = s.sei ∧
    (apply .fresh s).cmp = s.cmp ∧ (apply .fresh s).nzl = s.nzl ∧ (apply .fresh s).jrn = s.jrn ∧
    (apply .fresh s).mov = s.mov ∧ (apply .fresh s).cap = s.cap ∧ (apply .fresh s).taps = s.taps ∧
    (apply .fresh s).store = s.store ∧ (apply .fresh s).per = s.per ∧ (apply .fresh s).cfg = s.cfg ∧
    (apply .fresh s).cco = s.cco := by
  simp only [apply, and_self]

@[simp] theorem apply_act_tick (n : Nat) :
    (apply (.tick n) s).pending = s.pending ∧ (apply (.tick n) s).raw = s.raw + n ∧
    (apply (.tick n) s).regs = s.regs ∧ (apply (.tick n) s).mem = s.mem ∧ (apply (.tick n) s).hostMem = s.hostMem
    ∧ (apply (.tick n) s).outs = s.outs ∧ (apply (.tick n) s).fresh = s.fresh ∧
    (apply (.tick n) s).evtFault = s.evtFault ∧ (apply (.tick n) s).evtHalt = s.evtHalt ∧
    (apply (.tick n) s).mainReset = s.mainReset ∧ (apply (.tick n) s).acc = s.acc ∧
    (apply (.tick n) s).evt = s.evt ∧ (apply (.tick n) s).gw = s.gw ∧ (apply (.tick n) s).ham = s.ham ∧
    (apply (.tick n) s).lne = s.lne ∧ (apply (.tick n) s).plk = s.plk ∧ (apply (.tick n) s).tim = s.tim ∧
    (apply (.tick n) s).erg = s.erg ∧ (apply (.tick n) s).bch = s.bch ∧ (apply (.tick n) s).sei = s.sei ∧
    (apply (.tick n) s).cmp = s.cmp ∧ (apply (.tick n) s).nzl = s.nzl ∧ (apply (.tick n) s).jrn = s.jrn ∧
    (apply (.tick n) s).mov = s.mov ∧ (apply (.tick n) s).cap = s.cap ∧ (apply (.tick n) s).taps = s.taps ∧
    (apply (.tick n) s).store = s.store ∧ (apply (.tick n) s).per = s.per ∧ (apply (.tick n) s).cfg = s.cfg ∧
    (apply (.tick n) s).cco = s.cco := by
  simp only [apply, and_self]

@[simp] theorem apply_act_rawZero :
    (apply .rawZero s).pending = s.pending ∧ (apply .rawZero s).raw = 0 ∧ (apply .rawZero s).regs = s.regs ∧
    (apply .rawZero s).mem = s.mem ∧ (apply .rawZero s).hostMem = s.hostMem ∧ (apply .rawZero s).outs = s.outs ∧
    (apply .rawZero s).fresh = s.fresh ∧ (apply .rawZero s).evtFault = s.evtFault ∧
    (apply .rawZero s).evtHalt = s.evtHalt ∧ (apply .rawZero s).mainReset = s.mainReset ∧
    (apply .rawZero s).acc = s.acc ∧ (apply .rawZero s).evt = s.evt ∧ (apply .rawZero s).gw = s.gw ∧
    (apply .rawZero s).ham = s.ham ∧ (apply .rawZero s).lne = s.lne ∧ (apply .rawZero s).plk = s.plk ∧
    (apply .rawZero s).tim = s.tim ∧ (apply .rawZero s).erg = s.erg ∧ (apply .rawZero s).bch = s.bch ∧
    (apply .rawZero s).sei = s.sei ∧ (apply .rawZero s).cmp = s.cmp ∧ (apply .rawZero s).nzl = s.nzl ∧
    (apply .rawZero s).jrn = s.jrn ∧ (apply .rawZero s).mov = s.mov ∧ (apply .rawZero s).cap = s.cap ∧
    (apply .rawZero s).taps = s.taps ∧ (apply .rawZero s).store = s.store ∧ (apply .rawZero s).per = s.per ∧
    (apply .rawZero s).cfg = s.cfg ∧ (apply .rawZero s).cco = s.cco := by
  simp only [apply, and_self]

@[simp] theorem apply_act_fault (b : Nat) :
    (apply (.fault b) s).pending = s.pending ∧ (apply (.fault b) s).raw = s.raw ∧
    (apply (.fault b) s).regs = s.regs ∧ (apply (.fault b) s).mem = s.mem ∧
    (apply (.fault b) s).hostMem = s.hostMem ∧ (apply (.fault b) s).outs = s.outs ∧
    (apply (.fault b) s).fresh = s.fresh ∧ (apply (.fault b) s).evtFault = s.evtFault ||| 2 ^ b ∧
    (apply (.fault b) s).evtHalt = s.evtHalt ∧ (apply (.fault b) s).mainReset = s.mainReset ∧
    (apply (.fault b) s).acc = s.acc ∧ (apply (.fault b) s).evt = s.evt ∧ (apply (.fault b) s).gw = s.gw ∧
    (apply (.fault b) s).ham = s.ham ∧ (apply (.fault b) s).lne = s.lne ∧ (apply (.fault b) s).plk = s.plk ∧
    (apply (.fault b) s).tim = s.tim ∧ (apply (.fault b) s).erg = s.erg ∧ (apply (.fault b) s).bch = s.bch ∧
    (apply (.fault b) s).sei = s.sei ∧ (apply (.fault b) s).cmp = s.cmp ∧ (apply (.fault b) s).nzl = s.nzl ∧
    (apply (.fault b) s).jrn = s.jrn ∧ (apply (.fault b) s).mov = s.mov ∧ (apply (.fault b) s).cap = s.cap ∧
    (apply (.fault b) s).taps = s.taps ∧ (apply (.fault b) s).store = s.store ∧ (apply (.fault b) s).per = s.per ∧
    (apply (.fault b) s).cfg = s.cfg ∧ (apply (.fault b) s).cco = s.cco := by
  simp only [apply, and_self]

@[simp] theorem apply_act_halt (b : Nat) :
    (apply (.halt b) s).pending = s.pending ∧ (apply (.halt b) s).raw = s.raw ∧ (apply (.halt b) s).regs = s.regs
    ∧ (apply (.halt b) s).mem = s.mem ∧ (apply (.halt b) s).hostMem = s.hostMem ∧
    (apply (.halt b) s).outs = s.outs ∧ (apply (.halt b) s).fresh = s.fresh ∧
    (apply (.halt b) s).evtFault = s.evtFault ||| 2 ^ b ∧ (apply (.halt b) s).evtHalt = s.evtHalt ||| 2 ^ b ∧
    (apply (.halt b) s).mainReset = s.mainReset ∧ (apply (.halt b) s).acc = s.acc ∧
    (apply (.halt b) s).evt = s.evt ∧ (apply (.halt b) s).gw = s.gw ∧ (apply (.halt b) s).ham = s.ham ∧
    (apply (.halt b) s).lne = s.lne ∧ (apply (.halt b) s).plk = s.plk ∧ (apply (.halt b) s).tim = s.tim ∧
    (apply (.halt b) s).erg = s.erg ∧ (apply (.halt b) s).bch = s.bch ∧ (apply (.halt b) s).sei = s.sei ∧
    (apply (.halt b) s).cmp = s.cmp ∧ (apply (.halt b) s).nzl = s.nzl ∧ (apply (.halt b) s).jrn = s.jrn ∧
    (apply (.halt b) s).mov = s.mov ∧ (apply (.halt b) s).cap = s.cap ∧ (apply (.halt b) s).taps = s.taps ∧
    (apply (.halt b) s).store = s.store ∧ (apply (.halt b) s).per = s.per ∧ (apply (.halt b) s).cfg = s.cfg ∧
    (apply (.halt b) s).cco = s.cco := by
  simp only [apply, and_self]

@[simp] theorem apply_act_clearFault (m : Nat) :
    (apply (.clearFault m) s).pending = s.pending ∧ (apply (.clearFault m) s).raw = s.raw ∧
    (apply (.clearFault m) s).regs = s.regs ∧ (apply (.clearFault m) s).mem = s.mem ∧
    (apply (.clearFault m) s).hostMem = s.hostMem ∧ (apply (.clearFault m) s).outs = s.outs ∧
    (apply (.clearFault m) s).fresh = s.fresh ∧ (apply (.clearFault m) s).evtFault = clearMask s.evtFault m ∧
    (apply (.clearFault m) s).evtHalt = clearMask s.evtHalt m ∧ (apply (.clearFault m) s).mainReset = s.mainReset
    ∧ (apply (.clearFault m) s).acc = s.acc ∧ (apply (.clearFault m) s).evt = s.evt ∧
    (apply (.clearFault m) s).gw = s.gw ∧ (apply (.clearFault m) s).ham = s.ham ∧
    (apply (.clearFault m) s).lne = s.lne ∧ (apply (.clearFault m) s).plk = s.plk ∧
    (apply (.clearFault m) s).tim = s.tim ∧ (apply (.clearFault m) s).erg = s.erg ∧
    (apply (.clearFault m) s).bch = s.bch ∧ (apply (.clearFault m) s).sei = s.sei ∧
    (apply (.clearFault m) s).cmp = s.cmp ∧ (apply (.clearFault m) s).nzl = s.nzl ∧
    (apply (.clearFault m) s).jrn = s.jrn ∧ (apply (.clearFault m) s).mov = s.mov ∧
    (apply (.clearFault m) s).cap = s.cap ∧ (apply (.clearFault m) s).taps = s.taps ∧
    (apply (.clearFault m) s).store = s.store ∧ (apply (.clearFault m) s).per = s.per ∧
    (apply (.clearFault m) s).cfg = s.cfg ∧ (apply (.clearFault m) s).cco = s.cco := by
  simp only [apply, and_self]

@[simp] theorem apply_act_mainReset (v : Bool) :
    (apply (.mainReset v) s).pending = s.pending ∧ (apply (.mainReset v) s).raw = s.raw ∧
    (apply (.mainReset v) s).regs = s.regs ∧ (apply (.mainReset v) s).mem = s.mem ∧
    (apply (.mainReset v) s).hostMem = s.hostMem ∧ (apply (.mainReset v) s).outs = s.outs ∧
    (apply (.mainReset v) s).fresh = s.fresh ∧ (apply (.mainReset v) s).evtFault = s.evtFault ∧
    (apply (.mainReset v) s).evtHalt = s.evtHalt ∧ (apply (.mainReset v) s).mainReset = v ∧
    (apply (.mainReset v) s).acc = s.acc ∧ (apply (.mainReset v) s).evt = s.evt ∧
    (apply (.mainReset v) s).gw = s.gw ∧ (apply (.mainReset v) s).ham = s.ham ∧
    (apply (.mainReset v) s).lne = s.lne ∧ (apply (.mainReset v) s).plk = s.plk ∧
    (apply (.mainReset v) s).tim = s.tim ∧ (apply (.mainReset v) s).erg = s.erg ∧
    (apply (.mainReset v) s).bch = s.bch ∧ (apply (.mainReset v) s).sei = s.sei ∧
    (apply (.mainReset v) s).cmp = s.cmp ∧ (apply (.mainReset v) s).nzl = s.nzl ∧
    (apply (.mainReset v) s).jrn = s.jrn ∧ (apply (.mainReset v) s).mov = s.mov ∧
    (apply (.mainReset v) s).cap = s.cap ∧ (apply (.mainReset v) s).taps = s.taps ∧
    (apply (.mainReset v) s).store = s.store ∧ (apply (.mainReset v) s).per = s.per ∧
    (apply (.mainReset v) s).cfg = s.cfg ∧ (apply (.mainReset v) s).cco = s.cco := by
  simp only [apply, and_self]

@[simp] theorem apply_act_acc (x : Access) :
    (apply (.acc x) s).pending = s.pending ∧ (apply (.acc x) s).raw = s.raw ∧ (apply (.acc x) s).regs = s.regs ∧
    (apply (.acc x) s).mem = s.mem ∧ (apply (.acc x) s).hostMem = s.hostMem ∧ (apply (.acc x) s).outs = s.outs ∧
    (apply (.acc x) s).fresh = s.fresh ∧ (apply (.acc x) s).evtFault = s.evtFault ∧
    (apply (.acc x) s).evtHalt = s.evtHalt ∧ (apply (.acc x) s).mainReset = s.mainReset ∧
    (apply (.acc x) s).acc = x ∧ (apply (.acc x) s).evt = s.evt ∧ (apply (.acc x) s).gw = s.gw ∧
    (apply (.acc x) s).ham = s.ham ∧ (apply (.acc x) s).lne = s.lne ∧ (apply (.acc x) s).plk = s.plk ∧
    (apply (.acc x) s).tim = s.tim ∧ (apply (.acc x) s).erg = s.erg ∧ (apply (.acc x) s).bch = s.bch ∧
    (apply (.acc x) s).sei = s.sei ∧ (apply (.acc x) s).cmp = s.cmp ∧ (apply (.acc x) s).nzl = s.nzl ∧
    (apply (.acc x) s).jrn = s.jrn ∧ (apply (.acc x) s).mov = s.mov ∧ (apply (.acc x) s).cap = s.cap ∧
    (apply (.acc x) s).taps = s.taps ∧ (apply (.acc x) s).store = s.store ∧ (apply (.acc x) s).per = s.per ∧
    (apply (.acc x) s).cfg = s.cfg ∧ (apply (.acc x) s).cco = s.cco := by
  simp only [apply, and_self]

@[simp] theorem apply_act_evt (x : Evt) :
    (apply (.evt x) s).pending = s.pending ∧ (apply (.evt x) s).raw = s.raw ∧ (apply (.evt x) s).regs = s.regs ∧
    (apply (.evt x) s).mem = s.mem ∧ (apply (.evt x) s).hostMem = s.hostMem ∧ (apply (.evt x) s).outs = s.outs ∧
    (apply (.evt x) s).fresh = s.fresh ∧ (apply (.evt x) s).evtFault = s.evtFault ∧
    (apply (.evt x) s).evtHalt = s.evtHalt ∧ (apply (.evt x) s).mainReset = s.mainReset ∧
    (apply (.evt x) s).acc = s.acc ∧ (apply (.evt x) s).evt = x ∧ (apply (.evt x) s).gw = s.gw ∧
    (apply (.evt x) s).ham = s.ham ∧ (apply (.evt x) s).lne = s.lne ∧ (apply (.evt x) s).plk = s.plk ∧
    (apply (.evt x) s).tim = s.tim ∧ (apply (.evt x) s).erg = s.erg ∧ (apply (.evt x) s).bch = s.bch ∧
    (apply (.evt x) s).sei = s.sei ∧ (apply (.evt x) s).cmp = s.cmp ∧ (apply (.evt x) s).nzl = s.nzl ∧
    (apply (.evt x) s).jrn = s.jrn ∧ (apply (.evt x) s).mov = s.mov ∧ (apply (.evt x) s).cap = s.cap ∧
    (apply (.evt x) s).taps = s.taps ∧ (apply (.evt x) s).store = s.store ∧ (apply (.evt x) s).per = s.per ∧
    (apply (.evt x) s).cfg = s.cfg ∧ (apply (.evt x) s).cco = s.cco := by
  simp only [apply, and_self]

@[simp] theorem apply_act_gw (x : Gw) :
    (apply (.gw x) s).pending = s.pending ∧ (apply (.gw x) s).raw = s.raw ∧ (apply (.gw x) s).regs = s.regs ∧
    (apply (.gw x) s).mem = s.mem ∧ (apply (.gw x) s).hostMem = s.hostMem ∧ (apply (.gw x) s).outs = s.outs ∧
    (apply (.gw x) s).fresh = s.fresh ∧ (apply (.gw x) s).evtFault = s.evtFault ∧
    (apply (.gw x) s).evtHalt = s.evtHalt ∧ (apply (.gw x) s).mainReset = s.mainReset ∧
    (apply (.gw x) s).acc = s.acc ∧ (apply (.gw x) s).evt = s.evt ∧ (apply (.gw x) s).gw = x ∧
    (apply (.gw x) s).ham = s.ham ∧ (apply (.gw x) s).lne = s.lne ∧ (apply (.gw x) s).plk = s.plk ∧
    (apply (.gw x) s).tim = s.tim ∧ (apply (.gw x) s).erg = s.erg ∧ (apply (.gw x) s).bch = s.bch ∧
    (apply (.gw x) s).sei = s.sei ∧ (apply (.gw x) s).cmp = s.cmp ∧ (apply (.gw x) s).nzl = s.nzl ∧
    (apply (.gw x) s).jrn = s.jrn ∧ (apply (.gw x) s).mov = s.mov ∧ (apply (.gw x) s).cap = s.cap ∧
    (apply (.gw x) s).taps = s.taps ∧ (apply (.gw x) s).store = s.store ∧ (apply (.gw x) s).per = s.per ∧
    (apply (.gw x) s).cfg = s.cfg ∧ (apply (.gw x) s).cco = s.cco := by
  simp only [apply, and_self]

@[simp] theorem apply_act_ham (x : Ham) :
    (apply (.ham x) s).pending = s.pending ∧ (apply (.ham x) s).raw = s.raw ∧ (apply (.ham x) s).regs = s.regs ∧
    (apply (.ham x) s).mem = s.mem ∧ (apply (.ham x) s).hostMem = s.hostMem ∧ (apply (.ham x) s).outs = s.outs ∧
    (apply (.ham x) s).fresh = s.fresh ∧ (apply (.ham x) s).evtFault = s.evtFault ∧
    (apply (.ham x) s).evtHalt = s.evtHalt ∧ (apply (.ham x) s).mainReset = s.mainReset ∧
    (apply (.ham x) s).acc = s.acc ∧ (apply (.ham x) s).evt = s.evt ∧ (apply (.ham x) s).gw = s.gw ∧
    (apply (.ham x) s).ham = x ∧ (apply (.ham x) s).lne = s.lne ∧ (apply (.ham x) s).plk = s.plk ∧
    (apply (.ham x) s).tim = s.tim ∧ (apply (.ham x) s).erg = s.erg ∧ (apply (.ham x) s).bch = s.bch ∧
    (apply (.ham x) s).sei = s.sei ∧ (apply (.ham x) s).cmp = s.cmp ∧ (apply (.ham x) s).nzl = s.nzl ∧
    (apply (.ham x) s).jrn = s.jrn ∧ (apply (.ham x) s).mov = s.mov ∧ (apply (.ham x) s).cap = s.cap ∧
    (apply (.ham x) s).taps = s.taps ∧ (apply (.ham x) s).store = s.store ∧ (apply (.ham x) s).per = s.per ∧
    (apply (.ham x) s).cfg = s.cfg ∧ (apply (.ham x) s).cco = s.cco := by
  simp only [apply, and_self]

@[simp] theorem apply_act_lne (x : Lne) :
    (apply (.lne x) s).pending = s.pending ∧ (apply (.lne x) s).raw = s.raw ∧ (apply (.lne x) s).regs = s.regs ∧
    (apply (.lne x) s).mem = s.mem ∧ (apply (.lne x) s).hostMem = s.hostMem ∧ (apply (.lne x) s).outs = s.outs ∧
    (apply (.lne x) s).fresh = s.fresh ∧ (apply (.lne x) s).evtFault = s.evtFault ∧
    (apply (.lne x) s).evtHalt = s.evtHalt ∧ (apply (.lne x) s).mainReset = s.mainReset ∧
    (apply (.lne x) s).acc = s.acc ∧ (apply (.lne x) s).evt = s.evt ∧ (apply (.lne x) s).gw = s.gw ∧
    (apply (.lne x) s).ham = s.ham ∧ (apply (.lne x) s).lne = x ∧ (apply (.lne x) s).plk = s.plk ∧
    (apply (.lne x) s).tim = s.tim ∧ (apply (.lne x) s).erg = s.erg ∧ (apply (.lne x) s).bch = s.bch ∧
    (apply (.lne x) s).sei = s.sei ∧ (apply (.lne x) s).cmp = s.cmp ∧ (apply (.lne x) s).nzl = s.nzl ∧
    (apply (.lne x) s).jrn = s.jrn ∧ (apply (.lne x) s).mov = s.mov ∧ (apply (.lne x) s).cap = s.cap ∧
    (apply (.lne x) s).taps = s.taps ∧ (apply (.lne x) s).store = s.store ∧ (apply (.lne x) s).per = s.per ∧
    (apply (.lne x) s).cfg = s.cfg ∧ (apply (.lne x) s).cco = s.cco := by
  simp only [apply, and_self]

@[simp] theorem apply_act_plk (x : Plk) :
    (apply (.plk x) s).pending = s.pending ∧ (apply (.plk x) s).raw = s.raw ∧ (apply (.plk x) s).regs = s.regs ∧
    (apply (.plk x) s).mem = s.mem ∧ (apply (.plk x) s).hostMem = s.hostMem ∧ (apply (.plk x) s).outs = s.outs ∧
    (apply (.plk x) s).fresh = s.fresh ∧ (apply (.plk x) s).evtFault = s.evtFault ∧
    (apply (.plk x) s).evtHalt = s.evtHalt ∧ (apply (.plk x) s).mainReset = s.mainReset ∧
    (apply (.plk x) s).acc = s.acc ∧ (apply (.plk x) s).evt = s.evt ∧ (apply (.plk x) s).gw = s.gw ∧
    (apply (.plk x) s).ham = s.ham ∧ (apply (.plk x) s).lne = s.lne ∧ (apply (.plk x) s).plk = x ∧
    (apply (.plk x) s).tim = s.tim ∧ (apply (.plk x) s).erg = s.erg ∧ (apply (.plk x) s).bch = s.bch ∧
    (apply (.plk x) s).sei = s.sei ∧ (apply (.plk x) s).cmp = s.cmp ∧ (apply (.plk x) s).nzl = s.nzl ∧
    (apply (.plk x) s).jrn = s.jrn ∧ (apply (.plk x) s).mov = s.mov ∧ (apply (.plk x) s).cap = s.cap ∧
    (apply (.plk x) s).taps = s.taps ∧ (apply (.plk x) s).store = s.store ∧ (apply (.plk x) s).per = s.per ∧
    (apply (.plk x) s).cfg = s.cfg ∧ (apply (.plk x) s).cco = s.cco := by
  simp only [apply, and_self]

@[simp] theorem apply_act_tim (x : Tim) :
    (apply (.tim x) s).pending = s.pending ∧ (apply (.tim x) s).raw = s.raw ∧ (apply (.tim x) s).regs = s.regs ∧
    (apply (.tim x) s).mem = s.mem ∧ (apply (.tim x) s).hostMem = s.hostMem ∧ (apply (.tim x) s).outs = s.outs ∧
    (apply (.tim x) s).fresh = s.fresh ∧ (apply (.tim x) s).evtFault = s.evtFault ∧
    (apply (.tim x) s).evtHalt = s.evtHalt ∧ (apply (.tim x) s).mainReset = s.mainReset ∧
    (apply (.tim x) s).acc = s.acc ∧ (apply (.tim x) s).evt = s.evt ∧ (apply (.tim x) s).gw = s.gw ∧
    (apply (.tim x) s).ham = s.ham ∧ (apply (.tim x) s).lne = s.lne ∧ (apply (.tim x) s).plk = s.plk ∧
    (apply (.tim x) s).tim = x ∧ (apply (.tim x) s).erg = s.erg ∧ (apply (.tim x) s).bch = s.bch ∧
    (apply (.tim x) s).sei = s.sei ∧ (apply (.tim x) s).cmp = s.cmp ∧ (apply (.tim x) s).nzl = s.nzl ∧
    (apply (.tim x) s).jrn = s.jrn ∧ (apply (.tim x) s).mov = s.mov ∧ (apply (.tim x) s).cap = s.cap ∧
    (apply (.tim x) s).taps = s.taps ∧ (apply (.tim x) s).store = s.store ∧ (apply (.tim x) s).per = s.per ∧
    (apply (.tim x) s).cfg = s.cfg ∧ (apply (.tim x) s).cco = s.cco := by
  simp only [apply, and_self]

@[simp] theorem apply_act_erg (x : Erg) :
    (apply (.erg x) s).pending = s.pending ∧ (apply (.erg x) s).raw = s.raw ∧ (apply (.erg x) s).regs = s.regs ∧
    (apply (.erg x) s).mem = s.mem ∧ (apply (.erg x) s).hostMem = s.hostMem ∧ (apply (.erg x) s).outs = s.outs ∧
    (apply (.erg x) s).fresh = s.fresh ∧ (apply (.erg x) s).evtFault = s.evtFault ∧
    (apply (.erg x) s).evtHalt = s.evtHalt ∧ (apply (.erg x) s).mainReset = s.mainReset ∧
    (apply (.erg x) s).acc = s.acc ∧ (apply (.erg x) s).evt = s.evt ∧ (apply (.erg x) s).gw = s.gw ∧
    (apply (.erg x) s).ham = s.ham ∧ (apply (.erg x) s).lne = s.lne ∧ (apply (.erg x) s).plk = s.plk ∧
    (apply (.erg x) s).tim = s.tim ∧ (apply (.erg x) s).erg = x ∧ (apply (.erg x) s).bch = s.bch ∧
    (apply (.erg x) s).sei = s.sei ∧ (apply (.erg x) s).cmp = s.cmp ∧ (apply (.erg x) s).nzl = s.nzl ∧
    (apply (.erg x) s).jrn = s.jrn ∧ (apply (.erg x) s).mov = s.mov ∧ (apply (.erg x) s).cap = s.cap ∧
    (apply (.erg x) s).taps = s.taps ∧ (apply (.erg x) s).store = s.store ∧ (apply (.erg x) s).per = s.per ∧
    (apply (.erg x) s).cfg = s.cfg ∧ (apply (.erg x) s).cco = s.cco := by
  simp only [apply, and_self]

@[simp] theorem apply_act_bch (x : Bch) :
    (apply (.bch x) s).pending = s.pending ∧ (apply (.bch x) s).raw = s.raw ∧ (apply (.bch x) s).regs = s.regs ∧
    (apply (.bch x) s).mem = s.mem ∧ (apply (.bch x) s).hostMem = s.hostMem ∧ (apply (.bch x) s).outs = s.outs ∧
    (apply (.bch x) s).fresh = s.fresh ∧ (apply (.bch x) s).evtFault = s.evtFault ∧
    (apply (.bch x) s).evtHalt = s.evtHalt ∧ (apply (.bch x) s).mainReset = s.mainReset ∧
    (apply (.bch x) s).acc = s.acc ∧ (apply (.bch x) s).evt = s.evt ∧ (apply (.bch x) s).gw = s.gw ∧
    (apply (.bch x) s).ham = s.ham ∧ (apply (.bch x) s).lne = s.lne ∧ (apply (.bch x) s).plk = s.plk ∧
    (apply (.bch x) s).tim = s.tim ∧ (apply (.bch x) s).erg = s.erg ∧ (apply (.bch x) s).bch = x ∧
    (apply (.bch x) s).sei = s.sei ∧ (apply (.bch x) s).cmp = s.cmp ∧ (apply (.bch x) s).nzl = s.nzl ∧
    (apply (.bch x) s).jrn = s.jrn ∧ (apply (.bch x) s).mov = s.mov ∧ (apply (.bch x) s).cap = s.cap ∧
    (apply (.bch x) s).taps = s.taps ∧ (apply (.bch x) s).store = s.store ∧ (apply (.bch x) s).per = s.per ∧
    (apply (.bch x) s).cfg = s.cfg ∧ (apply (.bch x) s).cco = s.cco := by
  simp only [apply, and_self]

@[simp] theorem apply_act_sei (x : Sei) :
    (apply (.sei x) s).pending = s.pending ∧ (apply (.sei x) s).raw = s.raw ∧ (apply (.sei x) s).regs = s.regs ∧
    (apply (.sei x) s).mem = s.mem ∧ (apply (.sei x) s).hostMem = s.hostMem ∧ (apply (.sei x) s).outs = s.outs ∧
    (apply (.sei x) s).fresh = s.fresh ∧ (apply (.sei x) s).evtFault = s.evtFault ∧
    (apply (.sei x) s).evtHalt = s.evtHalt ∧ (apply (.sei x) s).mainReset = s.mainReset ∧
    (apply (.sei x) s).acc = s.acc ∧ (apply (.sei x) s).evt = s.evt ∧ (apply (.sei x) s).gw = s.gw ∧
    (apply (.sei x) s).ham = s.ham ∧ (apply (.sei x) s).lne = s.lne ∧ (apply (.sei x) s).plk = s.plk ∧
    (apply (.sei x) s).tim = s.tim ∧ (apply (.sei x) s).erg = s.erg ∧ (apply (.sei x) s).bch = s.bch ∧
    (apply (.sei x) s).sei = x ∧ (apply (.sei x) s).cmp = s.cmp ∧ (apply (.sei x) s).nzl = s.nzl ∧
    (apply (.sei x) s).jrn = s.jrn ∧ (apply (.sei x) s).mov = s.mov ∧ (apply (.sei x) s).cap = s.cap ∧
    (apply (.sei x) s).taps = s.taps ∧ (apply (.sei x) s).store = s.store ∧ (apply (.sei x) s).per = s.per ∧
    (apply (.sei x) s).cfg = s.cfg ∧ (apply (.sei x) s).cco = s.cco := by
  simp only [apply, and_self]

@[simp] theorem apply_act_cmp (x : Cmp) :
    (apply (.cmp x) s).pending = s.pending ∧ (apply (.cmp x) s).raw = s.raw ∧ (apply (.cmp x) s).regs = s.regs ∧
    (apply (.cmp x) s).mem = s.mem ∧ (apply (.cmp x) s).hostMem = s.hostMem ∧ (apply (.cmp x) s).outs = s.outs ∧
    (apply (.cmp x) s).fresh = s.fresh ∧ (apply (.cmp x) s).evtFault = s.evtFault ∧
    (apply (.cmp x) s).evtHalt = s.evtHalt ∧ (apply (.cmp x) s).mainReset = s.mainReset ∧
    (apply (.cmp x) s).acc = s.acc ∧ (apply (.cmp x) s).evt = s.evt ∧ (apply (.cmp x) s).gw = s.gw ∧
    (apply (.cmp x) s).ham = s.ham ∧ (apply (.cmp x) s).lne = s.lne ∧ (apply (.cmp x) s).plk = s.plk ∧
    (apply (.cmp x) s).tim = s.tim ∧ (apply (.cmp x) s).erg = s.erg ∧ (apply (.cmp x) s).bch = s.bch ∧
    (apply (.cmp x) s).sei = s.sei ∧ (apply (.cmp x) s).cmp = x ∧ (apply (.cmp x) s).nzl = s.nzl ∧
    (apply (.cmp x) s).jrn = s.jrn ∧ (apply (.cmp x) s).mov = s.mov ∧ (apply (.cmp x) s).cap = s.cap ∧
    (apply (.cmp x) s).taps = s.taps ∧ (apply (.cmp x) s).store = s.store ∧ (apply (.cmp x) s).per = s.per ∧
    (apply (.cmp x) s).cfg = s.cfg ∧ (apply (.cmp x) s).cco = s.cco := by
  simp only [apply, and_self]

@[simp] theorem apply_act_nzl (x : Nzl) :
    (apply (.nzl x) s).pending = s.pending ∧ (apply (.nzl x) s).raw = s.raw ∧ (apply (.nzl x) s).regs = s.regs ∧
    (apply (.nzl x) s).mem = s.mem ∧ (apply (.nzl x) s).hostMem = s.hostMem ∧ (apply (.nzl x) s).outs = s.outs ∧
    (apply (.nzl x) s).fresh = s.fresh ∧ (apply (.nzl x) s).evtFault = s.evtFault ∧
    (apply (.nzl x) s).evtHalt = s.evtHalt ∧ (apply (.nzl x) s).mainReset = s.mainReset ∧
    (apply (.nzl x) s).acc = s.acc ∧ (apply (.nzl x) s).evt = s.evt ∧ (apply (.nzl x) s).gw = s.gw ∧
    (apply (.nzl x) s).ham = s.ham ∧ (apply (.nzl x) s).lne = s.lne ∧ (apply (.nzl x) s).plk = s.plk ∧
    (apply (.nzl x) s).tim = s.tim ∧ (apply (.nzl x) s).erg = s.erg ∧ (apply (.nzl x) s).bch = s.bch ∧
    (apply (.nzl x) s).sei = s.sei ∧ (apply (.nzl x) s).cmp = s.cmp ∧ (apply (.nzl x) s).nzl = x ∧
    (apply (.nzl x) s).jrn = s.jrn ∧ (apply (.nzl x) s).mov = s.mov ∧ (apply (.nzl x) s).cap = s.cap ∧
    (apply (.nzl x) s).taps = s.taps ∧ (apply (.nzl x) s).store = s.store ∧ (apply (.nzl x) s).per = s.per ∧
    (apply (.nzl x) s).cfg = s.cfg ∧ (apply (.nzl x) s).cco = s.cco := by
  simp only [apply, and_self]

@[simp] theorem apply_act_jrn (x : Jrn) :
    (apply (.jrn x) s).pending = s.pending ∧ (apply (.jrn x) s).raw = s.raw ∧ (apply (.jrn x) s).regs = s.regs ∧
    (apply (.jrn x) s).mem = s.mem ∧ (apply (.jrn x) s).hostMem = s.hostMem ∧ (apply (.jrn x) s).outs = s.outs ∧
    (apply (.jrn x) s).fresh = s.fresh ∧ (apply (.jrn x) s).evtFault = s.evtFault ∧
    (apply (.jrn x) s).evtHalt = s.evtHalt ∧ (apply (.jrn x) s).mainReset = s.mainReset ∧
    (apply (.jrn x) s).acc = s.acc ∧ (apply (.jrn x) s).evt = s.evt ∧ (apply (.jrn x) s).gw = s.gw ∧
    (apply (.jrn x) s).ham = s.ham ∧ (apply (.jrn x) s).lne = s.lne ∧ (apply (.jrn x) s).plk = s.plk ∧
    (apply (.jrn x) s).tim = s.tim ∧ (apply (.jrn x) s).erg = s.erg ∧ (apply (.jrn x) s).bch = s.bch ∧
    (apply (.jrn x) s).sei = s.sei ∧ (apply (.jrn x) s).cmp = s.cmp ∧ (apply (.jrn x) s).nzl = s.nzl ∧
    (apply (.jrn x) s).jrn = x ∧ (apply (.jrn x) s).mov = s.mov ∧ (apply (.jrn x) s).cap = s.cap ∧
    (apply (.jrn x) s).taps = s.taps ∧ (apply (.jrn x) s).store = s.store ∧ (apply (.jrn x) s).per = s.per ∧
    (apply (.jrn x) s).cfg = s.cfg ∧ (apply (.jrn x) s).cco = s.cco := by
  simp only [apply, and_self]

@[simp] theorem apply_act_mov (x : Mov) :
    (apply (.mov x) s).pending = s.pending ∧ (apply (.mov x) s).raw = s.raw ∧ (apply (.mov x) s).regs = s.regs ∧
    (apply (.mov x) s).mem = s.mem ∧ (apply (.mov x) s).hostMem = s.hostMem ∧ (apply (.mov x) s).outs = s.outs ∧
    (apply (.mov x) s).fresh = s.fresh ∧ (apply (.mov x) s).evtFault = s.evtFault ∧
    (apply (.mov x) s).evtHalt = s.evtHalt ∧ (apply (.mov x) s).mainReset = s.mainReset ∧
    (apply (.mov x) s).acc = s.acc ∧ (apply (.mov x) s).evt = s.evt ∧ (apply (.mov x) s).gw = s.gw ∧
    (apply (.mov x) s).ham = s.ham ∧ (apply (.mov x) s).lne = s.lne ∧ (apply (.mov x) s).plk = s.plk ∧
    (apply (.mov x) s).tim = s.tim ∧ (apply (.mov x) s).erg = s.erg ∧ (apply (.mov x) s).bch = s.bch ∧
    (apply (.mov x) s).sei = s.sei ∧ (apply (.mov x) s).cmp = s.cmp ∧ (apply (.mov x) s).nzl = s.nzl ∧
    (apply (.mov x) s).jrn = s.jrn ∧ (apply (.mov x) s).mov = x ∧ (apply (.mov x) s).cap = s.cap ∧
    (apply (.mov x) s).taps = s.taps ∧ (apply (.mov x) s).store = s.store ∧ (apply (.mov x) s).per = s.per ∧
    (apply (.mov x) s).cfg = s.cfg ∧ (apply (.mov x) s).cco = s.cco := by
  simp only [apply, and_self]

@[simp] theorem apply_act_cap (x : Cap) :
    (apply (.cap x) s).pending = s.pending ∧ (apply (.cap x) s).raw = s.raw ∧ (apply (.cap x) s).regs = s.regs ∧
    (apply (.cap x) s).mem = s.mem ∧ (apply (.cap x) s).hostMem = s.hostMem ∧ (apply (.cap x) s).outs = s.outs ∧
    (apply (.cap x) s).fresh = s.fresh ∧ (apply (.cap x) s).evtFault = s.evtFault ∧
    (apply (.cap x) s).evtHalt = s.evtHalt ∧ (apply (.cap x) s).mainReset = s.mainReset ∧
    (apply (.cap x) s).acc = s.acc ∧ (apply (.cap x) s).evt = s.evt ∧ (apply (.cap x) s).gw = s.gw ∧
    (apply (.cap x) s).ham = s.ham ∧ (apply (.cap x) s).lne = s.lne ∧ (apply (.cap x) s).plk = s.plk ∧
    (apply (.cap x) s).tim = s.tim ∧ (apply (.cap x) s).erg = s.erg ∧ (apply (.cap x) s).bch = s.bch ∧
    (apply (.cap x) s).sei = s.sei ∧ (apply (.cap x) s).cmp = s.cmp ∧ (apply (.cap x) s).nzl = s.nzl ∧
    (apply (.cap x) s).jrn = s.jrn ∧ (apply (.cap x) s).mov = s.mov ∧ (apply (.cap x) s).cap = x ∧
    (apply (.cap x) s).taps = s.taps ∧ (apply (.cap x) s).store = s.store ∧ (apply (.cap x) s).per = s.per ∧
    (apply (.cap x) s).cfg = s.cfg ∧ (apply (.cap x) s).cco = s.cco := by
  simp only [apply, and_self]

@[simp] theorem apply_act_taps (x : OutBlk) :
    (apply (.taps x) s).pending = s.pending ∧ (apply (.taps x) s).raw = s.raw ∧ (apply (.taps x) s).regs = s.regs
    ∧ (apply (.taps x) s).mem = s.mem ∧ (apply (.taps x) s).hostMem = s.hostMem ∧
    (apply (.taps x) s).outs = s.outs ∧ (apply (.taps x) s).fresh = s.fresh ∧
    (apply (.taps x) s).evtFault = s.evtFault ∧ (apply (.taps x) s).evtHalt = s.evtHalt ∧
    (apply (.taps x) s).mainReset = s.mainReset ∧ (apply (.taps x) s).acc = s.acc ∧
    (apply (.taps x) s).evt = s.evt ∧ (apply (.taps x) s).gw = s.gw ∧ (apply (.taps x) s).ham = s.ham ∧
    (apply (.taps x) s).lne = s.lne ∧ (apply (.taps x) s).plk = s.plk ∧ (apply (.taps x) s).tim = s.tim ∧
    (apply (.taps x) s).erg = s.erg ∧ (apply (.taps x) s).bch = s.bch ∧ (apply (.taps x) s).sei = s.sei ∧
    (apply (.taps x) s).cmp = s.cmp ∧ (apply (.taps x) s).nzl = s.nzl ∧ (apply (.taps x) s).jrn = s.jrn ∧
    (apply (.taps x) s).mov = s.mov ∧ (apply (.taps x) s).cap = s.cap ∧ (apply (.taps x) s).taps = x ∧
    (apply (.taps x) s).store = s.store ∧ (apply (.taps x) s).per = s.per ∧ (apply (.taps x) s).cfg = s.cfg ∧
    (apply (.taps x) s).cco = s.cco := by
  simp only [apply, and_self]

@[simp] theorem apply_act_store (x : Mem) :
    (apply (.store x) s).pending = s.pending ∧ (apply (.store x) s).raw = s.raw ∧
    (apply (.store x) s).regs = s.regs ∧ (apply (.store x) s).mem = s.mem ∧
    (apply (.store x) s).hostMem = s.hostMem ∧ (apply (.store x) s).outs = s.outs ∧
    (apply (.store x) s).fresh = s.fresh ∧ (apply (.store x) s).evtFault = s.evtFault ∧
    (apply (.store x) s).evtHalt = s.evtHalt ∧ (apply (.store x) s).mainReset = s.mainReset ∧
    (apply (.store x) s).acc = s.acc ∧ (apply (.store x) s).evt = s.evt ∧ (apply (.store x) s).gw = s.gw ∧
    (apply (.store x) s).ham = s.ham ∧ (apply (.store x) s).lne = s.lne ∧ (apply (.store x) s).plk = s.plk ∧
    (apply (.store x) s).tim = s.tim ∧ (apply (.store x) s).erg = s.erg ∧ (apply (.store x) s).bch = s.bch ∧
    (apply (.store x) s).sei = s.sei ∧ (apply (.store x) s).cmp = s.cmp ∧ (apply (.store x) s).nzl = s.nzl ∧
    (apply (.store x) s).jrn = s.jrn ∧ (apply (.store x) s).mov = s.mov ∧ (apply (.store x) s).cap = s.cap ∧
    (apply (.store x) s).taps = s.taps ∧ (apply (.store x) s).store = x ∧ (apply (.store x) s).per = s.per ∧
    (apply (.store x) s).cfg = s.cfg ∧ (apply (.store x) s).cco = s.cco := by
  simp only [apply, and_self]

@[simp] theorem apply_act_per (x : Per) :
    (apply (.per x) s).pending = s.pending ∧ (apply (.per x) s).raw = s.raw ∧ (apply (.per x) s).regs = s.regs ∧
    (apply (.per x) s).mem = s.mem ∧ (apply (.per x) s).hostMem = s.hostMem ∧ (apply (.per x) s).outs = s.outs ∧
    (apply (.per x) s).fresh = s.fresh ∧ (apply (.per x) s).evtFault = s.evtFault ∧
    (apply (.per x) s).evtHalt = s.evtHalt ∧ (apply (.per x) s).mainReset = s.mainReset ∧
    (apply (.per x) s).acc = s.acc ∧ (apply (.per x) s).evt = s.evt ∧ (apply (.per x) s).gw = s.gw ∧
    (apply (.per x) s).ham = s.ham ∧ (apply (.per x) s).lne = s.lne ∧ (apply (.per x) s).plk = s.plk ∧
    (apply (.per x) s).tim = s.tim ∧ (apply (.per x) s).erg = s.erg ∧ (apply (.per x) s).bch = s.bch ∧
    (apply (.per x) s).sei = s.sei ∧ (apply (.per x) s).cmp = s.cmp ∧ (apply (.per x) s).nzl = s.nzl ∧
    (apply (.per x) s).jrn = s.jrn ∧ (apply (.per x) s).mov = s.mov ∧ (apply (.per x) s).cap = s.cap ∧
    (apply (.per x) s).taps = s.taps ∧ (apply (.per x) s).store = s.store ∧ (apply (.per x) s).per = x ∧
    (apply (.per x) s).cfg = s.cfg ∧ (apply (.per x) s).cco = s.cco := by
  simp only [apply, and_self]

@[simp] theorem apply_act_cfg (x : Cfg) :
    (apply (.cfg x) s).pending = s.pending ∧ (apply (.cfg x) s).raw = s.raw ∧ (apply (.cfg x) s).regs = s.regs ∧
    (apply (.cfg x) s).mem = s.mem ∧ (apply (.cfg x) s).hostMem = s.hostMem ∧ (apply (.cfg x) s).outs = s.outs ∧
    (apply (.cfg x) s).fresh = s.fresh ∧ (apply (.cfg x) s).evtFault = s.evtFault ∧
    (apply (.cfg x) s).evtHalt = s.evtHalt ∧ (apply (.cfg x) s).mainReset = s.mainReset ∧
    (apply (.cfg x) s).acc = s.acc ∧ (apply (.cfg x) s).evt = s.evt ∧ (apply (.cfg x) s).gw = s.gw ∧
    (apply (.cfg x) s).ham = s.ham ∧ (apply (.cfg x) s).lne = s.lne ∧ (apply (.cfg x) s).plk = s.plk ∧
    (apply (.cfg x) s).tim = s.tim ∧ (apply (.cfg x) s).erg = s.erg ∧ (apply (.cfg x) s).bch = s.bch ∧
    (apply (.cfg x) s).sei = s.sei ∧ (apply (.cfg x) s).cmp = s.cmp ∧ (apply (.cfg x) s).nzl = s.nzl ∧
    (apply (.cfg x) s).jrn = s.jrn ∧ (apply (.cfg x) s).mov = s.mov ∧ (apply (.cfg x) s).cap = s.cap ∧
    (apply (.cfg x) s).taps = s.taps ∧ (apply (.cfg x) s).store = s.store ∧ (apply (.cfg x) s).per = s.per ∧
    (apply (.cfg x) s).cfg = x ∧ (apply (.cfg x) s).cco = s.cco := by
  simp only [apply, and_self]

@[simp] theorem apply_act_cco (x : Cco) :
    (apply (.cco x) s).pending = s.pending ∧ (apply (.cco x) s).raw = s.raw ∧ (apply (.cco x) s).regs = s.regs ∧
    (apply (.cco x) s).mem = s.mem ∧ (apply (.cco x) s).hostMem = s.hostMem ∧ (apply (.cco x) s).outs = s.outs ∧
    (apply (.cco x) s).fresh = s.fresh ∧ (apply (.cco x) s).evtFault = s.evtFault ∧
    (apply (.cco x) s).evtHalt = s.evtHalt ∧ (apply (.cco x) s).mainReset = s.mainReset ∧
    (apply (.cco x) s).acc = s.acc ∧ (apply (.cco x) s).evt = s.evt ∧ (apply (.cco x) s).gw = s.gw ∧
    (apply (.cco x) s).ham = s.ham ∧ (apply (.cco x) s).lne = s.lne ∧ (apply (.cco x) s).plk = s.plk ∧
    (apply (.cco x) s).tim = s.tim ∧ (apply (.cco x) s).erg = s.erg ∧ (apply (.cco x) s).bch = s.bch ∧
    (apply (.cco x) s).sei = s.sei ∧ (apply (.cco x) s).cmp = s.cmp ∧ (apply (.cco x) s).nzl = s.nzl ∧
    (apply (.cco x) s).jrn = s.jrn ∧ (apply (.cco x) s).mov = s.mov ∧ (apply (.cco x) s).cap = s.cap ∧
    (apply (.cco x) s).taps = s.taps ∧ (apply (.cco x) s).store = s.store ∧ (apply (.cco x) s).per = s.per ∧
    (apply (.cco x) s).cfg = s.cfg ∧ (apply (.cco x) s).cco = x := by
  simp only [apply, and_self]

end Sys2Proof.Machine
end

