-- ==== Sys2Proof/WellFormed.lean ====
section
/-! DEFINITION. Well-formed commands: the relations between a command's operands that the spec's formats give. Every
command has a meaning, well-formed or not; a run of the device holds only well-formed ones. -/
namespace Sys2Proof

/-- A register lies at a multiple of four bytes (R5). -/
def alignedOff {n : Nat} (off : BitVec n) : Bool := off.toNat % 4 == 0

/-- A frame's payload has the length its LEN field gives (R79). -/
def RxFrame.wf (f : RxFrame) : Bool := f.payload.length == f.len.toNat

/-- An error of an ECC word is reported at the word's first byte: 32 bytes in DRAM, 8 elsewhere (R310). -/
def EccFind.wf (e : EccFind) : Bool := e.addr.toNat % (if 0x1000000000 ≤ e.addr.toNat then 32 else 8) == 0

/-- A memory operation moves at least a byte and at most 4,096 (R338). -/
def MemOp.wf : MemOp → Bool
  | .read dws => decide (1 ≤ dws.toNat ∧ dws.toNat ≤ 1024)
  | .write bs => decide (1 ≤ bs.length ∧ bs.length ≤ 4096)

/-- A host request with a byte enable clear, or of another length than one DW (R339). -/
def Size.wf : Size → Bool
  | .whole => true
  | .part be dws => !(be == 0x0F#8 && dws == 1#10)

/-- A measurement of a group gives each of its lanes an insertion loss and a margin: 1, 2 or 4 lanes (R68, R69). -/
def laneLists {α β : Type} (il : List α) (margin : List β) : Bool :=
  il.length == margin.length && [1, 2, 4].contains il.length

/-- Bytes of a transfer of a two-wire bus: at most 64 (R464). -/
def XferEnd.wf : XferEnd → Bool
  | .ok bytes => decide (bytes.length ≤ 64)
  | _ => true

/-- A command's operands fit together. -/
def Instr.wellFormed : Instr → Bool
  | .registerWrite _ off size _ => alignedOff off && size.wf
  | .lockSet _ off _ => alignedOff off
  | .latchedRead _ off size => alignedOff off && size.wf
  | .wideWriteApply _ off _ => alignedOff off
  | .levelWrite _ off _ => alignedOff off
  | .levelBoundary unit => alignedOff unit
  | .unmappedAccess _ _ off _ => alignedOff off
  | .measureDone _ il margin => laneLists il margin
  | .aliveReceive f => f.wf
  | .creditReceive f => f.wf
  | .helloReceive f => f.wf
  | .descReceive f => f.wf
  | .byeReceive f => f.wf
  | .lineSegReceive f _ => f.wf
  | .frameEndReceive f => f.wf
  | .syncReceive f => f.wf
  | .delayReqReceive f => f.wf
  | .delayRespReceive f => f.wf
  | .eventReceive f => f.wf
  | .corrAckReceive f => f.wf
  | .regRdRespReceive f => f.wf
  | .regWrRespReceive f => f.wf
  | .unexpectedFrame _ f => f.wf
  | .apertureAccess _ op ecc => op.wf && ecc.all EccFind.wf
  | .scrubStep ecc => ecc.all EccFind.wf
  | .coreInstruction _ ecc => ecc.all EccFind.wf
  | .twbXferDone _ how => how.wf
  | _ => true

end Sys2Proof
end

