-- ==== Sys2Proof/Tests/Slice0.lean ====
section
/-! SUPPORT. Tests of the model's own: ill-formed commands that the check refuses, single steps with values from the spec or
from the standards it names, and for every statement with hypotheses a state and operands that meet them. -/
namespace Sys2Proof.Tests
open Sys2Proof Sys2Proof.Machine
set_option Elab.async false

/-! ## States for the tests -/

/-- The state a command leads to. -/
def after (i : Instr) (s : State) : State :=
  match exec i s with
  | .next t => t
  | _ => s

/-- A device out of reset in RUN, with a host link up. -/
def live : State := { mainReset := false, gw := { up := true, mse := true } }

/-- The same with register words. -/
def on (l : List (Nat × Word)) (s : State) : State := { s with regs := l }

/-- A live device with one lane in a state of its own. -/
def laneS (n : Nat) (x : Lane) : State := { live with lne := { lanes := [(n, x)] } }

/-- A live device whose lane 7 is READY, with partner 5 on it, and register words below and above PT_CTRL's. -/
def mate (x : Partner) (l m : List (Nat × Word)) : State :=
  { live with regs := l ++ (Reg.PT_CTRL 5, 0x80000007#32) :: m, lne := { lanes := [(7, { st := .ready })] }, plk := { partners := [(5, x)] } }

/-- A well-framed frame on lane 7. -/
def rx (cls : Fin 4) (src : BitVec 12) (typ : Nat) (pl : List Byte) : RxFrame :=
  let f : RxFrame := ⟨7, cls, 0, src, 0, BitVec.ofNat 16 pl.length, 1, 2, 3, 4, pl, ceilDiv (pl.length - 15) 32, 0, false, false, false⟩
  { f with fcs := word (crc32c (rxBytes f typ)) }

/-- `n` zero bytes. -/
def zeros (n : Nat) : List Byte := List.replicate n 0#8

/-- An ACTIVE partner with credits, and the register words of the device's grants to it. -/
def buddy : Partner := { st := .active, grants := [8, 8, 8, 8] }
def grants : List (Nat × Word) := [(Reg.PT_GRANT01 5, 0x80008#32), (Reg.PT_GRANT23 5, 0x80008#32)]

/-- Stage instances of one owner. -/
def stages (owner id : Nat) (kinds : List Nat) : List (Nat × Inst) :=
  kinds.map fun k => (k, { kind := k, owner := owner, id := id, first := k, rate := 0 })

/-- Pipeline 3 of camera partner 5, with its stages on one line of two bytes. -/
def line1 (stage : Nat) : CapLine := { tag := {}, frame := 0, data := [7], stage := stage }
def pipeS (x : Pipe) (l m : List (Nat × Word)) : State :=
  { mate buddy (l ++ [(Reg.CAP_CTRL 3, 0x5FFF#32)] ++ m) grants with
    erg := { insts := stages 1 3 [1, 2, 3, 4, 5, 6, 7] }, cap := { pipes := [(3, x)] }, raw := 10 ^ 12 }

/-- A live device with the journal on, an extent of window 0, and one staging buffer. -/
def jrnS (x : Jrn) (l : List (Nat × Word)) (m : List Host.Cell) : State :=
  { live with
    regs := [(Reg.JRN_CTRL, 2#32), (Reg.JRN_INDEX_LO, 0x100000#32), (Reg.JRN_EXTENTS, 1#32), (Reg.JRN_STAGE_CFG, 2#32), (Reg.JRN_WIN_CTRL 0, 0x80000000#32), (Reg.JRN_WIN_COUNT 0, 1#32)] ++ l
    jrn := x, mem := m }

/-- The register at an offset. -/
def regAt (o : Nat) : RegDesc := (descAt o).getD (rg 0 [] [])

/-- A full image of SEQ 7: empty sections STRUCT, ROUTE, LANE and PARTNER, and 64 blocks each for the event queue and the
Mover in MEMORY. Its CRCs and its SHA-384 digest were computed by another program. -/
def fullImage : List Byte :=
  [0x43, 0x4C, 0x52, 0x44, 0x01, 0x00, 0x00, 0x00, 0x07, 0x00, 0x00, 0x00, 0x00, 0x00, 0x00, 0x00, 0xE0, 0x00, 0x00, 0x00, 0x05, 0x00, 0x00, 0x00] ++
  [0x00, 0x00, 0x00, 0x00, 0xC5, 0xCF, 0x7A, 0x51, 0x74, 0x36, 0x55, 0x77, 0x18, 0x56, 0x07, 0xBC, 0x1E, 0xDF, 0xF9, 0x1F, 0xEC, 0x14, 0x3F, 0x35] ++
  [0xD4, 0x9A, 0xAD, 0x51, 0x65, 0x5D, 0xDE, 0x7D, 0xF1, 0xA2, 0x31, 0x19, 0xD4, 0x06, 0x63, 0xFD, 0xEF, 0xCF, 0xC0, 0x4F, 0xDF, 0x22, 0x3F, 0x41] ++
  [0x26, 0x89, 0x82, 0x53, 0x0A, 0xA2, 0x30, 0x50, 0x01, 0x00, 0x00, 0x00, 0xC0, 0x00, 0x00, 0x00, 0x00, 0x00, 0x00, 0x00, 0x00, 0x00, 0x00, 0x00] ++
  [0x02, 0x00, 0x00, 0x00, 0xC0, 0x00, 0x00, 0x00, 0x00, 0x00, 0x00, 0x00, 0x00, 0x00, 0x00, 0x00, 0x03, 0x00, 0x00, 0x00, 0xC0, 0x00, 0x00, 0x00] ++
  [0x00, 0x00, 0x00, 0x00, 0x00, 0x00, 0x00, 0x00, 0x04, 0x00, 0x00, 0x00, 0xC0, 0x00, 0x00, 0x00, 0x00, 0x00, 0x00, 0x00, 0x00, 0x00, 0x00, 0x00] ++
  [0x05, 0x00, 0x00, 0x00, 0xC0, 0x00, 0x00, 0x00, 0x20, 0x00, 0x00, 0x00, 0x27, 0x1F, 0x00, 0x33, 0x00, 0x00, 0x00, 0x00, 0x00, 0x00, 0x00, 0x00] ++
  [0x00, 0x00, 0x00, 0x00, 0x00, 0x00, 0x00, 0x00, 0x00, 0x00, 0x00, 0x00, 0x00, 0x00, 0x00, 0x00, 0x00, 0x00, 0x00, 0x00, 0x00, 0x00, 0x00, 0x00] ++
  [0x01, 0x05, 0x10, 0x00, 0x00, 0x00, 0x01, 0x80, 0x00, 0x00, 0x00, 0x00, 0x40, 0x00, 0x00, 0x00, 0x01, 0x05, 0x10, 0x00, 0x00, 0x00, 0x02, 0x80] ++
  [0x40, 0x00, 0x00, 0x00, 0x40, 0x00, 0x00, 0x00]

/-- A partial image of SEQ 8 on base 7, with an empty MEMORY section. -/
def partialImage : List Byte :=
  [0x43, 0x4C, 0x52, 0x44, 0x01, 0x00, 0x01, 0x00, 0x08, 0x00, 0x00, 0x00, 0x07, 0x00, 0x00, 0x00, 0x80, 0x00, 0x00, 0x00, 0x01, 0x00, 0x00, 0x00] ++
  [0x00, 0x00, 0x00, 0x00, 0x44, 0xB2, 0x42, 0x94, 0x9E, 0xBA, 0xAD, 0xA3, 0xEC, 0x33, 0xBA, 0x20, 0x90, 0x39, 0x8B, 0xB0, 0x9D, 0xBF, 0x1C, 0x01] ++
  [0x46, 0xE3, 0x6A, 0x22, 0x8F, 0xB5, 0x5F, 0x66, 0x63, 0x58, 0xAE, 0x5D, 0x3C, 0xCB, 0x02, 0xA3, 0xA2, 0x39, 0xE2, 0x2E, 0x5A, 0x84, 0xB7, 0xFB] ++
  [0x9D, 0xD1, 0x57, 0x7D, 0x5B, 0xA1, 0xB3, 0xA3, 0x05, 0x00, 0x00, 0x00, 0x80, 0x00, 0x00, 0x00, 0x00, 0x00, 0x00, 0x00, 0x00, 0x00, 0x00, 0x00] ++
  [0x00, 0x00, 0x00, 0x00, 0x00, 0x00, 0x00, 0x00, 0x00, 0x00, 0x00, 0x00, 0x00, 0x00, 0x00, 0x00, 0x00, 0x00, 0x00, 0x00, 0x00, 0x00, 0x00, 0x00] ++
  [0x00, 0x00, 0x00, 0x00, 0x00, 0x00, 0x00, 0x00]

/-- Bytes of memory from an address on, those that are not 0. -/
def cells (a : Nat) (bs : List Byte) : List Host.Cell :=
  (bs.zipIdx.filter fun e => e.1 != 0#8).map fun e => (a + e.2, e.1)

/-- A device whose engine has an image of `n` bytes at 0x10000 before it. -/
def cfgS (img : List Byte) (c : Cfg) (l : List (Nat × Word)) : State :=
  { live with regs := [(Reg.CFG_LD_ADDR_LO, 0x10000#32), (Reg.CFG_LD_LEN, BitVec.ofNat 32 img.length)] ++ l, cfg := c, mem := cells 0x10000 img }

/-- A structure of SEQ 7 in force, with the partitions of the event queue and the Mover. -/
def cfgP (img : List Byte) (c : Cfg) (l : List (Nat × Word)) : State :=
  { cfgS img c l with
    erg := { valid := true, seq := 7 }
    store := { blocks := ((upto 64).map fun k => (k, 0x8001)) ++ (upto 64).map fun k => (64 + k, 0x8002) } }

/-- A candidate that can be read and routed. -/
def good : Candidate := ⟨true, .ok []⟩

/-- The image, or the change, that a check accepts. -/
def acceptedFull (s : State) (img : List Byte) : Image :=
  match checkFull s img true good.fit 13 with
  | .ok i => i
  | .error _ => { seq := 0, base := 0, partial' := false, inplaceOk := false, recs := [] }

/-- Core 2 in machine mode with an instruction word at its pc. -/
def coreS (w : Nat) (c : Core) (l : List (Nat × Word)) : State :=
  { live with
    regs := l
    mem := cells 0x20000000 (leBytes 4 w)
    cco := { cores := [(2, { c with st := 1, pc := 0x20000000 })] } }
/-- A check that ends well, by evaluation. -/
theorem okIs {α ε : Type} [DecidableEq α] {x : Except ε α} {a : α}
    (h : (match x with | .ok b => decide (b = a) | .error _ => false) = true) : x = .ok a := by
  cases x <;> simp_all

/-- A check that ends badly, by evaluation. -/
theorem errorIs {α ε : Type} [DecidableEq ε] {x : Except ε α} {e : ε}
    (h : (match x with | .error b => decide (b = e) | .ok _ => false) = true) : x = .error e := by
  cases x <;> simp_all

/-- A good tile that nothing maps and no migration aims at is a free spare. -/
theorem spareIs {s : State} {p a : Nat} (h : p ∈ areaTiles a) (k : ((mget? p s.erg.bad).isNone && (logicalAt s p).isNone
    && !((s.bch.mig.map fun m => m.target == p).getD false)) = true) : p ∈ freeSpares s a := List.mem_filter.mpr ⟨h, k⟩

/-- Tile 538 is one of region 0's. -/
theorem spare538 : 538 ∈ areaTiles 0 := List.mem_filter.mpr ⟨by decide +kernel, by decide +kernel⟩

/-! ## Well-formedness: one ill-formed command for each check, and a well-formed one beside it -/

theorem test_wf_unaligned_write : (Instr.registerWrite .host 0x100002#26 .whole 0#32).wellFormed = false := by decide
theorem test_wf_whole_as_part : (Instr.registerWrite .host 0x100004#26 (.part 0x0F#8 1#10) 0#32).wellFormed = false := by
  decide
theorem test_wf_unaligned_lock : (Instr.lockSet .host 0x100001#26 0#32).wellFormed = false := by decide
theorem test_wf_unaligned_read : (Instr.latchedRead .host 0x100001#26 .whole).wellFormed = false := by decide
theorem test_wf_read_size : (Instr.latchedRead .host 0x100004#26 (.part 0x0F#8 1#10)).wellFormed = false := by decide
theorem test_wf_unaligned_wide : (Instr.wideWriteApply .host 0x100002#26 0#32).wellFormed = false := by decide
theorem test_wf_unaligned_level : (Instr.levelWrite .host 0x100002#26 0#32).wellFormed = false := by decide
theorem test_wf_unaligned_boundary : (Instr.levelBoundary 0x3#26).wellFormed = false := by decide
theorem test_wf_unaligned_unmapped : (Instr.unmappedAccess .host 0 0x2#30 none).wellFormed = false := by decide
theorem test_wf_lists_differ : (Instr.measureDone 0 [0#12] []).wellFormed = false := by decide
theorem test_wf_three_lanes : (Instr.measureDone 0 [0#12, 0#12, 0#12] [0#8, 0#8, 0#8]).wellFormed = false := by decide
/-- A frame whose LEN says 4 and whose payload is empty. -/
def shortFrame : RxFrame := { rx 1 5 0x10 [] with len := 4 }
theorem test_wf_frames : (Instr.aliveReceive shortFrame).wellFormed = false ∧ (Instr.creditReceive shortFrame).wellFormed = false
    ∧ (Instr.helloReceive shortFrame).wellFormed = false ∧ (Instr.descReceive shortFrame).wellFormed = false
    ∧ (Instr.byeReceive shortFrame).wellFormed = false ∧ (Instr.lineSegReceive shortFrame true).wellFormed = false
    ∧ (Instr.frameEndReceive shortFrame).wellFormed = false ∧ (Instr.syncReceive shortFrame).wellFormed = false
    ∧ (Instr.delayReqReceive shortFrame).wellFormed = false ∧ (Instr.delayRespReceive shortFrame).wellFormed = false
    ∧ (Instr.eventReceive shortFrame).wellFormed = false ∧ (Instr.corrAckReceive shortFrame).wellFormed = false
    ∧ (Instr.regRdRespReceive shortFrame).wellFormed = false ∧ (Instr.regWrRespReceive shortFrame).wellFormed = false
    ∧ (Instr.unexpectedFrame 0x77 shortFrame).wellFormed = false := by decide +kernel
theorem test_wf_empty_read : (Instr.apertureAccess (.host 0 0) (.read 0#11) []).wellFormed = false := by decide
theorem test_wf_empty_write : (Instr.apertureAccess (.host 0 0) (.write []) []).wellFormed = false := by decide
theorem test_wf_ecc_inside_word : (Instr.apertureAccess (.host 0 0) (.read 1#11) [⟨0x1000000008, true⟩]).wellFormed = false := by
  decide +kernel
theorem test_wf_scrub : (Instr.scrubStep [⟨0x4, true⟩]).wellFormed = false := by decide +kernel
theorem test_wf_core : (Instr.coreInstruction 0 [⟨0x4, true⟩]).wellFormed = false := by decide +kernel
theorem test_wf_long_transfer : (Instr.twbXferDone 0 (.ok (List.replicate 65 0#8))).wellFormed = false := by decide +kernel
theorem test_wf_accepts : (Instr.registerWrite .host 0x100004#26 (.part 0x03#8 1#10) 0#32).wellFormed = true
    ∧ (Instr.measureDone 0 [0#12, 0#12] [0#8, 0#8]).wellFormed = true
    ∧ (Instr.helloReceive (rx 0 0 0x01 (zeros 8))).wellFormed = true
    ∧ (Instr.scrubStep [⟨0x1000000020, true⟩]).wellFormed = true := by decide +kernel

/-! ## Published check values -/

/-- The check value of CRC-32C over the digits 1 to 9. -/
theorem test_crc32c : crc32c [0x31, 0x32, 0x33, 0x34, 0x35, 0x36, 0x37, 0x38, 0x39] = 0xE3069283 := by decide +kernel

/-- FIPS 180-4's example for SHA-384: the message "abc"; the first and the last bytes of its digest. -/
theorem test_sha384 : (sha384 [0x61, 0x62, 0x63]).take 4 = [0xCB, 0x00, 0x75, 0x3F]
    ∧ (sha384 [0x61, 0x62, 0x63]).drop 44 = [0x34, 0xC8, 0x25, 0xA7] := by decide +kernel

/-! ## Single steps: expected values from the spec's examples, the spec's tables, or the manuals it names -/

/-- x3 of core 2, its x1 and x2 given, after one instruction word is executed. -/
def coreX (w : Nat) (a b : XWord) : XWord :=
  getX (coreOf (go (coreExecute 2 w 4 w []) (coreS w { x := [(1, a), (2, b)] } [])) 2) 3

/-- f3 of core 2, its f1 and f2 given, after one instruction word; FS is on. -/
def coreF (w : Nat) (a b : XWord) : XWord :=
  getF (coreOf (go (coreExecute 2 w 4 w []) (coreS w { f := [(1, a), (2, b)], csr := [(0x300, 0x2000)] } [])) 2) 3

/-- LUI x3, 0x80000: the sign is extended. -/
theorem test_core_lui : coreX 0x800001B7 0 0 = 0xFFFFFFFF80000000#64 := by decide +kernel
/-- DIV x3, x1, x2: a division by 0 gives all ones. -/
theorem test_core_div_zero : coreX 0x0220C1B3 7 0 = 0xFFFFFFFFFFFFFFFF#64 := by decide +kernel
/-- MULH x3, x1, x2 of -1 and -1. -/
theorem test_core_mulh : coreX 0x022091B3 0xFFFFFFFFFFFFFFFF 0xFFFFFFFFFFFFFFFF = 0#64 := by decide +kernel
/-- SRAIW x3, x1, 4. -/
theorem test_core_sraiw : coreX 0x4040D19B 0x80000000 0 = 0xFFFFFFFFF8000000#64 := by decide +kernel
/-- FADD.D f3, f1, f2: 1.5 + 2.25 = 3.75. -/
theorem test_core_fadd : coreF 0x022081D3 0x3FF8000000000000 0x4002000000000000 = 0x400E000000000000#64 := by
  decide +kernel
/-- FDIV.S f3, f1, f2: 1 / 3 rounds up in the last place. -/
theorem test_core_fdiv : coreF 0x182081D3 0xFFFFFFFF3F800000 0xFFFFFFFF40400000 = 0xFFFFFFFF3EAAAAAB#64 := by
  decide +kernel

/-- R130's example: a backward step of 3 µs. -/
theorem test_step_back : timeNow (after (.adjGo .host 1#32)
    (on [(Reg.TIM_ADJ_NS, 999997000#32), (Reg.TIM_ADJ_SEC, 0xFFFFFFFF#32)] live)) = -3000 * 2 ^ 32 := by decide +kernel

/-- R366's example: a fixed 2-byte source that holds 0xBEEF fills an 8-byte word. -/
theorem test_mover_pattern : memBytes (after .moverRunEnd
    { live with
      mem := [(0x1000, 0xEF#8), (0x1001, 0xBE#8)]
      mov := { run := some { ch := 0, desc := { src := 0x1000, dst := 0x2000, len := 8, attr := 0xD4, tag := 0 } } } })
    0x2000 8 = [0xEF, 0xBE, 0xEF, 0xBE, 0xEF, 0xBE, 0xEF, 0xBE] := by decide +kernel

/-- The example of R432's table: DISC_MS 20 gives 656 ticks. -/
theorem test_disc_ticks : discTicks (on [(Reg.HAM_SAFE_CTRL 0, 0x140000#32)] live) 0 = 656 := by decide +kernel

/-- The example of R37: 64.0 GT/s at x8 carries about 60.5 GB/s, and 32.0 GT/s at x16 carries 59.2 GB/s. -/
theorem test_link_capacity : linkCap 6 8 = 60500 ∧ linkCap 5 16 = 59200 := by decide +kernel

/-- Pins set by GPIO_SET join those already set. -/
theorem test_gpio_set : regGet (after (.gpioSet .host 5#32) (on [(Reg.GPIO_OUT, 8#32)] live)) Reg.GPIO_OUT = 13#32 := by
  decide +kernel

/-- A write leaves a field whose zero is invalid as it was (R13): PLK_TIMING[31:16] of 100. -/
theorem test_zero_invalid : fld (regGet (after (.registerWrite .host 0x600008#26 .whole 0#32) live) Reg.PLK_TIMING) 31 16 = 100 := by
  decide +kernel

/-- A read of an offset where no register lies answers ones (R16). -/
theorem test_unmapped_read : .read .host 0x1400000 0xFFFFFFFF#32 ∈
    (after (.unmappedAccess .host 0 0x1400000#30 none) live).outs := by decide +kernel

/-- The host's write of 1 to a latched cause clears that cause only (R6). -/
theorem test_w1c : (after (.evtFaultClear .host 0x4#32) { live with evtFault := 0x6 }).evtFault = 0x2 := by decide +kernel

/-! ## Witnesses of the statements, clause by clause -/

theorem witness_EventQueueCommands :
    (let s : State := live; let ini : Ini := .host; let v : Word := 1#32; Reaches s ini Reg.EVT_INT ∧
      bit v 0 = true)
    ∧ (let s : State := { live with evt := { corePend := 7 } }; let ini : Ini := .host;
      Reaches s ini Reg.EVT_CORE_PEND)
    ∧ (let s : State := { live with evtFault := 7, evtHalt := 3 }; let ini : Ini := .host;
      Reaches s ini Reg.EVT_FAULT)
    ∧ (let s : State :=
      on [(Reg.EVT_Q_SIZE, 16#32)] { live with evt := { placed := true, ring := [⟨0, 1, 0, 1, 0, 0, 0⟩, ⟨0, 2, 0, 1, 0, 0, 0⟩, ⟨0, 3, 0, 1, 0, 0, 0⟩], head := 14, tail := 1 } };
      let ini : Ini := .host; let v : Word := 1#32; Reaches s ini Reg.EVT_Q_HEAD ∧ v.toNat < ringSize s ∧
      (v.toNat + ringSize s - s.evt.head) % ringSize s ≤ s.evt.ring.length ∧ s.evt.overflow = false) := by
  refine ⟨?_, ?_, ?_, ?_⟩ <;> (dsimp only [Reaches, PlainWrite, PlainRead, Accepts, CoreReady] <;> decide +kernel)

theorem witness_FabricCommands :
    (let s : State := live; mainPowered s = true)
    ∧ (let s : State :=
      { live with erg := { insts := [(5, { kind := 2, owner := 1, id := 0, first := 0, rate := 0 })] } };
      let p : Fin 2304 := 0; let n : Nat := 5; let i : Inst :=
      { kind := 2, owner := 1, id := 0, first := 0, rate := 0 }; instOn s p = some (n, i) ∧ i.shadow = false ∧
      s.erg.spoiled.contains p.val = false ∧ evtPowered s = true)
    ∧ (let s : State := live; let p : Fin 2304 := 7; instOn s p = none ∧ evtPowered s = true) := by
  refine ⟨?_, ?_, ?_⟩ <;> (dsimp only [Reaches, PlainWrite, PlainRead, Accepts, CoreReady] <;> decide +kernel)

theorem witness_LaneTraining :
    (let s : State := laneS 7 { st := .signal }; let n : Fin 128 := 7; (laneOf s (groupOf s n)).st = .signal)
    ∧ (let s : State := laneS 7 { st := .adapt }; let n : Fin 128 := 7; (laneOf s (groupOf s n)).st = .adapt)
    ∧ (let s : State := laneS 7 { st := .align }; let n : Fin 128 := 7; let skew : BitVec 32 := 128#32;
      (laneOf s (groupOf s n)).st = .align ∧ skew.toNat ≤ 128)
    ∧ (let s : State := on [(Reg.LNE_LN_CTRL 4, 0x400#32)] (laneS 4 { st := .align, rate := 2 }); let n : Fin 128 :=
      5; let skew : BitVec 32 := 129#32; (laneOf s (groupOf s n)).st = .align ∧ 128 < skew.toNat ∧
      1 < groupWidth s (groupOf s n) ∧ (laneOf s (groupOf s n)).rate < 3)
    ∧ (let s : State := laneS 7 { st := .measure }; let n : Fin 128 := 7; let m : List (BitVec 8) := [255#8];
      (laneOf s (groupOf s n)).st = .measure ∧
      (∀ k, k < groupWidth s (groupOf s n) → regFld s Reg.LNE_MARGIN 7 0 ≤ nthD 0 k (m.map BitVec.toNat)))
    ∧ (let s : State := laneS 7 { st := .measure, rate := 2 }; let n : Fin 128 := 7;
      inPhase (laneOf s (groupOf s n)).st = true ∧ (laneOf s (groupOf s n)).rate < 3)
    ∧ (let s : State := laneS 7 { st := .adapt, rate := 2 }; let n : Fin 128 := 7;
      (laneOf s (groupOf s n)).st = .adapt ∧ (laneOf s (groupOf s n)).rate < 3)
    ∧ (let s : State := laneS 7 { st := .quiet }; let n : Fin 128 := 7; (laneOf s (groupOf s n)).st = .quiet)
    ∧ (let s : State :=
      on [(Reg.LNE_CTRL, 0x100#32), (Reg.LNE_LN_CTRL 7, 1#32)] { laneS 7 { st := .backoff } with lne := { lanes := [(7, { st := .backoff })], octets := [(0, ⟨2, true, true⟩)] } };
      let n : Fin 128 := 7; (laneOf s (groupOf s n)).st = .backoff ∧ regBit s Reg.LNE_CTRL 8 = true ∧
      groupEnabled s (groupOf s n) = true ∧ octetTrains s (groupOf s n) = true)
    ∧ (let s : State := on [(Reg.LNE_CTRL, 0#32)] (laneS 7 { st := .ready }); let n : Fin 128 := 7;
      (laneOf s (groupOf s n)).st = .ready ∧ regBit s Reg.LNE_CTRL 8 = false) := by
  refine ⟨?_, ?_, ?_, ?_, ?_, ?_, ?_, ?_, ?_, ?_⟩ <;> (dsimp only [Reaches, PlainWrite, PlainRead, Accepts, CoreReady] <;> decide +kernel)

theorem witness_LaneControl :
    (let s : State := live; let ini : Ini := .host; let o : Fin 16 := 15; Reaches s ini (Reg.LNE_OCT_CTRL o))
    ∧ (let s : State := on [(Reg.LNE_LN_CTRL 127, 1#32)] live; let ini : Ini := .host; let n : Fin 128 := 127;
      let v : Word := 0#32; Reaches s ini (Reg.LNE_LN_CTRL n) ∧ groupOf s n = n ∧
      bit (regGet s (Reg.LNE_LN_CTRL n)) 0 = true ∧ bit v 0 = false)
    ∧ (let s : State :=
      on [(Reg.LNE_LN_CTRL 7, 1#32)] { live with lne := { lanes := [(7, { st := .ready })], octets := [(0, ⟨2, true, true⟩)] } };
      let ini : Ini := .host; let n : Fin 128 := 7; let v : Word := 0x203#32; Reaches s ini (Reg.LNE_LN_CTRL n) ∧
      groupOf s n = n ∧ bit (regGet s (Reg.LNE_LN_CTRL n)) 0 = true ∧ fld v 1 0 = 3 ∧ bit v 2 = false ∧
      (laneOf s n).st = .ready ∧ octetTrains s n = true)
    ∧ (let s : State := live; let ini : Ini := .host; Reaches s ini Reg.LNE_CTRL)
    ∧ (let s : State := { live with lne := { octets := [(15, ⟨1, false, false⟩)] } }; let o : Fin 16 := 15;
      (octetOf s o).power ≠ 0)
    ∧ (let s : State := on [(Reg.LNE_LN_CTRL 7, 1#32)] (laneS 7 { st := .ready }); let ini : Ini := .host;
      let n : Fin 128 := 7; let v : Word := 5#32; Reaches s ini (Reg.LNE_LN_CTRL n) ∧ (laneOf s n).st = .ready ∧
      bit v 0 = regBit s (Reg.LNE_LN_CTRL n) 0 ∧ bit v 1 = false ∧ bit v 2 = true)
    ∧ (let s : State := laneS 7 { st := .ready, measRun := true }; let n : Fin 128 := 7;
      (laneOf s n).measRun = true)
    ∧ (let s : State := live; let n : Fin 128 := 7; let c : Codeword := ⟨false, some 0x2000, []⟩;
      (match c.marker with | none => true | some m => markerBad s (groupOf s n) m) = true ∧ c.again = false)
    ∧ (let s : State :=
      on [(Reg.HAM_WAKE_EN, 0x40#32), (Reg.HAM_WAKE_MISC, 0x10000#32)] { live with ham := { st := .rest } };
      let n : Fin 128 := 112; 112 ≤ n.val ∧ (laneOf s n).st = .gated ∧ laneWakes s n = true ∧
      regBit s Reg.HAM_WAKE_EN 6 = true ∧ s.ham.tripped = false ∧ s.ham.st = .rest)
    ∧ (let s : State := on [(Reg.LNE_LN_CTRL 4, 0x400#32)] live; let ini : Ini := .host; let n : Fin 128 := 5;
      Reaches s ini (Reg.LNE_LN_CTRL n))
    ∧ (let s : State :=
      on [] { live with lne := { lanes := [(7, { st := .gated })], octets := [(0, ⟨2, true, true⟩)] } };
      let ini : Ini := .host; let n : Fin 128 := 7; let v : Word := 0x201#32; Reaches s ini (Reg.LNE_LN_CTRL n) ∧
      groupOf s n = n ∧ bit (regGet s (Reg.LNE_LN_CTRL n)) 0 = false ∧ bit v 0 = true ∧ bit v 2 = false ∧
      octetTrains s n = true)
    ∧ (let s : State := live; let ini : Ini := .host; let n : Fin 128 := 7; let v : Word := 2#32;
      Reaches s ini (Reg.LNE_LN_CTRL n) ∧ groupOf s n = n ∧ (laneOf s n).st = .gated ∧
      bit v 0 = regBit s (Reg.LNE_LN_CTRL n) 0 ∧ bit v 1 = true ∧ bit v 2 = false)
    ∧ (let s : State :=
      on [(Reg.LNE_CTRL, 0#32), (Reg.LNE_LN_CTRL 7, 1#32)] { live with lne := { lanes := [(7, { st := .backoff })], octets := [(0, ⟨2, true, true⟩)] } };
      let ini : Ini := .host; let n : Fin 128 := 7; let v : Word := 0x100#32; Reaches s ini Reg.LNE_CTRL ∧
      regBit s Reg.LNE_CTRL 8 = false ∧ bit v 8 = true ∧ groupOf s n = n ∧ (laneOf s n).st = .backoff ∧
      groupEnabled s n = true ∧ octetTrains s n = true)
    ∧ (let s : State := live; let ini : Ini := .host; let n : Fin 128 := 7; let v : Word := 4#32;
      Reaches s ini (Reg.LNE_LN_CTRL n) ∧ (laneOf s n).st ≠ .ready ∧ bit v 0 = regBit s (Reg.LNE_LN_CTRL n) 0 ∧
      bit v 1 = false ∧ bit v 2 = true)
    ∧ (let s : State := on [(Reg.LNE_CTRL, 0#32)] (laneS 7 { st := .ready, uncorr := 3 }); let n : Fin 128 := 7;
      let c : Codeword := ⟨true, none, []⟩; c.marker = none ∧ c.again = true ∧ groupOf s n = n ∧
      3 ≤ (laneOf s n).uncorr ∧ (laneOf s n).st = .ready ∧ regBit s Reg.LNE_CTRL 8 = false)
    ∧ (let s : State := live; let n : Fin 128 := 7; let c : Codeword := ⟨true, some 0x80000000, []⟩;
      let m : BitVec 257 := 0x80000000; c.marker = some m ∧ markerBad s (groupOf s n) m = false) := by
  refine ⟨?_, ?_, ?_, ?_, ?_, ?_, ?_, ?_, ?_, ?_, ?_, ?_, ?_, ?_, ?_, ?_⟩ <;> (dsimp only [Reaches, PlainWrite, PlainRead, Accepts, CoreReady] <;> decide +kernel)

theorem witness_FramesSent :
    (let s : State :=
      { mate buddy [] grants with plk := { partners := [(5, buddy)], txq := [⟨7, 5, 3, 0x41, .bytes []⟩, ⟨7, 5, 0, 1, .alive⟩] } };
      let n : Fin 128 := 7; let f : TxFrame := ⟨7, 5, 0, 1, .alive⟩; groupReady s (groupOf s n) = true ∧
      (partnerOf s f.dst).accounts.length = 4 ∧ nextFrame s (groupOf s n) (openClasses s (groupOf s n)) = some f)
    ∧ (let s : State := mate { buddy with accounts := [{ freed := 1 }, {}, {}, {}] } [] grants; let p : BitVec 12 :=
      5#12; keepsAccounts s p.toNat = true ∧ owesCredit (partnerOf s p.toNat) = true ∧
      (s.plk.txq.any fun f => f.dst == p.toNat && f.typ == 2) = false)
    ∧ (let s : State := mate buddy [] grants; let p : BitVec 12 := 5#12; isActive s p.toNat = true ∧
      (s.plk.txq.any fun f => f.dst == p.toNat && f.typ == 1) = false)
    ∧ (let s : State := mate { st := .probing } [(Reg.PLK_CTRL, 0x100#32)] grants; let n : Fin 128 := 7;
      let p : Nat := 5; groupReady s (groupOf s n) = true ∧ regBit s Reg.PLK_CTRL 8 = true ∧
      p ∈ entriesOn s (groupOf s n) ∧ (partnerOf s p).st = .probing)
    ∧ (let s : State :=
      { mate buddy [] grants with plk := { partners := [(5, buddy)], txq := [⟨7, 5, 3, 0x41, .bytes []⟩, ⟨7, 5, 0, 1, .alive⟩] } };
      let g : Nat := 7; let f : TxFrame := ⟨7, 5, 0, 1, .alive⟩; nextFrame s g (openClasses s g) = some f)
    ∧ (let s : State := { laneS 7 { st := .ready } with plk := { sending := [(7, [5#257, 6#257])] } };
      let n : Fin 128 := 7; let b : BitVec 257 := 5; let bs : List (BitVec 257) := [6#257];
      groupReady s (groupOf s n) = true ∧ nextFrame s (groupOf s n) (openClasses s (groupOf s n)) = none ∧
      mget? (groupOf s n) s.plk.sending = some (b :: bs)) := by
  refine ⟨?_, ?_, ?_, ?_, ?_, ?_⟩ <;> (dsimp only [Reaches, PlainWrite, PlainRead, Accepts, CoreReady] <;> decide +kernel)

theorem witness_Discovery :
    (let s : State := mate { st := .probing } [] grants; let f : RxFrame := rx 0 0xFFF 4 (zeros 12); let p : Nat :=
      5; Accepts s f 4 ∧ srcAssigned s f = false ∧ uidHeld s (leAt f.payload 0 8) = false ∧
      helloEntry s (rxGroup s f) (leAt f.payload 0 8) = some p)
    ∧ (let s : State := mate { st := .describing } [] grants; let f : RxFrame := rx 0 5 7 (0#8 :: zeros 78);
      Accepts s f 7 ∧ (partnerOf s f.src.toNat).st = .describing ∧ (partnerOf s f.src.toNat).page = 0 ∧
      leAt f.payload 0 1 = 0)
    ∧ (let s : State := mate { st := .describing, tries := 2 } [] grants; let p : BitVec 12 := 5#12;
      (partnerOf s p.toNat).st = .describing ∧ (partnerOf s p.toNat).tries < 3)
    ∧ (let s : State := mate { st := .describing, tries := 3 } [] grants; let p : BitVec 12 := 5#12;
      (partnerOf s p.toNat).st = .describing ∧ 3 ≤ (partnerOf s p.toNat).tries)
    ∧ (let s : State := mate buddy [] grants; let f : RxFrame := rx 0 5 9 (zeros 4); Accepts s f 9)
    ∧ (let s : State := mate buddy [] grants; let p : BitVec 12 := 5#12; (partnerOf s p.toNat).st = .active)
    ∧ (let s : State := mate { st := .lost } [] grants; let p : BitVec 12 := 5#12; (partnerOf s p.toNat).st = .lost)
    ∧ (let s : State := mate { st := .refused } [] grants; let p : BitVec 12 := 5#12;
      (partnerOf s p.toNat).st = .refused)
    ∧ (let s : State := mate buddy [] grants; let ini : Ini := .host; let p : BitVec 12 := 5#12; let v : Word :=
      0x90000007#32; Reaches s ini (Reg.PT_CTRL p.toNat) ∧ ptAbsent p.toNat = false ∧ bit v 28 = true ∧
      (partnerOf s p.toNat).st = .active)
    ∧ (let s : State := mate { st := .probing } [(Reg.PLK_CTRL, 0x100#32)] grants; let ini : Ini := .host;
      let v : Word := 0#32; Reaches s ini Reg.PLK_CTRL ∧ regBit s Reg.PLK_CTRL 8 = true ∧ bit v 8 = false)
    ∧ (let s : State := mate { st := .waiting } [(Reg.PLK_CTRL, 0#32)] grants; let ini : Ini := .host;
      let v : Word := 0x100#32; let g : Fin 128 := 7; let p : Nat := 5; Reaches s ini Reg.PLK_CTRL ∧
      regBit s Reg.PLK_CTRL 8 = false ∧ bit v 8 = true ∧ groupOf s g = g ∧ groupReady s g = true ∧
      p ∈ entriesOn s g ∧ (partnerOf s p).st = .waiting)
    ∧ (let s : State := mate { st := .accepting } [] grants; let p : BitVec 12 := 5#12;
      (partnerOf s p.toNat).st = .accepting) := by
  refine ⟨?_, ?_, ?_, ?_, ?_, ?_, ?_, ?_, ?_, ?_, ?_, ?_⟩ <;> (dsimp only [Reaches, PlainWrite, PlainRead, Accepts, CoreReady] <;> decide +kernel)

theorem witness_FramesTaken :
    (let s : State := mate { st := .accepting } [] grants; let f : RxFrame := rx 0 5 1 (zeros 8); Accepts s f 1 ∧
      (partnerOf s f.src.toNat).st = .accepting ∧ srcAssigned s f = true)
    ∧ (let s : State := mate buddy [] grants; let f : RxFrame := rx 0 5 2 []; Accepts s f 2 ∧
      hasAccount s f = true ∧ (partnerOf s f.src.toNat).accounts.length = 4)
    ∧ (let s : State := mate buddy [] grants; let f : RxFrame := rx 0 5 0x11 (zeros 4); Accepts s f 0x11 ∧
      srcAssigned s f = true)
    ∧ (let s : State := mate buddy [] grants; let f : RxFrame := rx 0 5 0x14 (zeros 12); Accepts s f 0x14 ∧
      srcAssigned s f = true)
    ∧ (let s : State := live; let typ : Byte := 0x7F; let f : RxFrame := rx 0 5 0x7F (zeros 4);
      typeClass typ.toNat = none ∧ srcAssigned s f = false)
    ∧ (let s : State := live; let n : Fin 128 := 7; corruptOpen s (groupOf s n) = false)
    ∧ (let s : State := mate buddy [] grants; let typ : Byte := 0x7F; let f : RxFrame := rx 0 5 0x7F (zeros 4);
      typeClass typ.toNat = none ∧ framingKind f typ.toNat = 0 ∧ srcAssigned s f = true ∧
      overCredit s f typ.toNat = false)
    ∧ (let s : State := { live with plk := { corrupt := [7] } }; let n : Fin 128 := 7;
      corruptOpen s (groupOf s n) = true) := by
  refine ⟨?_, ?_, ?_, ?_, ?_, ?_, ?_, ?_⟩ <;> (dsimp only [Reaches, PlainWrite, PlainRead, Accepts, CoreReady] <;> decide +kernel)

theorem witness_Tunnel :
    (let s : State := live; let ini : Ini := .host; let k : Fin 8 := 7; let v : Word := 0x80000000#32;
      Reaches s ini (Reg.PLK_TUN_CTRL k) ∧ bit v 31 = true ∧ regBit s (Reg.PLK_TUN_CTRL k) 31 = false ∧
      fld v 22 16 = 0)
    ∧ (let s : State := mate buddy [] grants; let ini : Ini := .host; let k : Fin 8 := 7; let v : Word :=
      0x80400005#32; Reaches s ini (Reg.PLK_TUN_CTRL k) ∧ bit v 31 = true ∧
      regBit s (Reg.PLK_TUN_CTRL k) 31 = false ∧ 1 ≤ fld v 22 16 ∧ fld v 22 16 ≤ 64 ∧
      isActive s (fld v 11 0) = true ∧ (partnerOf s (fld v 11 0)).queue.length < 32 ∧
      (partnerOf s (fld v 11 0)).overflow = [])
    ∧ (let s : State := mate { buddy with desc := zeros 56 ++ [0, 0, 1, 0] } [] grants; let p : BitVec 12 := 5#12;
      let a : BitVec 16 := 0xFFFF#16; takesRequests s = true ∧ gwBusy s = false ∧ ptAbsent p.toNat = false ∧
      ptValid s p.toNat = true ∧ a.toNat < leAt (partnerOf s p.toNat).desc 56 4 ∧ isActive s p.toNat = true ∧
      (partnerOf s p.toNat).queue.length < 32 ∧ (partnerOf s p.toNat).overflow = [])
    ∧ (let s : State := mate { buddy with desc := zeros 56 ++ [0, 0, 1, 0] } [] grants; let p : BitVec 12 := 5#12;
      let a : BitVec 16 := 0xFFFC#16; takesRequests s = true ∧ gwBusy s = false ∧ ptAbsent p.toNat = false ∧
      ptValid s p.toNat = true ∧ a.toNat < leAt (partnerOf s p.toNat).desc 56 4 ∧ isActive s p.toNat = true ∧
      (partnerOf s p.toNat).queue.length < 32 ∧ (partnerOf s p.toNat).overflow = [])
    ∧ (let s : State := mate { buddy with overflow := [⟨.slot 2, false, 0, 1, [], 3, false, 0⟩] } [] grants;
      let p : BitVec 12 := 5#12; let r : TunReq := ⟨.slot 2, false, 0, 1, [], 3, false, 0⟩; let rs : List TunReq :=
      []; (partnerOf s p.toNat).overflow = r :: rs ∧ (partnerOf s p.toNat).queue.length < 32 ∧ s.gw.held = [])
    ∧ (let s : State := mate { buddy with queue := [⟨.slot 2, false, 0, 1, [], 3, false, 0⟩] } [] grants;
      let p : BitVec 12 := 5#12; let r : TunReq := ⟨.slot 2, false, 0, 1, [], 3, false, 0⟩;
      isActive s p.toNat = true ∧ ((partnerOf s p.toNat).queue.filter fun x => x.sent).length < 16 ∧
      firstWhere (fun x => !x.sent) (partnerOf s p.toNat).queue = some r)
    ∧ (let s : State :=
      { mate { buddy with queue := [⟨.slot 2, false, 0, 1, [], 3, false, 0⟩] } [] grants with raw := 10 ^ 12 };
      let p : BitVec 12 := 5#12; let r : TunReq := ⟨.slot 2, false, 0, 1, [], 3, false, 0⟩; let rs : List TunReq :=
      []; let k : Fin 8 := 2; (partnerOf s p.toNat).queue = r :: rs ∧ r.origin = .slot k ∧
      r.since + tunTicks s ≤ s.raw)
    ∧ (let s : State := mate { buddy with queue := [⟨.winRead 0x30050000, false, 0, 1, [], 3, true, 0⟩] } [] grants;
      let f : RxFrame := rx 2 5 0x31 ([3, 1, 0] ++ zeros 12 ++ [1, 2, 3, 4]); let r : TunReq :=
      ⟨.winRead 0x30050000, false, 0, 1, [], 3, true, 0⟩; let off : Nat := 0x30050000; Accepts s f 0x31 ∧
      tunOf s f false = some r ∧ r.origin = .winRead off ∧ leAt f.payload 2 1 = 0 ∧ leAt f.payload 1 1 = 1 ∧
      framesLost s f = 0)
    ∧ (let s : State := mate { buddy with queue := [⟨.slot 2, true, 0, 1, [], 3, true, 0⟩] } [] grants;
      let f : RxFrame := rx 2 5 0x33 ([3, 0, 0] ++ zeros 12); let r : TunReq :=
      ⟨.slot 2, true, 0, 1, [], 3, true, 0⟩; let k : Fin 8 := 2; Accepts s f 0x33 ∧ tunOf s f true = some r ∧
      r.origin = .slot k ∧ leAt f.payload 2 1 = 0) := by
  refine ⟨?_, ?_, ?_, ?_, ?_, ?_, ?_, ?_, ?_⟩ <;> (dsimp only [Reaches, PlainWrite, PlainRead, Accepts, CoreReady] <;> decide +kernel)

theorem witness_DeviceTime :
    (let s : State := { live with raw := 5000000, tim := { base := 77777777777777777777, st := .free } };
      let ini : Ini := .core 2; Reaches s ini Reg.TIM_NOW_FRAC)
    ∧ (let s : State := on [(Reg.TIM_CAP_CTRL 15, 0x80000144#32)] live; let c : Fin 16 := 15; let rising : Bool :=
      true; regBit s (Reg.TIM_CAP_CTRL c) 31 = true ∧ capSource (regFld s (Reg.TIM_CAP_CTRL c) 6 0) = true ∧
      regBit s (Reg.TIM_CAP_CTRL c) (if rising then 8 else 9) = true ∧ (mget [] c.val s.tim.caps).length < 16)
    ∧ (let s : State := { live with raw := 5000000, tim := { caps := [(3, [(123456789123, true)])] } };
      let ini : Ini := .host; let c : Fin 16 := 3; let x : Int := 123456789123; let r : Bool := true;
      let rest : List (Int × Bool) := []; Reaches s ini (Reg.TIM_CAP_FRAC c) ∧
      mget [] c.val s.tim.caps = (x, r) :: rest)
    ∧ (let s : State :=
      on [(Reg.TIM_ADJ_NS, 999999999#32), (Reg.TIM_ADJ_CTRL, 0#32)] ({ live with raw := 5000000, tim := { st := .free } });
      let ini : Ini := .host; let v : Word := 1#32; Reaches s ini Reg.TIM_ADJ_GO ∧ bit v 0 = true ∧
      regFld s Reg.TIM_ADJ_CTRL 1 0 = 0 ∧ (regGet s Reg.TIM_ADJ_NS).toNat ≤ 999999999)
    ∧ (let s : State :=
      on [(Reg.TIM_ADJ_NS, 5#32), (Reg.TIM_ADJ_CTRL, 1#32)] ({ live with raw := 5000000, tim := { st := .free } });
      let ini : Ini := .host; let v : Word := 1#32; Reaches s ini Reg.TIM_ADJ_GO ∧ bit v 0 = true ∧
      regFld s Reg.TIM_ADJ_CTRL 1 0 = 1 ∧ (regGet s Reg.TIM_ADJ_NS).toNat ≤ 999999999)
    ∧ (let s : State := on [(Reg.TIM_ADJ_CTRL, 3#32)] live; let ini : Ini := .host; let v : Word := 1#32;
      Reaches s ini Reg.TIM_ADJ_GO ∧ bit v 0 = true ∧ regFld s Reg.TIM_ADJ_CTRL 1 0 = 3)
    ∧ (let s : State := on [(Reg.TIM_RATE_LO, 9#32)] ({ live with raw := 5000000, tim := { rate := 5 } });
      let ini : Ini := .host; Reaches s ini Reg.TIM_RATE_HI ∧
      mget? (latchKey ini Reg.TIM_RATE_LO) s.acc.held = none)
    ∧ (let s : State := { live with raw := 5000000, tim := { slew := 100, slewDue := 3000 } }; s.tim.slew ≠ 0 ∧
      slewOver s = true)
    ∧ (let s : State := { live with tim := { slew := 1, slewDue := 10 ^ 20 } }; slewOver s = false) := by
  refine ⟨?_, ?_, ?_, ?_, ?_, ?_, ?_, ?_, ?_⟩ <;> (dsimp only [Reaches, PlainWrite, PlainRead, Accepts, CoreReady] <;> decide +kernel)

theorem witness_TimeSources :
    (let s : State := on [(Reg.TIM_SRC, 1#32)] live; regBit s Reg.TIM_SRC 0 = true)
    ∧ (let s : State :=
      on [(Reg.TIM_SRC, 1#32)] ({ live with raw := 5000000, tim := { ptmBusy := true, runPtm := 2 } });
      s.tim.ptmBusy = true)
    ∧ (let s : State := on [(Reg.TIM_SRC, 2#32)] live; let r : Bool := true; r ≠ regBit s Reg.TIM_PULSE_CTRL 1 ∧
      regBit s Reg.TIM_SRC 1 = true)
    ∧ (let k : Fin 4 := 3; k.val ≠ 0)
    ∧ (let s : State :=
      on [(Reg.TIM_SRC, 0x500004#32), (Reg.PT_CTRL 5, 0xC0000007#32), (Reg.PT_GRANT01 5, 8#32)] (mate buddy [] []);
      let f : RxFrame := rx 0 5 0x10 (zeros 24 ++ [8] ++ zeros 7); Accepts s f 0x10 ∧
      ptTimeSrc s f.src.toNat = true ∧ f.src.toNat = upPartner s ∧ regBit s Reg.TIM_SRC 2 = true ∧
      (leAt f.payload 24 1).testBit 3 = true)
    ∧ (let s : State := on [(Reg.TIM_PULSE_CTRL, 0x50001#32)] live; regBit s Reg.TIM_PULSE_CTRL 0 = true ∧
      pulseDue s.tim.ppsDone s.tim.ppsFrom (timeNow s / oneSec) = true)
    ∧ (let s : State := on [(Reg.TIM_TP_PERIOD, 1000000#32), (Reg.TIM_TP_WIDTH, 500#32)] live;
      regGet s Reg.TIM_TP_WIDTH ≠ 0#32 ∧ pulseDue s.tim.tpDone s.tim.tpFrom (timeNow s / tpPeriod s) = true)
    ∧ (let s : State := { live with tim := { ppsDone := [(0, 5)] } };
      pulseDue s.tim.ppsDone s.tim.ppsFrom (timeNow s / oneSec) = false)
    ∧ (let s : State := { live with tim := { tpDone := [(0, 5)] } };
      pulseDue s.tim.tpDone s.tim.tpFrom (timeNow s / tpPeriod s) = false) := by
  refine ⟨?_, ?_, ?_, ?_, ?_, ?_, ?_, ?_, ?_⟩ <;> (dsimp only [Reaches, PlainWrite, PlainRead, Accepts, CoreReady] <;> decide +kernel)

theorem witness_SyncAndDelay :
    (let s : State := mate buddy [] grants; s.tim.sel ≠ 3)
    ∧ (let s : State := { mate buddy [] grants with tim := { relays := [⟨5, 1, 2, 3, 4, 0, 0, 0⟩] } };
      let p : BitVec 12 := 5#12; let r : Relay := ⟨5, 1, 2, 3, 4, 0, 0, 0⟩; relayTo s p.toNat = some r ∧
      isActive s p.toNat = true ∧ relayInTime s r = true ∧ frameCost 32 ≤ available s p.toNat 0 ∧
      (partnerOf s p.toNat).accounts.length = 4)
    ∧ (let s : State :=
      { mate buddy [] grants with raw := 10 ^ 9, tim := { relays := [⟨5, 1, 2, 3, 4, 0, 0, 0⟩] } };
      let p : BitVec 12 := 5#12; let r : Relay := ⟨5, 1, 2, 3, 4, 0, 0, 0⟩; relayTo s p.toNat = some r ∧
      relayInTime s r = false)
    ∧ (let s : State := live; (isActive s (upPartner s) && regBit s Reg.TIM_SRC 2) = false)
    ∧ (let s : State := { mate { buddy with delayT1 := some 1000, delaySeq := 0 } [] grants with raw := 999 };
      let f : RxFrame := rx 0 5 0x12 (zeros 12); let t1 : Int := 1000; Accepts s f 0x12 ∧
      (partnerOf s f.src.toNat).delayT1 = some t1 ∧ (partnerOf s f.src.toNat).delaySeq = leAt f.payload 0 2) := by
  refine ⟨?_, ?_, ?_, ?_, ?_⟩ <;> (dsimp only [Reaches, PlainWrite, PlainRead, Accepts, CoreReady] <;> decide +kernel)

theorem witness_Triggers :
    (let s : State := live; let ini : Ini := .host; let v : Word := 0x80000003#32; Reaches s ini Reg.TIM_JOB ∧
      bit v 31 = true ∧ s.tim.webs.length = 4)
    ∧ (let s : State := live; let e : Fin 4 := 3; s.tim.webs.length = 4 ∧
      (((webOf s e).edges.head?.map fun x => decide (10 * oneMs ≤ timeNow s - x.1)).getD true) = true)
    ∧ (let s : State := live; let ini : Ini := .host; let g : Fin 256 := 255; let v : Word := 0x80000001#32;
      Reaches s ini (Reg.TIM_TRG_CTRL g) ∧ regBit s (Reg.TIM_TRG_CTRL g) 31 = false ∧ bit v 31 = true ∧
      fld v 15 0 ≠ 0)
    ∧ (let s : State :=
      { mate buddy [(Reg.TIM_TRG_CTRL 9, 0x80050001#32)] ((Reg.CAP_CTRL 3, 0x5FFF#32) :: grants) with raw := 9999, erg := { insts := stages 1 3 [1] }, tim := { webs := [{ edges := [(8000000000, 500), (4000000000, 400)], still := false, pos := 500 }, {}, {}, {}] } };
      let g : Fin 256 := 9; let dx : Int := 100; let dt : Int := 4000000000; let te : Int := 8000000000;
      let xe : Int := 500; let es : List (Int × Int) := [(4000000000, 400)]; mayTrigger s g false = true ∧
      velocity (jobWeb s) = some (dx, dt) ∧ (jobWeb s).edges = (te, xe) :: es ∧ 0 < dx ∧
      leadReached s g (te + (lineScaled s g (genOf s g).line - xe * lpiOf s g) * dt / (lpiOf s g * dx)) = true)
    ∧ (let s : State :=
      { mate buddy [(Reg.TIM_TRG_CTRL 9, 0xC0050001#32)] ((Reg.CAP_CTRL 3, 0x5FFF#32) :: grants) with raw := 9999, erg := { insts := stages 1 3 [1] }, tim := { st := .free } };
      let g : Fin 256 := 9; mayTrigger s g true = true ∧ leadReached s g (nextExposure s g) = true)
    ∧ (let s : State :=
      { mate buddy [] grants with regs := (Reg.TIM_TRG_CTRL 9, 0x00000000#32) :: grants, raw := 9999, tim := { gens := [(9, { pending := [⟨4, 0, true⟩] })] } };
      let g : Fin 256 := 9; let x : PendTrig := ⟨4, 0, true⟩;
      firstWhere (fun x => x.sent) (genOf s g).pending = some x)
    ∧ (let s : State :=
      { mate buddy [] grants with regs := (Reg.TIM_TRG_CTRL 9, 0x00000000#32) :: grants, raw := 9999, tim := { gens := [(9, { pending := [⟨4, 0, false⟩] })] } };
      let g : Fin 256 := 9; let x : PendTrig := ⟨4, 0, false⟩;
      firstWhere (fun x => !x.sent && decide (sar x.time 32 ≤ sar (timeNow s) 32)) (genOf s g).pending = some x)
    ∧ (let s : State := live; let ini : Ini := .host; let v : Word := 0x800003E8#32;
      Reaches s ini Reg.TIM_CYC_CTRL ∧ regBit s Reg.TIM_CYC_CTRL 31 = false ∧ bit v 31 = true ∧ 1 ≤ fld v 9 0 ∧
      fld v 9 0 ≤ 1000)
    ∧ (let s : State :=
      on [(Reg.TIM_CYC_CTRL, 0x80000001#32)] ({ live with raw := 5000000, tim := { cycNext := some 77 } });
      let x : Int := 77; s.tim.cycNext = some x ∧ x ≤ timeNow s ∧ regBit s Reg.TIM_CYC_CTRL 31 = true)
    ∧ (let s : State := { live with tim := { cycNext := some 0 } }; let x : Int := 0; s.tim.cycNext = some x ∧
      x ≤ timeNow s ∧ regBit s Reg.TIM_CYC_CTRL 31 = false)
    ∧ (let s : State := { live with tim := { gens := [(9, { next := 10 ^ 20 })] } }; let g : Fin 256 := 9;
      leadReached s g (nextExposure s g) = false) := by
  refine ⟨?_, ?_, ?_, ?_, ?_, ?_, ?_, ?_, ?_, ?_, ?_⟩ <;> (dsimp only [Reaches, PlainWrite, PlainRead, Accepts, CoreReady] <;> decide +kernel)

theorem witness_LineAssembly :
    (let s : State :=
      pipeS { frameOpen := true, line? := some ⟨0, 0, [1, 2], some ⟨0, 0, 0, 0, false, false, false⟩, false, 0, 0, 0⟩ } [] [];
      let f : RxFrame := rx 3 5 0x40 ([0, 0, 1, 2, 0, 0, 0] ++ zeros 8 ++ [9, 9]); let p : Nat := 3;
      let l : OpenLine := ⟨0, 0, [1, 2], some ⟨0, 0, 0, 0, false, false, false⟩, false, 0, 0, 0⟩; Accepts s f 0x40 ∧
      pipeOfPartner s f.src.toNat = some p ∧ pipeLost s p = false ∧ reloadOf s p = none ∧
      (pipeOf s p).frameOpen = true ∧ (pipeOf s p).frame = leAt f.payload 11 4 ∧ (pipeOf s p).dropping = false ∧
      (pipeOf s p).line? = some l ∧ l.seq = leAt f.payload 0 2 ∧ l.trig.isSome = true ∧
      leAt f.payload 3 4 = l.bytes.length ∧ (leAt f.payload 2 1).testBit 1 = false)
    ∧ (let s : State := pipeS { frameOpen := true } [] []; let f : RxFrame := rx 3 5 0x41 (zeros 8); let p : Nat :=
      3; Accepts s f 0x41 ∧ pipeOfPartner s f.src.toNat = some p ∧ ingressOff s p = false ∧
      (pipeOf s p).frameOpen = true ∧ (pipeOf s p).frame = leAt f.payload 0 4)
    ∧ (let s : State := pipeS { trigs := [⟨0, 0, 0, 0, false, false, false⟩] } [] []; let p : Fin 256 := 3;
      let x : Trig := ⟨0, 0, 0, 0, false, false, false⟩; let xs : List Trig := []; (pipeOf s p).line? = none ∧
      (pipeOf s p).trigs = x :: xs ∧ missDeadline s p x < timeNow s)
    ∧ (let s : State :=
      { pipeS { frameOpen := true } [] [] with erg := { insts := (stages 1 3 [1]) ++ [(9, { kind := 2, owner := 1, id := 3, first := 9, rate := 0, lost := true })] } };
      let f : RxFrame := rx 3 5 0x41 (zeros 8); let p : Nat := 3; Accepts s f 0x41 ∧
      pipeOfPartner s f.src.toNat = some p ∧ ingressOff s p = true)
    ∧ (let s : State :=
      pipeS { line? := some ⟨0, 0, [1, 2], some ⟨0, 0, 0, 0, false, false, false⟩, false, 0, 0, 0⟩, trigs := [⟨0, 0, 0, 0, false, false, false⟩] } [] [];
      let p : Fin 256 := 3; let l : OpenLine :=
      ⟨0, 0, [1, 2], some ⟨0, 0, 0, 0, false, false, false⟩, false, 0, 0, 0⟩; let x : Trig :=
      ⟨0, 0, 0, 0, false, false, false⟩; (pipeOf s p).line? = some l ∧ l.trig = some x ∧
      missDeadline s p x < timeNow s) := by
  refine ⟨?_, ?_, ?_, ?_, ?_⟩ <;> (dsimp only [Reaches, PlainWrite, PlainRead, Accepts, CoreReady] <;> decide +kernel)

theorem witness_PipelineStages :
    (let s : State := pipeS { flow := [.line (line1 0)] } [] []; let p : Fin 256 := 3; let l : CapLine := line1 0;
      lineAt s p 0 = some l ∧ stageRuns s 1 p (ownInsts s 0x01 1 p) = true ∧ lineAt s p 1 = none)
    ∧ (let s : State := pipeS { flow := [.line (line1 1)] } [] []; let p : Fin 256 := 3; let l : CapLine := line1 1;
      lineAt s p 1 = some l ∧ stageOn s p 0x02 1 = true ∧ stageRuns s 1 p (ownInsts s 0x02 1 p) = true ∧
      lineAt s p 2 = none ∧ regFld s (Reg.BK_CTRL p l.bank) 1 0 = 0)
    ∧ (let s : State := pipeS { flow := [.line (line1 2)] } [] []; let p : Fin 256 := 3; let l : CapLine := line1 2;
      lineAt s p 2 = some l ∧ stageOn s p 0x03 2 = true ∧ stageRuns s 1 p (ownInsts s 0x03 1 p) = true ∧
      lineAt s p 3 = none)
    ∧ (let s : State := pipeS { flow := [.line (line1 3)] } [] []; let p : Fin 256 := 3; let l : CapLine := line1 3;
      lineAt s p 3 = some l ∧ stageOn s p 0x04 3 = true ∧ stageRuns s 1 p (ownInsts s 0x04 1 p) = true ∧
      lineAt s p 4 = none ∧ regFld s (Reg.BK_CTRL p l.bank) 3 2 = 0 ∧ (∀ v ∈ l.data, v ≤ 65535))
    ∧ (let s : State := pipeS { flow := [.line (line1 4)] } [] []; let p : Fin 256 := 3; let l : CapLine := line1 4;
      lineAt s p 4 = some l ∧ stageOn s p 0x05 4 = true ∧ stageRuns s 1 p (ownInsts s 0x05 1 p) = true ∧
      lineAt s p 5 = none ∧ l.first = false)
    ∧ (let s : State := pipeS { flow := [.line (line1 5)] } [] []; let p : Fin 256 := 3; let l : CapLine := line1 5;
      lineAt s p 5 = some l ∧ stageOn s p 0x06 5 = true ∧ stageRuns s 1 p (ownInsts s 0x06 1 p) = true ∧
      lineAt s p 6 = none)
    ∧ (let s : State := { pipeS { flow := [.line (line1 6)] } [] [] with erg := {} }; let p : Fin 256 := 3;
      let l : CapLine := line1 6; (pipeOf s p).flow = [.line l] ∧ l.stage = 6 ∧ stageOn s p 0x07 6 = false ∧
      stageRuns s 1 p (ownInsts s 0x07 1 p) = true ∧ stageRuns s 1 p (forks s 1 p) = true ∧ tapsTake s p = true) := by
  refine ⟨?_, ?_, ?_, ?_, ?_, ?_, ?_⟩ <;> (dsimp only [Reaches, PlainWrite, PlainRead, Accepts, CoreReady] <;> decide +kernel)

theorem witness_StagesLeftOut :
    (let s : State := { pipeS { flow := [.line (line1 5)] } [] [] with erg := {} }; let p : Fin 256 := 3;
      let c : Instr := .cmatLine 3; let k : Nat := 5; let kind : Nat := 6; let l : CapLine := line1 5;
      (c, k, kind) ∈ [(Instr.blackLine p, 1, 0x02), (.dpcLine p, 2, 0x03), (.flatLine p, 3, 0x04), (.wbalLine p, 4, 0x05), (.cmatLine p, 5, 0x06)] ∧
      lineAt s p k = some l ∧ stageOn s p kind k = false ∧ stageRuns s 1 p (ownInsts s kind 1 p) = true ∧
      lineAt s p (k + 1) = none) := by
  dsimp only [Reaches, PlainWrite, PlainRead, Accepts, CoreReady] <;> decide +kernel

theorem witness_BanksAndCalibration :
    (let s : State := pipeS { banks := [2, 0, 0, 0] } [] []; let ini : Ini := .host; let p : Fin 256 := 3;
      let v : Word := 0x90000400#32; Reaches s ini (Reg.CAP_CAL_CTRL p) ∧ bit v 31 = true ∧ 1 ≤ fld v 10 0 ∧
      fld v 10 0 ≤ 1024 ∧ bankSt s p (fld v 29 28) = 0 ∧ (pipeOf s p).cal = none)
    ∧ (let s : State :=
      { pipeS { banks := [2, 3, 0, 0] } [] [(Reg.BK_CTRL 3 1, 0x10#32)] with store := { blocks := [(0, 0x1003), (1, 0x1003)] } };
      let ini : Ini := .host; let p : Fin 256 := 3; let v : Word := 0x80000001#32; Reaches s ini (Reg.CAP_SW p) ∧
      ini ≠ .cfg ∧ bit v 31 = true ∧ switchRefusal s p (fld v 1 0) = 0 ∧ bankSt s p (fld v 1 0) ≠ 2) := by
  refine ⟨?_, ?_⟩ <;> (dsimp only [Reaches, PlainWrite, PlainRead, Accepts, CoreReady] <;> decide +kernel)

theorem witness_OutputTaps :
    (let s : State := on [(Reg.OUT_TAP_CTRL 1023, 0x90000000#32)] live; let k : Fin 1024 := 1023;
      atTapStart s k = true)
    ∧ (let s : State :=
      on [] { live with taps := { taps := [(1023, { frameOpen := true, inq := [(.line (line1 7), 5)] })] } };
      let k : Fin 1024 := 1023; let l : CapLine := line1 7; let time : Int := 5; let rest : List (CapItem × Int) :=
      []; (tapOf s k).inq = (.line l, time) :: rest ∧ tapDest s k < 2 ∧ cropTurn s k = true)
    ∧ (let s : State :=
      on [(Reg.OUT_TAP_CTRL 1023, 0x8000000#32)] { live with taps := { taps := [(1023, { frameOpen := true, inq := [(.line (line1 7), 5)] })] } };
      let k : Fin 1024 := 1023; let l : CapLine := line1 7; let time : Int := 5; let rest : List (CapItem × Int) :=
      []; (tapOf s k).inq = (.line l, time) :: rest ∧ 2 ≤ tapDest s k ∧ cropTurn s k = true)
    ∧ (let s : State := on [] { live with taps := { taps := [(1023, { mid := [.line ⟨{}, 0, 1, 1, [7], 5⟩] })] } };
      let k : Fin 1024 := 1023; let i : TapItem := .line ⟨{}, 0, 1, 1, [7], 5⟩; let rest : List TapItem := [];
      (tapOf s k).mid = i :: rest ∧ (tapOf s k).scale = 0#32 ∧ tapRuns s k 0x09 = true)
    ∧ (let s : State :=
      on [] { live with taps := { taps := [(1023, { outq := [.line ⟨{}, 0, 1, 1, [7], 5⟩], enNow := true })] } };
      let k : Fin 1024 := 1023; let l : TapLine := ⟨{}, 0, 1, 1, [7], 5⟩; let rest : List TapItem := [];
      (tapOf s k).outq = .line l :: rest ∧ tapEvidence s k = false ∧ (tapOf s k).dropping = false ∧
      tapRuns s k 0x0A = true)
    ∧ (let s : State := on [] { live with taps := { taps := [(1023, { outq := [.line ⟨{}, 0, 1, 1, [7], 5⟩] })] } };
      let k : Fin 1024 := 1023; let l : TapLine := ⟨{}, 0, 1, 1, [7], 5⟩; let rest : List TapItem := [];
      (tapOf s k).outq = .line l :: rest ∧ tapEvidence s k = false ∧ tapRuns s k 0x0A = true)
    ∧ (let s : State :=
      { live with store := { producers := [(9, { spill := [{ kind := 1, source := 9, payload := [] }] })] } };
      let n : BitVec 16 := 9#16; let p : Packet := { kind := 1, source := 9, payload := [] };
      let rest : List Packet := []; (producerOf s n.toNat).spill = p :: rest)
    ∧ (let s : State := on [] { live with taps := { taps := [(1023, { frameOpen := true })] } }; let k : Fin 1024 :=
      1023; atTapStart s k = false) := by
  refine ⟨?_, ?_, ?_, ?_, ?_, ?_, ?_, ?_⟩ <;> (dsimp only [Reaches, PlainWrite, PlainRead, Accepts, CoreReady] <;> decide +kernel)

theorem witness_SeifRows :
    (let s : State :=
      on [(Reg.OUT_TAP_CTRL 12, 0x18000000#32), (Reg.SEI_CAM_CTRL 2 0, 0x80030004#32)] { live with taps := { taps := [(12, { route := [.line (line1 7)] })] }, sei := { bars := [(2, { })] } };
      let b : Fin 16 := 2; let k : Fin 64 := 0; let tap : Nat := 12; let l : CapLine := line1 7;
      let rest : List CapItem := []; regBit s (Reg.SEI_CAM_CTRL b k) 31 = true ∧ slotFull s b k = false ∧
      slotTap s b k = some tap ∧ (tapOf s tap).route = .line l :: rest ∧ slotMeasures s b k = false ∧
      stageRuns s 2 b (warpInst s b k) = true ∧
      (∀ m, newestOf (slotOf s b k) = some m → m < lineIndex s (slotPipe s b k) l.tag.web))
    ∧ (let s : State :=
      on [(Reg.SEI_BAR_CTRL 2, 0x80010000#32), (Reg.SEI_BAR_WIDTH 2, 4#32), (Reg.SEI_CAM_CTRL 2 0, 0x80030004#32)] { live with acc := { expert := [Reg.SEI_BAR_CTRL 2] }, sei := { bars := [(2, { row := some 5, open' := ⟨0, 1, 0, 0, 0, 0, 0⟩, seams := [(0, 0)], slots := [(0, { model := some { sx := 2 ^ 28, ky := 0 }, buf := [⟨0, line1 7⟩, ⟨6001, line1 7⟩] })] })] } };
      let b : Fin 16 := 2; let r : Nat := 5; regBit s (Reg.SEI_BAR_CTRL b) 31 = true ∧ (barOf s b).row = some r ∧
      (barOf s b).open'.rows ≠ 0 ∧ fixedMode s b = false ∧ (barOf s b).seams ≠ [] ∧ rowReady s b r = true ∧
      rowTaken s b = true ∧ stageRuns s 2 b (ownInsts s 0x11 2 b) = true)
    ∧ (let s : State :=
      on [(Reg.SEI_CAM_CTRL 2 0, 0x80030004#32)] { live with raw := 10 ^ 12, sei := { bars := [(2, { row := some 5 })] } };
      let b : Fin 16 := 2; let k : Fin 64 := 0; regBit s (Reg.SEI_CAM_CTRL b k) 31 = true ∧
      (slotOf s b k).stalled = false ∧ slotWaited s b k = true ∧
      max (barOf s b).since (slotOf s b k).newest + regFld s (Reg.SEI_BAR_STALL b) 15 0 * 1000 * oneNs ≤ timeNow s)
    ∧ (let s : State :=
      on [(Reg.OUT_TAP_CTRL 12, 0x18000000#32), (Reg.SEI_CAM_CTRL 2 0, 0x80030004#32)] { live with taps := { taps := [(12, { route := [.line (line1 7)] })] }, sei := { bars := [(2, { })] } };
      let b : Fin 16 := 2; let k : Fin 64 := 0; let tap : Nat := 12; let i : CapItem := .line (line1 7);
      let rest : List CapItem := []; regBit s (Reg.SEI_CAM_CTRL b k) 31 = true ∧ slotFull s b k = false ∧
      slotTap s b k = some tap ∧ (tapOf s tap).route = i :: rest ∧ stageRuns s 2 b (warpInst s b k) = true)
    ∧ (let s : State := live; let b : Fin 16 := 2; let k : Fin 64 := 0; slotWaited s b k = false) := by
  refine ⟨?_, ?_, ?_, ?_, ?_⟩ <;> (dsimp only [Reaches, PlainWrite, PlainRead, Accepts, CoreReady] <;> decide +kernel)

theorem witness_SeifModels :
    (let s : State :=
      on [(Reg.SEI_BAR_CTRL 2, 0x80010000#32), (Reg.SEI_CAM_CTRL 2 0, 0x80030004#32), (Reg.SEI_CAM_WIN 2 0 0, 0x80000000#32), (Reg.SEI_BAR_REG 2, 1#32), (Reg.SEI_BAR_MARK_REP 2, 5#32)] { live with erg := { insts := stages 2 2 [0x12] }, sei := { bars := [(2, { slots := [(0, { occ := some 3, targets := [⟨2, {}, 0⟩], model := some {} })] })] } };
      let b : Fin 16 := 2; let i : Nat := 2; readyOcc s b = some i)
    ∧ (let s : State :=
      on [(Reg.SEI_CAM_CTRL 2 0, 0x80030004#32)] { live with sei := { bars := [(2, { slots := [(0, { staged := [(0, 5#32)] })] })] } };
      let ini : Ini := .host; let b : Fin 16 := 2; let v : Word := 1#32; Reaches s ini (Reg.SEI_BAR_APPLY b) ∧
      bit v 0 = true)
    ∧ (let s : State := on [(Reg.SEI_CAM_CTRL 2 0, 0x80030004#32)] { live with sei := { bars := [(2, { })] } };
      let ini : Ini := .host; let b : Fin 16 := 2; let k : Fin 64 := 0; let v : Word := 0#32;
      Reaches s ini (Reg.SEI_CAM_LIM_Y b k) ∧ spanOk s b k v = true)
    ∧ (let s : State := { live with sei := { marks := [(15, { inq := [line1 7] })] } }; let j : Fin 16 := 15;
      let l : CapLine := line1 7; let rest : List CapLine := []; (markInst s j).inq = l :: rest ∧
      stageRuns s 1 (regFld s (Reg.SEI_PM_CTRL j) 23 16) (watchInst s 0x12 Reg.SEI_PM_CTRL j) = true)
    ∧ (let s : State :=
      on [(Reg.SEI_WB_CTRL 15, 0x100#32), (Reg.SEI_WB_WIN 15, 0x10000#32), (Reg.SEI_WB_THR 15, 8#32)] { live with sei := { webs := [(15, { inq := [line1 7] })] } };
      let i : Fin 16 := 15; let l : CapLine := line1 7; let rest : List CapLine := [];
      (webInst s i).inq = l :: rest ∧
      stageRuns s 1 (regFld s (Reg.SEI_WB_CTRL i) 23 16) (watchInst s 0x28 Reg.SEI_WB_CTRL i) = true ∧
      (∀ x ∈ 0 :: l.data, x < regFld s (Reg.SEI_WB_THR i) 15 0) ∧
      0 < regFld s (Reg.SEI_WB_CTRL i) 15 8 * regFld s (Reg.SEI_WB_WIN i) 31 16) := by
  refine ⟨?_, ?_, ?_, ?_, ?_⟩ <;> (dsimp only [Reaches, PlainWrite, PlainRead, Accepts, CoreReady] <;> decide +kernel)

theorem witness_ReferenceSources :
    (let s : State := on [(Reg.CMP_RS_LIST_SIZE 7, 16#32)] live; let ini : Ini := .host; let i : Fin 8 := 7;
      let v : Word := 15#32; Reaches s ini (Reg.CMP_RS_TAIL i) ∧
      fld v 15 0 < regFld s (Reg.CMP_RS_LIST_SIZE i) 15 0)
    ∧ (let s : State :=
      on [(Reg.CMP_RS_CTRL 7, 0xC0000000#32), (Reg.CMP_RS_LIST_SIZE 7, 16#32), (Reg.CMP_RS_TAIL 7, 1#32), (Reg.CMP_RS_HEAD 7, 15#32)] { live with gw := { up := true, mse := true, bme := true } };
      let i : Fin 8 := 7; regBit s (Reg.CMP_RS_CTRL i) 31 = true ∧ regBit s (Reg.CMP_RS_CTRL i) 30 = true ∧
      regFld s (Reg.CMP_RS_HEAD i) 15 0 ≠ regFld s (Reg.CMP_RS_TAIL i) 15 0 ∧ canIssue s = true)
    ∧ (let s : State :=
      on [(Reg.CMP_RS_CTRL 7, 0xC0000000#32), (Reg.CMP_BAR_CTRL 2, 0x87000000#32)] { live with cmp := { srcs := [(7, { tiles := [{ j := 0, addr := 0x100 }] })], bars := [(2, { next := 5 })] } };
      let i : Fin 8 := 7; let x : RefTile := { j := 0, addr := 0x100 };
      firstWhere (fun u => u.st == 0) (srcOf s i).tiles = some x ∧ regBit s (Reg.CMP_RS_CTRL i) 30 = true ∧
      ((srcOf s i).tiles.any fun u => u.st == 1) = false ∧ inPrefetch s i x.j = true ∧ slotFree s i x.j = true)
    ∧ (let s : State :=
      on [(Reg.CMP_RS_CTRL 7, 0xC0000000#32)] { live with cmp := { srcs := [(7, { tiles := [{ j := 0, addr := 0x100, st := 1 }] })] }, mov := { chans := [(0, { fins := [⟨0, 0, { src := 0, dst := 0, len := 0, attr := 0 }⟩] })] } };
      let i : Fin 8 := 7; let x : RefTile := { j := 0, addr := 0x100, st := 1 }; let f : MovFin :=
      ⟨0, 0, { src := 0, dst := 0, len := 0, attr := 0 }⟩; let rest : List MovFin := [];
      (chanOf s (regFld s (Reg.CMP_RS_CTRL i) 23 18)).fins = f :: rest ∧ f.status = 0 ∧ (srcOf s i).stale = 0 ∧
      firstWhere (fun u => u.st == 1) (srcOf s i).tiles = some x ∧ x.check = none) := by
  refine ⟨?_, ?_, ?_, ?_⟩
  · dsimp only [Reaches, PlainWrite, PlainRead, Accepts, CoreReady] <;> decide +kernel
  · dsimp only [Reaches, PlainWrite, PlainRead, Accepts, CoreReady] <;> decide +kernel
  · dsimp only [Reaches, PlainWrite, PlainRead, Accepts, CoreReady] <;> decide +kernel
  · dsimp only [Reaches, PlainWrite, PlainRead, Accepts, CoreReady] <;> decide +kernel

theorem witness_ComparatorStages :
    (let s : State :=
      on [(Reg.SEI_BAR_CTRL 2, 0x80000004#32), (Reg.CMP_BAR_CTRL 2, 0x80000000#32)] { live with sei := { bars := [(2, { out := [.row ⟨7, 0, {}, 1, [5]⟩] })] } };
      let b : Fin 16 := 2; let x : StRow := ⟨7, 0, {}, 1, [5]⟩; let rest : List BarItem := [];
      regBit s (Reg.CMP_BAR_CTRL b) 31 = true ∧ regBit s (Reg.SEI_BAR_CTRL b) 31 = true ∧ mainPowered s = true ∧
      stageHeld s b 0 = false ∧ (barOf s b).out = .row x :: rest)
    ∧ (let s : State :=
      on [(Reg.SEI_BAR_CTRL 2, 4#32), (Reg.CMP_BAR_CTRL 2, 0x80000000#32)] { live with cmp := { bars := [(2, { rows := [.row { r := 7, rho := 3, tag := {}, bands := 1, data := [5], reason := 0, stage := 0 }] })] } };
      let b : Fin 16 := 2; let y : CmpRow :=
      { r := 7, rho := 3, tag := {}, bands := 1, data := [5], reason := 0, stage := 0 }; let p : Int := 3;
      rowTurn s b 0 0x18 = some y ∧ y.reason = 0 ∧ reloading s b = false ∧
      firstWhere (fun p => (firstWhere (fun (e : Int × Option (List Nat)) => e.1 == p) (keepFrom s b 1 y.rho (cmpOf s b).refs)).isNone) (around y.rho (rngA s b + rngB s b)) = some p ∧
      refPoison s b p = [])
    ∧ (let s : State :=
      on [(Reg.SEI_BAR_CTRL 2, 4#32), (Reg.CMP_BAR_CTRL 2, 0x80000000#32)] { live with cmp := { bars := [(2, { rows := [.row { r := 7, rho := 3, tag := {}, bands := 1, data := [5], reason := 0, stage := 1 }] })] } };
      let b : Fin 16 := 2; let y : CmpRow :=
      { r := 7, rho := 3, tag := {}, bands := 1, data := [5], reason := 0, stage := 1 }; let p : Int := 3;
      rowTurn s b 1 0x19 = some y ∧ y.reason = 0 ∧
      firstWhere (fun p => !((keepFrom s b 3 y.rho (cmpOf s b).blurred).any fun (e : Int × List Nat) => e.1 == p)) (around y.rho (rngA s b)) = some p)
    ∧ (let s : State :=
      on [(Reg.SEI_BAR_CTRL 2, 4#32), (Reg.CMP_BAR_CTRL 2, 0x80000000#32)] { live with cmp := { bars := [(2, { rows := [.row { r := 7, rho := 3, tag := {}, bands := 1, data := [5], reason := 10, stage := 2 }] })] } };
      let b : Fin 16 := 2; let y : CmpRow :=
      { r := 7, rho := 3, tag := {}, bands := 1, data := [5], reason := 10, stage := 2 };
      rowTurn s b 2 0x1A = some y)
    ∧ (let s : State :=
      on [(Reg.SEI_BAR_CTRL 2, 4#32), (Reg.CMP_BAR_CTRL 2, 0x80000000#32)] { live with cmp := { bars := [(2, { rows := [.row { r := 7, rho := 3, tag := {}, bands := 1, data := [5], reason := 10, stage := 3 }] })] } };
      let b : Fin 16 := 2; let y : CmpRow :=
      { r := 7, rho := 3, tag := {}, bands := 1, data := [5], reason := 10, stage := 3 };
      rowTurn s b 3 0x1B = some y)
    ∧ (let s : State :=
      on [(Reg.SEI_BAR_CTRL 2, 4#32), (Reg.CMP_BAR_CTRL 2, 0x80000000#32)] { live with cmp := { bars := [(2, { rows := [.row { r := 7, rho := 3, tag := {}, bands := 1, data := [5], reason := 10, stage := 4 }] })] } };
      let b : Fin 16 := 2; let y : CmpRow :=
      { r := 7, rho := 3, tag := {}, bands := 1, data := [5], reason := 10, stage := 4 };
      (cmpOf s b).rows = [.row y] ∧ y.stage = 4 ∧ stageRuns s 2 b (cmpInsts s b 0x1C) = true)
    ∧ (let s : State := live; let ini : Ini := .host; let b : Fin 16 := 2; let v : Word := 0x81000000#32;
      Reaches s ini (Reg.CMP_BAR_LUT_CFG b) ∧ bit v 31 = true ∧ fld v 27 24 ≠ 0)
    ∧ (let s : State :=
      on [(Reg.CMP_BAR_LUT_CFG 2, 0x80000000#32)] { live with store := { lutBusy := [2] }, cmp := { bars := [(2, { reload := true })] } };
      let b : Fin 16 := 2; reloading s b = true)
    ∧ (let s : State :=
      on [(Reg.SEI_BAR_CTRL 2, 4#32), (Reg.CMP_BAR_CTRL 2, 0x80000000#32)] { live with cmp := { bars := [(2, { rows := [.row { r := 7, rho := 3, tag := {}, bands := 1, data := [5], reason := 10, stage := 0 }] })] } };
      let b : Fin 16 := 2; let y : CmpRow :=
      { r := 7, rho := 3, tag := {}, bands := 1, data := [5], reason := 10, stage := 0 };
      rowTurn s b 0 0x18 = some y ∧ y.reason ≠ 0)
    ∧ (let s : State :=
      on [(Reg.SEI_BAR_CTRL 2, 4#32), (Reg.CMP_BAR_CTRL 2, 0x80000000#32)] { live with cmp := { bars := [(2, { rows := [.row { r := 7, rho := 3, tag := {}, bands := 1, data := [5], reason := 10, stage := 1 }] })] } };
      let b : Fin 16 := 2; let y : CmpRow :=
      { r := 7, rho := 3, tag := {}, bands := 1, data := [5], reason := 10, stage := 1 };
      rowTurn s b 1 0x19 = some y ∧ y.reason ≠ 0) := by
  refine ⟨?_, ?_, ?_, ?_, ?_, ?_, ?_, ?_, ?_, ?_⟩ <;> (dsimp only [Reaches, PlainWrite, PlainRead, Accepts, CoreReady] <;> decide +kernel)

theorem witness_NozzleCycle :
    (let s : State :=
      on [(Reg.NZL_SD_CTRL 0, 0x82000000#32), (Reg.NZL_SD_STRIPE_REP 0, 5000#32), (Reg.NZL_SD_ROW 0 0, 0x80000000#32), (Reg.NZL_SD_STRIPE_GEOM 0, 0x10100000#32), (Reg.NZL_SD_STRIPE_Y0 0, 0#32)] { live with raw := 10 ^ 12, nzl := { sides := [{ top := some 15 }, {}] } };
      let d : Fin 2 := 0; let x : Nat := 15; s.nzl.sides.length = 2 ∧ sideValid s d = true ∧ stripeRep s d ≠ 0 ∧
      stripeCount s d ≠ 0 ∧ (sideOf s d).top = some x ∧
      (segmentAt s d (sideOf s d).seg).first + stripeSeg s d - 1 ≤ x ∧ stageRuns s 3 d (ownInsts s 0x20 3 d) = true)
    ∧ (let s : State := { live with cmp := { bars := [(2, { resid := [⟨4, {}, 1, [], [], []⟩] })] } };
      let b : Fin 16 := 2; let y : ResRow := ⟨4, {}, 1, [], [], []⟩; let rest : List ResRow := [];
      (cmpOf s b).resid = y :: rest ∧
      ((sidesOf s b).all fun d => rowCycle s (sideOf s d) y.tag != 2 && stageRuns s 3 d (ownInsts s 0x21 3 d)) = true)
    ∧ (let s : State :=
      on [(Reg.NZL_SD_CTRL 0, 0xC2000000#32)] { live with raw := 10 ^ 12, nzl := { sides := [{ runs := [⟨6, 0, 1⟩] }, {}] } };
      let d : Fin 2 := 0; let c : CycleRun := ⟨6, 0, 1⟩; let cs : List CycleRun := []; s.nzl.sides.length = 2 ∧
      (sideOf s d).runs = c :: cs ∧ mayClose s d c = true ∧ sideOn s d = true ∧
      stageRuns s 3 d (ownInsts s 0x22 3 d) = true)
    ∧ (let s : State :=
      on [(Reg.NZL_MOD_CTRL 7, 0x80000005#32), (Reg.NZL_MOD_COUNT 7, 16#32), (Reg.NZL_MOD_BASE 7, 0xFFFF0#32)] { live with acc := { held := [(latchKey .host (ledgerOff 0xFFFFF), 0x8001#32)] } };
      let ini : Ini := .host; let n : BitVec 20 := 0xFFFFF#20; let v : Word := 0x30000000#32; let lo : Word :=
      0x8001#32; let m : Nat := 7; Reaches s ini (ledgerOff n.toNat + 4) ∧ moduleAt s n.toNat = some m ∧
      mget? (latchKey ini (ledgerOff n.toNat)) s.acc.held = some lo ∧ fld v 31 29 ≠ 0 ∧ fld v 31 29 ≠ 7)
    ∧ (let s : State :=
      on [(Reg.NZL_SD_CTRL 0, 0x82000000#32)] { live with raw := 10 ^ 12, nzl := { sides := [{ runs := [⟨6, 0, 1⟩] }, {}] } };
      let d : Fin 2 := 0; let c : CycleRun := ⟨6, 0, 1⟩; let cs : List CycleRun := []; s.nzl.sides.length = 2 ∧
      (sideOf s d).runs = c :: cs ∧ mayClose s d c = true ∧ sideOn s d = false ∧
      stageRuns s 3 d (ownInsts s 0x22 3 d) = true) := by
  refine ⟨?_, ?_, ?_, ?_, ?_⟩ <;> (dsimp only [Reaches, PlainWrite, PlainRead, Accepts, CoreReady] <;> decide +kernel)

theorem witness_CorrectionDelivery :
    (let s : State :=
      { mate buddy [] grants with raw := 0, nzl := { mods := [(7, { set := some { cycle := 9, apply := 10 ^ 22, neutral := false, words := [1, 2, 3, 4], frames := [⟨0, 4, 1, 0⟩], late := false, met := false } })] }, regs := (Reg.NZL_MOD_CTRL 7, 0x80000005#32) :: (Reg.PT_CTRL 5, 0x80000007#32) :: grants };
      let f : RxFrame := rx 1 5 0x23 ([9] ++ zeros 11); let m : Fin 1024 := 7; let x : NzSet :=
      { cycle := 9, apply := 10 ^ 22, neutral := false, words := [1, 2, 3, 4], frames := [⟨0, 4, 1, 0⟩], late := false, met := false };
      let fr : NzFrame := ⟨0, 4, 1, 0⟩; Accepts s f 0x23 ∧
      (upto 1024).filter (fun k => modValid s k && modPartnerOf s k == f.src.toNat) = [m.val] ∧
      (nzModOf s m).set = some x ∧ x.cycle % 2 ^ 24 = leAt f.payload 0 3 ∧ x.frames = [fr] ∧
      fr.first = leAt f.payload 3 2 ∧ leAt f.payload 7 1 = 0)
    ∧ (let s : State :=
      { mate buddy [] grants with raw := 50000, nzl := { mods := [(7, { set := some { cycle := 9, apply := 10 ^ 22, neutral := false, words := [1, 2, 3, 4], frames := [⟨0, 4, 1, 0⟩], late := false, met := false } })] }, regs := (Reg.NZL_MOD_CTRL 7, 0x80000005#32) :: (Reg.PT_CTRL 5, 0x80000007#32) :: grants };
      let m : Fin 1024 := 7; let k : Fin 16 := 0; let x : NzSet :=
      { cycle := 9, apply := 10 ^ 22, neutral := false, words := [1, 2, 3, 4], frames := [⟨0, 4, 1, 0⟩], late := false, met := false };
      let fr : NzFrame := ⟨0, 4, 1, 0⟩; let rest : List NzFrame := []; (nzModOf s m).set = some x ∧
      x.frames.drop k = fr :: rest ∧ modValid s m = true ∧ (fr.st = 1 ∨ fr.st = 2) ∧ fr.since + 50000 ≤ s.raw ∧
      timeNow s < x.apply - moduleLead s m ∧ isActive s (modPartnerOf s m) = true)
    ∧ (let s : State :=
      { mate buddy [] grants with raw := 0, nzl := { mods := [(7, { set := some { cycle := 9, apply := 0, neutral := false, words := [1, 2, 3, 4], frames := [⟨0, 4, 3, 0⟩], late := false, met := false } })] }, regs := (Reg.NZL_MOD_CTRL 7, 0x80000005#32) :: (Reg.PT_CTRL 5, 0x80000007#32) :: grants };
      let d : Fin 2 := 0; let m : Nat := 7; let x : NzSet :=
      { cycle := 9, apply := 0, neutral := false, words := [1, 2, 3, 4], frames := [⟨0, 4, 3, 0⟩], late := false, met := false };
      s.nzl.sides.length = 2 ∧ sideMods s d = [m] ∧ (nzModOf s m).set = some x ∧ x.met = false ∧
      x.apply - moduleLead s m ≤ timeNow s ∧ setAcked x = true)
    ∧ (let s : State :=
      { mate buddy [] grants with raw := 0, nzl := { mods := [(7, { set := some { cycle := 9, apply := 0, neutral := false, words := [1, 2, 3, 4], frames := [⟨0, 4, 3, 0⟩], late := false, met := true } })] }, regs := (Reg.NZL_MOD_CTRL 7, 0x80000005#32) :: (Reg.PT_CTRL 5, 0x80000007#32) :: grants };
      let d : Fin 2 := 0; let m : Nat := 7; let x : NzSet :=
      { cycle := 9, apply := 0, neutral := false, words := [1, 2, 3, 4], frames := [⟨0, 4, 3, 0⟩], late := false, met := true };
      m ∈ sideMods s d ∧ (nzModOf s m).set = some x ∧ x.met = true ∧ x.apply ≤ timeNow s)
    ∧ (let s : State := on [(Reg.NZL_SD_CTRL 0, 0x80000000#32), (Reg.NZL_MOD_CTRL 7, 0x80000005#32)] live;
      let ini : Ini := .host; let d : Fin 2 := 0; let v : Word := 0xC0000000#32; Reaches s ini (Reg.NZL_SD_CTRL d) ∧
      regBit s (Reg.NZL_SD_CTRL d) 30 = false ∧ bit v 30 = true) := by
  refine ⟨?_, ?_, ?_, ?_, ?_⟩ <;> (dsimp only [Reaches, PlainWrite, PlainRead, Accepts, CoreReady] <;> decide +kernel)

theorem witness_OwnershipPorts :
    (let s : State := { live with store := { granules := [(3, 0x6000)] } }; let ini : Ini := .host; let i : Fin 6 :=
      0; let g : Bool := true; let n : BitVec 21 := 5#21; let f : Nat := 4; Reaches s ini (Reg.MEM_AP_CTRL i) ∧
      portBusy s i = false ∧ n ≠ 0#21 ∧ freeRun (unitCount (b2n g)) n.toNat 0 (ownersOf s (b2n g)) = some f)
    ∧ (let s : State :=
      on [(Reg.MEM_AP_INDEX 0, 0xEFFFE#32), (Reg.MEM_AP_OWNER 0, 0#32)] { live with store := { granules := [(983038, 0x6000), (983039, 0x6000)] } };
      let ini : Ini := .host; let i : Fin 6 := 0; let g : Bool := true; let n : BitVec 21 := 2#21;
      Reaches s ini (Reg.MEM_AP_CTRL i) ∧ portBusy s i = false ∧ n ≠ 0#21 ∧
      regFld s (Reg.MEM_AP_INDEX i) 19 0 + n.toNat ≤ unitCount (b2n g) ∧
      checkUnits s (b2n g) (portOwner i) (regFld s (Reg.MEM_AP_INDEX i) 19 0) n.toNat = none)
    ∧ (let s : State :=
      on [(Reg.MEM_AP_INDEX 0, 0xEFFFE#32), (Reg.MEM_AP_OWNER 0, 0x7002#32)] { live with store := { granules := [(983038, 0x6000), (983039, 0x6000)] } };
      let ini : Ini := .host; let i : Fin 6 := 0; let g : Bool := true; let n : BitVec 21 := 2#21;
      Reaches s ini (Reg.MEM_AP_CTRL i) ∧ portBusy s i = false ∧ n ≠ 0#21 ∧
      regFld s (Reg.MEM_AP_INDEX i) 19 0 + n.toNat ≤ unitCount (b2n g) ∧ 1 ≤ regFld s (Reg.MEM_AP_OWNER i) 15 12 ∧
      regFld s (Reg.MEM_AP_OWNER i) 15 12 < 8 ∧
      checkUnits s (b2n g) (portOwner i) (regFld s (Reg.MEM_AP_INDEX i) 19 0) n.toNat = none)
    ∧ (let s : State :=
      on [(Reg.MEM_AP_INDEX 0, 0xEFFFF#32), (Reg.MEM_AP_OWNER 0, 0#32)] { live with store := { granules := [(983038, 0x6000), (983039, 0x6000)] } };
      let ini : Ini := .host; let i : Fin 6 := 0; let g : Bool := true; Reaches s ini (Reg.MEM_AP_CTRL i) ∧
      portBusy s i = false ∧ regFld s (Reg.MEM_AP_INDEX i) 19 0 < unitCount (b2n g)) := by
  refine ⟨?_, ?_, ?_, ?_⟩
  · dsimp only [Reaches, PlainWrite, PlainRead, Accepts, CoreReady] <;> decide +kernel
  · dsimp only [Reaches, PlainWrite, PlainRead, Accepts, CoreReady] <;> decide +kernel
  · dsimp only [Reaches, PlainWrite, PlainRead, Accepts, CoreReady] <;> decide +kernel
  · dsimp only [Reaches, PlainWrite, PlainRead, Accepts, CoreReady] <;> decide +kernel

theorem witness_MemoryAccess :
    (let s : State := live; let a : BitVec 40 := 0xFFE#40; let bs : List Byte := [1, 2, 0, 4]; s.mainReset = false ∧
      inMap a.toNat bs.length = true ∧ memPowered s a.toNat = true ∧ guardOf s a.toNat bs.length = .none)
    ∧ (let s : State := { live with mem := [(0x1001, 5#8)] }; let a : BitVec 40 := 0x1000#40; s.mainReset = false ∧
      inMap a.toNat 4 = true ∧ memPowered s a.toNat = true ∧ poisoned s a.toNat 4 = [])
    ∧ (let s : State := live; s.store.poison = [])
    ∧ (let s : State := on [(Reg.CVU_U_LEN 15, 4#32)] live; let ini : Ini := .host; let u : Fin 16 := 15;
      let v : Word := 0x80000000#32; Reaches s ini (Reg.CVU_U_CTRL u) ∧ bit v 31 = true ∧
      regBit s (Reg.CVU_U_CTRL u) 31 = false ∧ regGet s (Reg.CVU_U_LEN u) ≠ 0#32)
    ∧ (let s : State :=
      on [(Reg.CVU_U_CTRL 15, 0x80000000#32)] { live with plk := { cvuRuns := [(15, ⟨0, false, 0, 4⟩)] }, mem := [(1, 7#8)] };
      let u : Fin 16 := 15; let r : CvuRun := ⟨0, false, 0, 4⟩; mget? u.val s.plk.cvuRuns = some r ∧ r.alg < 2 ∧
      inMap r.addr r.len = true ∧ memPowered s r.addr = true ∧ poisoned s r.addr r.len = []) := by
  refine ⟨?_, ?_, ?_, ?_, ?_⟩ <;> (dsimp only [Reaches, PlainWrite, PlainRead, Accepts, CoreReady] <;> decide +kernel)

theorem witness_ResultQueues :
    (let s : State :=
      on [(Reg.OUT_TAP_CTRL 9, 0x3F0000#32), (Reg.MEM_RQ_CTRL 63, 0x80000000#32), (Reg.MEM_RQ_SIZE 63, 1#32), (Reg.MEM_RQ_HEAD 63, 0xFC0#32)] { live with gw := { up := true, mse := true, bme := true }, store := { producers := [(9, { buf := [{ kind := 1, source := 9, payload := [1, 2] }] })], rqs := [(63, { tail := 0xFC0, enNow := true })] } };
      let n : BitVec 16 := 9#16; let q : Fin 64 := 63; let p : Packet :=
      { kind := 1, source := 9, payload := [1, 2] }; let ps : List Packet := []; queueOf s n.toNat = some q.val ∧
      (producerOf s n.toNat).buf = p :: ps ∧ p.due = none ∧ rqOpen s q = true ∧
      rqPlace s q (padded (8 + p.payload.length)) = some false)
    ∧ (let s : State :=
      on [(Reg.MEM_RQ_NOTIFY 63, 9#32)] { live with raw := 4500, store := { rqs := [(63, { news := 1 })] } };
      let q : Fin 64 := 63; regFld s (Reg.MEM_RQ_NOTIFY q) 15 0 ≠ 0 ∧ (rqOf s q).news ≠ 0 ∧
      (rqOf s q).since + 500 * regFld s (Reg.MEM_RQ_NOTIFY q) 15 0 ≤ s.raw)
    ∧ (let s : State := live; let ini : Ini := .host; let q : Fin 64 := 63; let v : Word := 0x40000000#32;
      Reaches s ini (Reg.MEM_RQ_CTRL q) ∧ bit v 30 = true)
    ∧ (let s : State := on [(Reg.MEM_RQ_SIZE 63, 1#32), (Reg.MEM_RQ_HEAD 63, 0x40#32)] live; let ini : Ini := .host;
      let q : Fin 64 := 63; let v : Word := 0x80000000#32; Reaches s ini (Reg.MEM_RQ_CTRL q) ∧ bit v 31 = true ∧
      (rqOf s q).enNow = false)
    ∧ (let s : State := { live with store := { rqs := [(63, { flush := true, news := 2 })] } }; let q : Fin 64 :=
      63; (rqOf s q).flush = true)
    ∧ (let s : State :=
      on [(Reg.MEM_RQ_SIZE 63, 1#32)] { live with store := { rqs := [(63, { tail := 0xFC0, enNow := true })] } };
      let ini : Ini := .host; let q : Fin 64 := 63; let v : Word := 0xFC0#32; Reaches s ini (Reg.MEM_RQ_HEAD q) ∧
      v.toNat % 64 = 0 ∧ v.toNat < rqSize s q ∧
      (v.toNat + rqSize s q - rqHead s q) % rqSize s q ≤ ((rqOf s q).tail + rqSize s q - rqHead s q) % rqSize s q) := by
  refine ⟨?_, ?_, ?_, ?_, ?_, ?_⟩ <;> (dsimp only [Reaches, PlainWrite, PlainRead, Accepts, CoreReady] <;> decide +kernel)

theorem witness_MoverChannels :
    (let s : State := on [(Reg.MOV_CH_ENTRIES 63, 16#32)] live; let ini : Ini := .host; let c : Fin 64 := 63;
      let v : Word := 15#32; Reaches s ini (Reg.MOV_CH_TAIL c) ∧ chBound s c = false ∧ fld v 15 0 < chEntries s c)
    ∧ (let s : State := on [(Reg.MOV_CH_ENTRIES 63, 16#32), (Reg.MOV_CH_TAIL 63, 5#32)] live; let ini : Ini :=
      .host; let c : Fin 64 := 63; let v : Word := 0x80000000#32; Reaches s ini (Reg.MOV_CH_CTRL c) ∧
      chBound s c = false ∧ chEn s c = false ∧ bit v 31 = true ∧ bit v 27 = false ∧ bit v 29 = false)
    ∧ (let s : State :=
      on [(Reg.MOV_CH_CTRL 63, 0x90000000#32)] { live with mov := { chans := [(63, { posts := [{ src := 0x1000, dst := 0x2000, len := 4, attr := 0 }] })] } };
      let c : Nat := 63; let d : Desc := { src := 0x1000, dst := 0x2000, len := 4, attr := 0 };
      let rest : List Desc := []; s.mov.run = none ∧ nextChannel s = some c ∧ chBound s c = true ∧
      (chanOf s c).posts = d :: rest ∧ descReject d = 0 ∧ d.len ≠ 0)
    ∧ (let s : State :=
      on [(Reg.MOV_CH_CTRL 63, 0x90000000#32)] { live with mov := { run := some ⟨63, { src := 0x1000, dst := 0x2000, len := 4, attr := 0 }, []⟩ } };
      let r : MovRun := ⟨63, { src := 0x1000, dst := 0x2000, len := 4, attr := 0 }, []⟩; s.mov.run = some r ∧
      r.ch < 64 ∧ (r.desc.usesHost = false ∨ canIssue s = true))
    ∧ (let s : State :=
      on [(Reg.MOV_CH_CTRL 63, 0x80000000#32), (Reg.MOV_CH_ENTRIES 63, 16#32), (Reg.MOV_CH_TAIL 63, 15#32)] { live with mov := { chans := [(63, { halted := true })] } };
      let ini : Ini := .host; let c : Fin 64 := 63; let v : Word := 0xC0000000#32;
      Reaches s ini (Reg.MOV_CH_CTRL c) ∧ chBound s c = false ∧ chEn s c = true ∧ bit v 30 = true ∧
      bit v 29 = false)
    ∧ (let s : State :=
      on [(Reg.MOV_CH_CTRL 63, 0x80000000#32), (Reg.MOV_CH_ENTRIES 63, 16#32), (Reg.MOV_CH_TAIL 63, 15#32)] { live with mov := { chans := [(63, { halted := false })] } };
      let ini : Ini := .host; let c : Fin 64 := 63; let v : Word := 0xA0000000#32;
      Reaches s ini (Reg.MOV_CH_CTRL c) ∧ chBound s c = false ∧ chEn s c = true ∧ bit v 29 = true ∧
      s.mov.run = none) := by
  refine ⟨?_, ?_, ?_, ?_, ?_, ?_⟩ <;> (dsimp only [Reaches, PlainWrite, PlainRead, Accepts, CoreReady] <;> decide +kernel)

theorem witness_JournalExtents :
    (let s : State := live; let ini : Ini := .host; let v : Word := 2#32; Reaches s ini Reg.JRN_CTRL ∧
      jrnOn s = false ∧ bit v 1 = true ∧ bit v 2 = false)
    ∧ (let s : State := jrnS { full := true } [] []; let e : Nat := 0; let w : Nat := 0; let k : Nat := 0;
      let ks : List Nat := [1]; s.jrn.full = true ∧ jrnOn s = true ∧ s.jrn.ext = none ∧ s.jrn.jobs = [] ∧
      nextExtent s = some (e, w) ∧ stagesFree s = k :: ks)
    ∧ (let s : State :=
      jrnS { ext := some { extent := 0, window := 0, buf := 0, records := 1, fill := 512 } } [] []; let ini : Ini :=
      .host; let v : Word := 6#32; let x : JExt :=
      { extent := 0, window := 0, buf := 0, records := 1, fill := 512 }; Reaches s ini Reg.JRN_CTRL ∧
      bit v 2 = true ∧ bit v 1 = jrnOn s ∧ s.jrn.ext = some x)
    ∧ (let s : State :=
      { jrnS { ext := some { extent := 0, window := 0, buf := 0, records := 1, fill := 512 } } [] [] with raw := 10 ^ 12 };
      let x : JExt := { extent := 0, window := 0, buf := 0, records := 1, fill := 512 }; s.jrn.ext = some x ∧
      x.records ≠ 0 ∧ x.since + 500 * ageUs s ≤ s.raw)
    ∧ (let s : State :=
      jrnS { ext := some { extent := 0, window := 0, buf := 0, records := 1, fill := 512 } } [] []; let ini : Ini :=
      .host; let v : Word := 0#32; let x : JExt :=
      { extent := 0, window := 0, buf := 0, records := 1, fill := 512 }; Reaches s ini Reg.JRN_CTRL ∧
      jrnOn s = true ∧ bit v 1 = false ∧ bit v 2 = false ∧ s.jrn.note = none ∧ s.jrn.wait = [] ∧ s.jrn.ext = some x)
    ∧ (let s : State := jrnS { } [] []; let ini : Ini := .host; let w : Fin 16 := 15;
      Reaches s ini (Reg.JRN_WIN_FIRST w) ∧ jwinEn s w = false ∧ winBusy s w = false)
    ∧ (let s : State :=
      jrnS { ext := some { extent := 0, window := 0, buf := 0, records := 1, fill := 512 } } [] []; let x : JExt :=
      { extent := 0, window := 0, buf := 0, records := 1, fill := 512 }; s.jrn.ext = some x ∧
      s.raw < x.since + 500 * ageUs s) := by
  refine ⟨?_, ?_, ?_, ?_, ?_, ?_, ?_⟩ <;> (dsimp only [Reaches, PlainWrite, PlainRead, Accepts, CoreReady] <;> decide +kernel)

theorem witness_JournalRecords :
    (let s : State :=
      { jrnS { ext := some { extent := 0, window := 0, buf := 0, fill := 2 ^ 24 - 48 } } [(Reg.OUT_TAP_CTRL 9, 0x4000000#32)] [] with store := { producers := [(9, { buf := [{ kind := 2, source := 9, payload := [1, 2] }] })] } };
      let n : BitVec 16 := 9#16; let p : Packet := { kind := 2, source := 9, payload := [1, 2] };
      let ps : List Packet := []; let x : JExt := { extent := 0, window := 0, buf := 0, fill := 2 ^ 24 - 48 };
      jrnOn s = true ∧ s.jrn.wait = [] ∧ (producerOf s n.toNat).buf = p :: ps ∧ mayAccept s n.toNat = true ∧
      s.jrn.ext = some x ∧ recLen p.payload ≤ 2 ^ 24 - x.fill ∧ gapsOf p = [])
    ∧ (let s : State := jrnS { } [] []; let ini : Ini := .host; let v : Word := 1#32;
      Reaches s ini Reg.JRN_NOTE_GO ∧ bit v 0 = true ∧ noteRefusal s = 0)
    ∧ (let s : State :=
      jrnS { note := some (zeros 32), ext := some { extent := 0, window := 0, buf := 0, records := 1, fill := 512 } } [] [];
      let n : List Byte := zeros 32; let x : JExt :=
      { extent := 0, window := 0, buf := 0, records := 1, fill := 512 }; jrnOn s = true ∧ s.jrn.wait = [] ∧
      s.jrn.owed = none ∧ s.jrn.note = some n ∧ s.jrn.ext = some x ∧ recLen n ≤ 2 ^ 24 - x.fill)
    ∧ (let s : State :=
      { jrnS { jobs := [{ ext := { extent := 0, window := 0, buf := 0, records := 1, fill := 512 }, seq := 4, reason := 0 }] } [] [] with mov := { chans := [(0, { fins := [⟨0, 0, { src := 0, dst := 0, len := 0, attr := 0 }⟩] })] } };
      let f : MovFin := ⟨0, 0, { src := 0, dst := 0, len := 0, attr := 0 }⟩; let j : JJob :=
      { ext := { extent := 0, window := 0, buf := 0, records := 1, fill := 512 }, seq := 4, reason := 0 };
      copyReport s = some (f, j) ∧ copyFailed f = false ∧ j.header = false)
    ∧ (let s : State :=
      { jrnS { jobs := [{ ext := { extent := 0, window := 0, buf := 0, records := 1, fill := 512 }, seq := 4, reason := 0 }] } [] [] with mov := { chans := [(0, { fins := [⟨1, 0, { src := 0, dst := 0, len := 0, attr := 0 }⟩] })] } };
      let f : MovFin := ⟨1, 0, { src := 0, dst := 0, len := 0, attr := 0 }⟩; let j : JJob :=
      { ext := { extent := 0, window := 0, buf := 0, records := 1, fill := 512 }, seq := 4, reason := 0 };
      copyReport s = some (f, j) ∧ copyFailed f = true ∧ j.tries = 0)
    ∧ (let s : State := jrnS { } [(Reg.JRN_OP_COUNT, 1#32), (Reg.JRN_OP_EXT, 0#32)] [(0x100007, 0x60#8)];
      let ini : Ini := .host; let v : Word := 0x80000000#32; Reaches s ini Reg.JRN_OP ∧ opBusy s = false ∧
      bit v 31 = true ∧ fld v 30 28 = 0 ∧ regFld s Reg.JRN_OP_COUNT 28 0 = 1 ∧
      regFld s Reg.JRN_OP_EXT 27 0 < jrnExtents s ∧ extentState s (regFld s Reg.JRN_OP_EXT 27 0) = 3)
    ∧ (let s : State := jrnS { } [(Reg.JRN_OP_COUNT, 1#32), (Reg.JRN_OP_EXT, 0#32)] [(0x100007, 0x80#8)];
      let ini : Ini := .host; let v : Word := 0x90000000#32; Reaches s ini Reg.JRN_OP ∧ opBusy s = false ∧
      bit v 31 = true ∧ fld v 30 28 = 1 ∧ regFld s Reg.JRN_OP_COUNT 28 0 = 1 ∧
      regFld s Reg.JRN_OP_EXT 27 0 < jrnExtents s ∧ extentState s (regFld s Reg.JRN_OP_EXT 27 0) = 4)
    ∧ (let s : State := jrnS { } [(Reg.JRN_OP_COUNT, 1#32), (Reg.JRN_OP_EXT, 0#32)] [(0x100007, 0x80#8)];
      let ini : Ini := .host; let v : Word := 0xA0000000#32; Reaches s ini Reg.JRN_OP ∧ opBusy s = false ∧
      bit v 31 = true ∧ fld v 30 28 = 2 ∧ regFld s Reg.JRN_OP_EXT 27 0 < jrnExtents s) := by
  refine ⟨?_, ?_, ?_, ?_, ?_, ?_, ?_, ?_⟩ <;> (dsimp only [Reaches, PlainWrite, PlainRead, Accepts, CoreReady] <;> decide +kernel)

theorem witness_GatewayErrors :
    (let s : State := live; s.gw.up = true)
    ∧ (let s : State := live; s.gw.up = true)
    ∧ (let s : State := { live with gw := { up := true, reads := [⟨5, 0x0E, 0, 0x1000⟩] } }; let k : BitVec 10 :=
      5#10; let r : HostRead := ⟨5, 0x0E, 0, 0x1000⟩; firstWhere (fun x => x.tag == k.toNat) s.gw.reads = some r ∧
      r.block ≠ 0x10)
    ∧ (let s : State := live; s.gw.up = true ∧ s.gw.flr = false)
    ∧ (let s : State :=
      { live with raw := 4000000, gw := { up := true, flr := true, reads := [⟨5, 0x0E, 0, 0x1000⟩] } };
      s.gw.flr = true ∧ flrCut s = true)
    ∧ (let s : State :=
      on [(Reg.HGW_WIN_BASE_LO 0, 0x1000#32)] { live with gw := { up := true, mse := true, flr := true, unmasked := 3 } };
      s.gw.flr = true ∧ (s.gw.reads = [] ∨ flrCut s = true)) := by
  refine ⟨?_, ?_, ?_, ?_, ?_, ?_⟩ <;> (dsimp only [Reaches, PlainWrite, PlainRead, Accepts, CoreReady] <;> decide +kernel)

theorem witness_HostLink :
    (let s : State :=
      on [(Reg.HGW_CAP_UP, 9#32)] { live with gw := { up := true, reads := [⟨5, 0x0E, 0, 0x1000⟩] } };
      s.gw.up = true)
    ∧ (let s : State := { live with gw := {} }; s.gw.up = false)
    ∧ (let s : State := { live with gw := { up := true, speed := 6, fullWidth := 16, width := 16 } };
      let sp : LinkSpeed := .g320; s.gw.up = true ∧ s.gw.speed ≠ speedCode sp)
    ∧ (let s : State := live; s.gw.up = true ∧ s.gw.flr = false)
    ∧ (let s : State := live; s.gw.up = true ∧ s.gw.flr = false)
    ∧ (let s : State := live; s.gw.up = true ∧ s.gw.flr = false)
    ∧ (let s : State := { live with gw := { up := true, aspm := true } }; s.gw.up = true ∧ s.gw.aspm = true ∧
      s.gw.waiting = [] ∧ s.gw.reads = [])
    ∧ (let s : State :=
      on [(Reg.HGW_CTRL, 0#32)] { live with gw := { up := true, speed := 6, fullWidth := 16, width := 4 } };
      s.gw.up = true ∧ regBit s Reg.HGW_CTRL 0 = false ∧ regFld s Reg.HGW_L0P_POLICY 1 0 = 0) := by
  refine ⟨?_, ?_, ?_, ?_, ?_, ?_, ?_, ?_⟩ <;> (dsimp only [Reaches, PlainWrite, PlainRead, Accepts, CoreReady] <;> decide +kernel)

theorem witness_RegisterWrites :
    (let s : State := on [(Reg.MEM_CTRL, 0x80000000#32)] live; let ini : Ini := .host; let off : BitVec 26 :=
      0xE00008#26; let v : Word := 5#32; let d : RegDesc := regAt 0xE00008; Reaches s ini off.toNat ∧
      PlainWrite ini off.toNat v ∧ descAt off.toNat = some d ∧ ini ≠ .cfg)
    ∧ (let s : State := live; let ini : Ini := .host; let off : BitVec 26 := 0xE00018#26; let v : Word := 0#32;
      let d : RegDesc := regAt 0xE00018; let f : Field :=
      ((regAt 0xE00018).fields.find? fun f => f.zeroBad).getD (fd 0 0 .rw); Reaches s ini off.toNat ∧
      PlainWrite ini off.toNat v ∧ descAt off.toNat = some d ∧ d.words ≤ 1 ∧ d.lvl ≠ .expert ∧ ini ≠ .cfg ∧
      f ∈ d.fields ∧ f.acc = .rw ∧ f.zeroBad = true ∧ fld v f.hi f.lo = 0)
    ∧ (let s : State := live; let ini : Ini := .host; let off : BitVec 26 := 0xE00008#26; let v : Word := 0#32;
      Reaches s ini (lockReg off.toNat) ∧
      ((descAt (lockReg off.toNat)).any fun d => d.fields.any fun f => f.acc == .w1s && f.hi == 31 && f.lo == 31) = true ∧
      PlainWrite ini (lockReg off.toNat) (setFld v 31 31 1)) := by
  refine ⟨?_, ?_, ?_⟩ <;> (dsimp only [Reaches, PlainWrite, PlainRead, Accepts, CoreReady] <;> decide +kernel)

theorem witness_WideQuantities :
    (let s : State := on [(Reg.EVT_Q_BASE_HI, 7#32)] live; let ini : Ini := .core 3; let off : BitVec 26 :=
      0x120000C#26; let d : RegDesc := regAt 0x120000C; Reaches s ini off.toNat ∧ PlainRead off.toNat ∧
      descAt off.toNat = some d ∧ d.words = 2 ∧ d.word = 0)
    ∧ (let s : State := { live with acc := { latch := [(latchKey .debug 0x1200010, 9#32)] } }; let ini : Ini :=
      .debug; let off : BitVec 26 := 0x1200010#26; let d : RegDesc := regAt 0x1200010; Reaches s ini off.toNat ∧
      PlainRead off.toNat ∧ descAt off.toNat = some d ∧ 2 ≤ d.words ∧ d.word ≠ 0)
    ∧ (let s : State := { live with acc := { held := [(latchKey .host Reg.CFG_LD_ADDR_LO, 0xFFFFFFFF#32)] } };
      let ini : Ini := .host; let lo : Word := 0xFFFFFFFF#32; Reaches s ini Reg.CFG_LD_ADDR_HI ∧ ini ≠ .cfg ∧
      mget? (latchKey ini Reg.CFG_LD_ADDR_LO) s.acc.held = some lo)
    ∧ (let s : State := live; let ini : Ini := .host; Reaches s ini Reg.CFG_LD_ADDR_HI ∧ ini ≠ .cfg ∧
      mget? (latchKey ini Reg.CFG_LD_ADDR_LO) s.acc.held = none) := by
  refine ⟨?_, ?_, ?_, ?_⟩ <;> (dsimp only [Reaches, PlainWrite, PlainRead, Accepts, CoreReady] <;> decide +kernel)

theorem witness_UnmappedOffsets :
    (let s : State := live; let ini : Ini := .host; let off : BitVec 30 := 0x3FFFFFF#30; s.mainReset = false ∧
      (ini = .host → takesRequests s = true ∧ gwBusy s = false) ∧
      (regionOf (off.toNat / 4 * 4) = 0xFF ∨ (blockPowered s (blockOf (off.toNat / 4 * 4)) = true ∧
      descAt (off.toNat / 4 * 4) = none ∧ regionOf (off.toNat / 4 * 4) ≠ 0x30)))
    ∧ (let s : State := live; let off : BitVec 30 := 0x30000000#30; takesRequests s = true ∧ gwBusy s = false ∧
      0x30000000 ≤ off.toNat ∧
      (ptAbsent (off.toNat / 0x10000 % 0x1000) = true ∨ ptValid s (off.toNat / 0x10000 % 0x1000) = false ∨ leAt (partnerOf s (off.toNat / 0x10000 % 0x1000)).desc 56 4 ≤ off.toNat / 4 * 4 % 0x10000))
    ∧ (let s : State := live; let off : BitVec 30 := 0x400#30; takesRequests s = true ∧ gwBusy s = false ∧
      0x400 ≤ off.toNat / 4 * 4 ∧ off.toNat / 4 * 4 ≠ 0x8000 ∧ off.toNat / 4 * 4 ≠ 0x8004) := by
  refine ⟨?_, ?_, ?_⟩ <;> (dsimp only [Reaches, PlainWrite, PlainRead, Accepts, CoreReady] <;> decide +kernel)

theorem witness_Levels :
    (let s : State := live; let ini : Ini := .host; let off : BitVec 26 := 0x1200004#26; let v : Word := 1#32;
      noBoundary (levelUnit off.toNat) = true ∧ Reaches s ini (levelUnit off.toNat) ∧
      (PlainWrite ini (levelUnit off.toNat) v ∨ levelUnit off.toNat = Reg.HAM_CTRL ∨ levelUnit off.toNat = Reg.EVT_CTRL))
    ∧ (let s : State := live; let ini : Ini := .host; let off : BitVec 26 := BitVec.ofNat 26 Reg.ERG_CTRL;
      (levelUnit off.toNat = Reg.ERG_CTRL ∨ levelUnit off.toNat = Reg.MOV_CTRL) ∧
      Reaches s ini (levelUnit off.toNat))
    ∧ (let s : State :=
      on [(Reg.ERG_CTRL, 0#32)] { live with acc := { expert := [Reg.ERG_CTRL], ignored := [(Reg.ERG_CTRL, 0)] } };
      let u : BitVec 26 := BitVec.ofNat 26 Reg.ERG_CTRL; levelUnit u.toNat = u.toNat ∧ s.mainReset = false ∧
      blockPowered s (blockOf u.toNat) = true)
    ∧ (let s : State := live; let ini : Ini := .host; let off : BitVec 26 := 0xE00028#26; let v : Word := 1#32;
      let d : RegDesc := regAt 0xE00028; Reaches s ini off.toNat ∧ PlainWrite ini off.toNat v ∧
      descAt off.toNat = some d ∧ d.lvl = .expert ∧ ini ≠ .cfg ∧ atExpert s (levelUnit off.toNat) = false) := by
  refine ⟨?_, ?_, ?_, ?_⟩ <;> (dsimp only [Reaches, PlainWrite, PlainRead, Accepts, CoreReady] <;> decide +kernel)

theorem witness_SerialOrder :
    (let a : Nat := 5; let b : Nat := 4294967290; a < 2 ^ 32 ∧ b < 2 ^ 32)
    ∧ (let a : Nat := 7; let b : Nat := 2147483655; a < 2 ^ 32 ∧ b < 2 ^ 32 ∧ (a + 2 ^ 31) % 2 ^ 32 = b) := by
  refine ⟨?_, ?_⟩ <;> (dsimp only [Reaches, PlainWrite, PlainRead, Accepts, CoreReady] <;> decide +kernel)

theorem witness_ConfigLoad :
    (let s : State := { live with mainReset := true }; s.mainReset = true ∧ hamOn s = true ∧
      (s.ham.starting = true → suppliesGood s = true))
    ∧ (let s : State := on [(Reg.CFG_LD_ADDR_LO, 0x10000#32), (Reg.CFG_LD_LEN, 80#32)] live; let ini : Ini := .host;
      let v : Word := 2#32; Reaches s ini Reg.CFG_CTRL ∧ engineBusy s = false ∧ regBit s Reg.CFG_CTRL 31 = false ∧
      bit v 31 = false ∧ regGet s Reg.CFG_LD_LEN ≠ 0#32)
    ∧ (let s : State := cfgS fullImage { loading := true, hostLoad := true, st := 1 } []; let c : Candidate := good;
      let img : List Byte := fullImage; let i : Image :=
      { seq := 7, base := 0, partial' := false, inplaceOk := false, recs := [⟨5, 192, 0x501, [0, 0, 1, 0x80, 0, 0, 0, 0, 0x40, 0, 0, 0]⟩, ⟨5, 208, 0x501, [0, 0, 2, 0x80, 0x40, 0, 0, 0, 0x40, 0, 0, 0]⟩] };
      s.cfg.loading = true ∧ s.cfg.hostLoad = true ∧ s.mainReset = false ∧ loadImage s = some img ∧
      c.readable = true ∧ checkFull s img true c.fit 13 = .ok i)
    ∧ (let s : State := cfgS (zeros 80) { loading := true, hostLoad := true, st := 1 } []; let c : Candidate :=
      good; let img : List Byte := zeros 80; let e : ImgBad := ⟨1, 0, 0⟩; s.cfg.loading = true ∧
      s.cfg.hostLoad = true ∧ s.mainReset = false ∧ loadImage s = some img ∧
      checkFull s img c.readable c.fit 13 = .error e)
    ∧ (let s : State := on [(Reg.CFG_LD_ADDR_LO, 0x10000#32), (Reg.CFG_LD_LEN, 80#32)] live; let ini : Ini := .host;
      let v : Word := 0x8#32; Reaches s ini Reg.CFG_CTRL ∧ engineBusy s = false ∧ regBit s Reg.CFG_CTRL 31 = false ∧
      bit v 31 = false ∧ bit v 2 = false ∧ bit v 6 = false ∧ regGet s Reg.CFG_LD_LEN ≠ 0#32)
    ∧ (let s : State := on [(Reg.CFG_SEQ, 7#32), (Reg.CFG_SEQ_FLOOR, 6#32)] { live with cfg := { full := true } };
      let ini : Ini := .host; let v : Word := 0x80#32; Reaches s ini Reg.CFG_CTRL ∧ s.cfg.full = true ∧
      bit v 5 = false ∧ seqNewer (regGet s Reg.CFG_SEQ_FLOOR).toNat (regGet s Reg.CFG_SEQ).toNat = false) := by
  refine ⟨?_, ?_, ?_, ?_, ?_, ?_⟩
  · dsimp only [Reaches, PlainWrite, PlainRead, Accepts, CoreReady] <;> decide +kernel
  · dsimp only [Reaches, PlainWrite, PlainRead, Accepts, CoreReady] <;> decide +kernel
  · exact ⟨by decide +kernel, by decide +kernel, by decide +kernel, by decide +kernel, by decide +kernel, okIs (by decide +kernel)⟩
  · exact ⟨by decide +kernel, by decide +kernel, by decide +kernel, by decide +kernel, errorIs (by decide +kernel)⟩
  · dsimp only [Reaches, PlainWrite, PlainRead, Accepts, CoreReady] <;> decide +kernel
  · dsimp only [Reaches, PlainWrite, PlainRead, Accepts, CoreReady] <;> decide +kernel

theorem witness_LiveChange :
    (let s : State := cfgP partialImage { st := 6 } []; let k : Candidate := good; let img : List Byte :=
      partialImage; let i : Image := { seq := 8, base := 7, partial' := true, inplaceOk := false, recs := [] };
      let c : Change := { seq := 8, owners := [] }; s.cfg.st = 6 ∧ s.mainReset = false ∧ loadImage s = some img ∧
      k.readable = true ∧ checkPartial s img true k.fit = .ok (i, c) ∧ s.cfg.armHeld = false ∧
      regBit s Reg.CFG_CTRL 4 = false)
    ∧ (let s : State := cfgP (zeros 80) { st := 6 } []; let k : Candidate := good; let img : List Byte := zeros 80;
      let e : ImgBad := ⟨1, 0, 0⟩; s.cfg.st = 6 ∧ s.mainReset = false ∧ loadImage s = some img ∧
      checkPartial s img k.readable k.fit = .error e)
    ∧ (let s : State := { live with cfg := { st := 7, change := some { seq := 8, owners := [(1, 3)] } } };
      let ini : Ini := .host; let v : Word := 0x10#32; let c : Change := { seq := 8, owners := [(1, 3)] };
      Reaches s ini Reg.CFG_CTRL ∧ s.cfg.st = 7 ∧ s.cfg.change = some c ∧ c.owners ≠ [] ∧ bit v 6 = false)
    ∧ (let s : State :=
      { live with cfg := { st := 7, armHeld := true, change := some { seq := 8, owners := [(1, 3)] } } };
      let c : Change := { seq := 8, owners := [(1, 3)] }; s.cfg.st = 7 ∧
      (s.cfg.armHeld = true ∨ regBit s Reg.CFG_CTRL 4 = true) ∧ shadowsWarm s = true ∧ s.cfg.change = some c ∧
      c.owners ≠ [])
    ∧ (let s : State := { live with cfg := { st := 8, change := some { seq := 8, owners := [(1, 3)] } } };
      let c : Change := { seq := 8, owners := [(1, 3)] }; let o : Nat × Nat := (1, 3);
      let rest : List (Nat × Nat) := []; s.mainReset = false ∧ (s.cfg.st = 8 ∨ s.cfg.st = 9) ∧
      s.cfg.change = some c ∧ c.owners.drop c.done = o :: rest ∧ atBoundary s o = true ∧
      (∀ w ∈ c.writes, regionOf w.2.1 ≠ 0x01))
    ∧ (let s : State :=
      { live with raw := 10 ^ 12, cfg := { st := 8, change := some { seq := 8, owners := [(1, 3), (1, 4)] } } };
      let c : Change := { seq := 8, owners := [(1, 3), (1, 4)] }; let o : Nat × Nat := (1, 3);
      let rest : List (Nat × Nat) := [(1, 4)]; s.mainReset = false ∧ (s.cfg.st = 8 ∨ s.cfg.st = 9) ∧
      s.cfg.change = some c ∧ c.owners.drop c.done = o :: rest ∧ cutTimedOut s = true ∧
      (∀ w ∈ c.writes, regionOf w.2.1 ≠ 0x01))
    ∧ (let s : State := { live with cfg := { st := 8, change := some { seq := 8, owners := [(1, 3)] } } };
      let ini : Ini := .host; let v : Word := 0x40#32; Reaches s ini Reg.CFG_CTRL ∧ 6 ≤ s.cfg.st ∧ s.cfg.st ≤ 8 ∧
      ((s.cfg.change.map fun x => x.done).getD 0) = 0 ∧ bit v 5 = false) := by
  refine ⟨?_, ?_, ?_, ?_, ?_, ?_, ?_⟩
  · exact ⟨by decide +kernel, by decide +kernel, by decide +kernel, by decide +kernel, okIs (by decide +kernel), by decide +kernel, by decide +kernel⟩
  · exact ⟨by decide +kernel, by decide +kernel, by decide +kernel, errorIs (by decide +kernel)⟩
  · dsimp only [Reaches, PlainWrite, PlainRead, Accepts, CoreReady] <;> decide +kernel
  · dsimp only [Reaches, PlainWrite, PlainRead, Accepts, CoreReady] <;> decide +kernel
  · dsimp only [Reaches, PlainWrite, PlainRead, Accepts, CoreReady] <;> decide +kernel
  · dsimp only [Reaches, PlainWrite, PlainRead, Accepts, CoreReady] <;> decide +kernel
  · dsimp only [Reaches, PlainWrite, PlainRead, Accepts, CoreReady] <;> decide +kernel

theorem witness_FlashPort :
    (let s : State :=
      on [(Reg.CFG_FL_ADDR, 0x10000#32), (Reg.CFG_FL_LEN, 0x10000#32)] { live with cfg := { flashId := 0x1B0000 } };
      let ini : Ini := .host; Reaches s ini Reg.CFG_FL_CTRL ∧ s.cfg.flashOp = none ∧
      flashCheck s 0 (regGet s Reg.CFG_FL_ADDR).toNat (regGet s Reg.CFG_FL_LEN).toNat = none)
    ∧ (let s : State :=
      on [(Reg.CFG_FL_ADDR, 0x10000#32), (Reg.CFG_FL_LEN, 0x10000#32)] { live with cfg := { flashId := 0x1B0000 } };
      let ini : Ini := .host; Reaches s ini Reg.CFG_FL_CTRL ∧ s.cfg.flashOp = none ∧
      flashCheck s 1 (regGet s Reg.CFG_FL_ADDR).toNat (regGet s Reg.CFG_FL_LEN).toNat = none)
    ∧ (let s : State :=
      on [(Reg.CFG_FL_ADDR, 0x10000#32), (Reg.CFG_FL_LEN, 0x10000#32)] { live with cfg := { flashId := 0x1B0000 } };
      let ini : Ini := .host; Reaches s ini Reg.CFG_FL_CTRL ∧ s.cfg.flashOp = none ∧
      flashCheck s 2 (regGet s Reg.CFG_FL_ADDR).toNat (regGet s Reg.CFG_FL_LEN).toNat = none)
    ∧ (let s : State :=
      { live with mem := [(0x101, 0x0F#8)], cfg := { flashId := 0x1B0000, flash := [(5, 0x3C#8)], flashOp := some ⟨1, 4, 4, 0x100⟩ } };
      let o : FlashOp := ⟨1, 4, 4, 0x100⟩; s.mainReset = false ∧ s.cfg.flashOp = some o ∧ (o.op = 1 ∨ o.op = 2)) := by
  refine ⟨?_, ?_, ?_, ?_⟩ <;> (dsimp only [Reaches, PlainWrite, PlainRead, Accepts, CoreReady] <;> decide +kernel)

theorem witness_CoreControl :
    (let s : State :=
      on [(Reg.CCO_CORE_ENTRY_LO 2, 0x20000000#32)] { live with raw := 1000, cco := { cores := [(2, { st := 1, pc := 0x20000100, x := [(5, 7)] })] } };
      let ini : Ini := .host; let n : Fin 4 := 2; Reaches s ini (Reg.CCO_CORE_CTRL n))
    ∧ (let s : State :=
      on [] { live with raw := 1000, cco := { cores := [(2, { st := 1, dcache := [(0x40000000, [1, 2])] })] } };
      let ini : Ini := .host; let n : Fin 4 := 2; let v : Word := 0x60000000#32;
      Reaches s ini (Reg.CCO_CORE_CTRL n) ∧ bit v 31 = false)
    ∧ (let s : State := on [] { live with raw := 1000, cco := { cores := [(2, { st := 1, warned := true })] } };
      let ini : Ini := .host; let n : Fin 4 := 2; Reaches s ini (Reg.CCO_WDG_KICK n))
    ∧ (let s : State :=
      on [(Reg.CCO_WDG_CTRL 2, 0x80000000#32)] { live with raw := 1000, cco := { cores := [(2, { st := 1, pc := 8 })] } };
      let n : Fin 4 := 2; ccoOn s = true ∧ regBit s (Reg.CCO_WDG_CTRL n) 31 = true ∧ (coreOf s n).st ≠ 3 ∧
      (coreOf s n).warned = false ∧ wdgLeft s n = 0)
    ∧ (let s : State :=
      on [(Reg.CCO_WDG_CTRL 2, 0x80000000#32), (Reg.CCO_CORE_CTRL 2, 0x40000000#32)] { live with raw := 1000, cco := { cores := [(2, { st := 1, pc := 8, warned := true })] } };
      let n : Fin 4 := 2; ccoOn s = true ∧ regBit s (Reg.CCO_WDG_CTRL n) 31 = true ∧ (coreOf s n).st ≠ 3 ∧
      (coreOf s n).warned = true ∧ wdgLeft s n = 0 ∧ regBit s (Reg.CCO_CORE_CTRL n) 30 = true)
    ∧ (let s : State :=
      on [(Reg.CCO_TIMECMP_LO 2, 1000#32), (Reg.CCO_TIMECMP_HI 2, 0#32)] { live with raw := 1000, cco := { cores := [(2, { st := 2, csr := [(0x304, 0x80)] })] } };
      let n : Fin 4 := 2; ccoOn s = true ∧ mtip s n = true ∧ (coreOf s n).st = 2 ∧ irqWaits s n = true)
    ∧ (let s : State := live; let ini : Ini := .host; let n : Fin 4 := 2; Reaches s ini (Reg.CCO_MSIP n))
    ∧ (let s : State := on [] { live with raw := 1000, cco := { cores := [(2, { st := 2, wdgFrom := 900 })] } };
      let n : Fin 4 := 2; ccoOn s = true ∧ (coreOf s n).st = 1 ∨ (coreOf s n).st = 2)
    ∧ (let s : State :=
      on [] { live with raw := 1000, cco := { cores := [(2, { st := 3, before := 2, wdgHeld := some 5 })] } };
      let n : Fin 4 := 2; ccoOn s = true ∧ (coreOf s n).st = 3)
    ∧ (let s : State :=
      on [(Reg.CCO_WDG_CTRL 2, 0x80000001#32)] { live with raw := 1000, cco := { cores := [(2, { st := 1 })] } };
      let n : Fin 4 := 2; wdgLeft s n ≠ 0) := by
  refine ⟨?_, ?_, ?_, ?_, ?_, ?_, ?_, ?_, ?_, ?_⟩ <;> (dsimp only [Reaches, PlainWrite, PlainRead, Accepts, CoreReady] <;> decide +kernel)

theorem witness_Mailbox :
    (let s : State := live; let ini : Ini := .host; let v : Word := 0x8#32; let n : Fin 4 := 3;
      Reaches s ini Reg.CCO_MBX_IN_DB ∧ bit v n = true)
    ∧ (let s : State := on [(Reg.CCO_MBX_IN_DB, 8#32), (Reg.CCO_IRQ_PEND 3, 1#32)] live; let ini : Ini := .host;
      let n : Fin 4 := 3; Reaches s ini (Reg.CCO_IRQ_PEND n))
    ∧ (let s : State :=
      { live with gw := { up := true, mse := true, bme := true, msixEn := true, unmasked := 2 ^ 63, msixAddr := [(63, 0x1000)] } };
      let ini : Ini := .host; let v : Word := 0x8000003F#32; Reaches s ini Reg.CCO_MBX_OUT_DB ∧
      regBit s Reg.CCO_MBX_OUT_DB 31 = false ∧ isLocked s Reg.CCO_MBX_OUT_DB = false ∧
      msixHeld s (fld v 5 0) = false)
    ∧ (let s : State :=
      on [(Reg.CCO_MBX_OUT_DB, 0x80000000#32)] { live with gw := { up := true, mse := true, bme := true, msixEn := true, unmasked := 2 ^ 63, msixAddr := [(63, 0x1000)] } };
      let ini : Ini := .host; let v : Word := 0x8000003F#32; Reaches s ini Reg.CCO_MBX_OUT_DB ∧
      regBit s Reg.CCO_MBX_OUT_DB 31 = true ∧ isLocked s Reg.CCO_MBX_OUT_DB = false ∧ bit v 30 = false)
    ∧ (let s : State := on [(Reg.CCO_MBX_OUT_DB, 0x80000000#32)] live; let ini : Ini := .host; let v : Word :=
      0x40000000#32; Reaches s ini Reg.CCO_MBX_OUT_DB ∧ isLocked s Reg.CCO_MBX_OUT_DB = false ∧ bit v 31 = false) := by
  refine ⟨?_, ?_, ?_, ?_, ?_⟩ <;> (dsimp only [Reaches, PlainWrite, PlainRead, Accepts, CoreReady] <;> decide +kernel)

theorem witness_CoreInstructions :
    (let s : State := coreS 0x002081B3 { x := [(1, 5), (2, 7)] } []; let n : Fin 4 := 2; let w : Nat := 0x002081B3;
      let v : XWord := 12#64; CoreReady s n w ∧ w % 128 = 0x33 ∧
      aluOp (bits w 31 25) (bits w 14 12) (getX (coreOf s n) (bits w 19 15)) (getX (coreOf s n) (bits w 24 20)) = some v)
    ∧ (let s : State := coreS 0x00000463 { } []; let n : Fin 4 := 2; let w : Nat := 0x00000463; let b : Bool :=
      true; CoreReady s n w ∧ w % 128 = 0x63 ∧
      branchTaken (bits w 14 12) (getX (coreOf s n) (bits w 19 15)) (getX (coreOf s n) (bits w 24 20)) = some b)
    ∧ (let s : State := coreS 0x0020B023 { x := [(1, 0x203FFFF8), (2, 7)] } []; let n : Fin 4 := 2; let w : Nat :=
      0x0020B023; let a : Nat := 0x203FFFF8; CoreReady s n w ∧ w % 128 = 0x23 ∧ bits w 14 12 = 3 ∧
      a = (getX (coreOf s n) (bits w 19 15) + immS w).toNat ∧ 0x20000000 ≤ a ∧ a + 8 ≤ 0x20400000 ∧
      pmpAllows (coreOf s n) (dataMode (coreOf s n)) a 8 1 = true ∧ poisoned s a 8 = [])
    ∧ (let s : State := coreS 0x00000073 { csr := [(0x305, 0x20000103)] } []; let n : Fin 4 := 2;
      CoreReady s n 0x00000073)
    ∧ (let s : State := coreS 0 { csr := [(0x304, 0x8), (0x300, 8)] } [(Reg.CCO_MSIP 2, 1#32)]; let n : Fin 4 := 2;
      let k : Nat := 3; ccoOn s = true ∧ (s.ham.st = .watch ∨ s.ham.st = .run ∨ s.ham.st = .full) ∧
      (coreOf s n).st = 1 ∧ (coreOf s n).stores = [] ∧ irqCause s n = some k) := by
  refine ⟨?_, ?_, ?_, ?_, ?_⟩ <;> (dsimp only [Reaches, PlainWrite, PlainRead, Accepts, CoreReady] <;> decide +kernel)

theorem witness_Resets :
    (let s : State := on [] { live with ham := { st := .backup } }; hamOn s = false)
    ∧ (let s : State := on [] { live with ham := { st := .full } }; s.ham.st ≠ .off ∧ s.ham.st ≠ .backup)
    ∧ (let s : State := live; let ini : Ini := .host; Reaches s ini Reg.HAM_RESET)
    ∧ (let s : State := live; let cell : Bool := true; (hamOn s = true ∨ (s.ham.st = .backup ∧ cell = false)))
    ∧ (let s : State := { live with mainReset := true, raw := 50000000, ham := { starting := true } };
      let m : BitVec 16 := 0x1FF#16; evtPowered s = true ∧ hamOn s = true ∧ s.mainReset = true ∧
      s.ham.starting = true ∧ 50000000 ≤ s.raw ∧ suppliesGood s = false ∧
      (∀ k < 16, m.getLsbD k = (decide (k < 9) && supplyOut s k)))
    ∧ (let s : State := live; (suppliesGood s = true ∨ s.raw < 50000000)) := by
  refine ⟨?_, ?_, ?_, ?_, ?_, ?_⟩ <;> (dsimp only [Reaches, PlainWrite, PlainRead, Accepts, CoreReady] <;> decide +kernel)

theorem witness_PowerStates :
    (let s : State := live; let ini : Ini := .host; let v : Word := 3#32; Reaches s ini Reg.HAM_PWR_REQ ∧
      2 ≤ fld v 2 0 ∧ fld v 2 0 ≤ 5 ∧ s.ham.moving = false)
    ∧ (let s : State := on [] { live with ham := { moving := true, goal := .watch } }; let ini : Ini := .host;
      let v : Word := 5#32; Reaches s ini Reg.HAM_PWR_REQ ∧ 2 ≤ fld v 2 0 ∧ fld v 2 0 ≤ 5 ∧ s.ham.moving = true)
    ∧ (let s : State :=
      { pipeS { flow := [.line (line1 3)], frameOpen := true } [] [] with ham := { moving := true, goal := .watch } };
      s.ham.moving = true ∧ mainPowered s = true ∧ s.ham.goal = .watch ∧ changeRuns s = false ∧
      s.ham.drained = false ∧ (framesShut s = true ∨ drainTimedOut s = true))
    ∧ (let s : State := on [] { live with ham := { moving := true, goal := .rest, target := 2, st := .watch } };
      s.ham.moving = true ∧ (mainPowered s = true → s.ham.goal = .watch → s.ham.drained = true) ∧
      s.ham.later = none ∧ s.ham.wakeLater = none ∧ powerOfCode s.ham.target = s.ham.goal ∧ s.ham.goal ≠ .off ∧
      s.ham.goal ≠ .backup)
    ∧ (let s : State := { live with erg := { valid := true }, ham := { genHold := true } }; mainPowered s = true ∧
      s.erg.valid = true ∧ s.ham.genHold = true ∧ s.ham.drained = false ∧ s.ham.moving = false ∧
      (∀ n < 128, firstAttempt s n = false))
    ∧ (let s : State := on [(Reg.HAM_WAKE_EN, 0x100#32)] { live with ham := { st := .rest } }; let b : Fin 9 := 8;
      s.mainReset = false ∧ s.ham.st = .rest ∧ s.ham.moving = false ∧ s.ham.tripped = false ∧
      regBit s Reg.HAM_WAKE_EN b = true ∧ b.val ≠ 7 ∧ wakeHolds s b = true)
    ∧ (let s : State :=
      on [(Reg.HAM_WAKE_EN, 0x80#32), (Reg.HAM_ALARM_EN, 1#32)] { live with ham := { st := .rest } };
      hamOn s = true ∧ regBit s Reg.HAM_ALARM_EN 0 = true ∧
      wrapTo 32 (secondsNow s - (regGet s Reg.HAM_ALARM).toNat) < 2 ^ 31)
    ∧ (let s : State := on [] { live with ham := { st := .rest, twb0 := some 0x55 } }; let a : BitVec 7 := 0x55#7;
      s.ham.st = .rest ∧ s.ham.twb0 = some a.toNat)
    ∧ (let s : State := live; hamOn s = true)
    ∧ (let s : State :=
      on [] { live with ham := { tripped := true, supplies := [(12, { value := 0 }), (13, { value := 2543 })] } };
      diesCool s = true)
    ∧ (let s : State := live; hamOn s = true ∧ s.mainReset = false)
    ∧ (let s : State := live; let b : Fin 9 := 0; b.val ≠ 7 ∧ wakeHolds s b = false)
    ∧ (let s : State := on [] { live with ham := { supplies := [(15, { value := 2544 })] } }; diesCool s = false)
    ∧ (let s : State :=
      { pipeS { flow := [.line (line1 3)], frameOpen := true } [] [] with ham := { moving := true, goal := .watch, drainFrom := 10 ^ 12 } };
      framesShut s = false ∧ drainTimedOut s = false) := by
  refine ⟨?_, ?_, ?_, ?_, ?_, ?_, ?_, ?_, ?_, ?_, ?_, ?_, ?_, ?_⟩ <;> (dsimp only [Reaches, PlainWrite, PlainRead, Accepts, CoreReady] <;> decide +kernel)

theorem witness_BackupDomain :
    (let s : State := live; hamOn s = true)
    ∧ (let s : State := on [] { live with ham := { rc := false } }; hamOn s = true)
    ∧ (let s : State :=
      on [(Reg.HAM_MON_CFG, 0x80010002#32), (Reg.HAM_MON_THR 0, 0x3000100#32)] { live with ham := { supplies := [(0, { st := 1, lows := 3 })] } };
      let k : Fin 16 := 0; let v : BitVec 12 := 0x100#12; hamOn s = true ∧
      regBit s Reg.HAM_MON_CFG (16 + k) = true ∧ regFld s Reg.HAM_MON_CFG 3 0 ≠ 0 ∧
      regFld s (Reg.HAM_MON_THR k) 11 0 ≤ v.toNat ∧ v.toNat ≤ regFld s (Reg.HAM_MON_THR k) 27 16 ∧
      (mget {} k.val s.ham.supplies).oks + 1 < regFld s Reg.HAM_MON_CFG 3 0)
    ∧ (let s : State :=
      on [(Reg.HAM_MON_CFG, 0x80010002#32), (Reg.HAM_MON_THR 0, 0x3000100#32)] { live with ham := { supplies := [(0, { lows := 1 })] } };
      let k : Fin 16 := 0; let v : BitVec 12 := 0xFF#12; hamOn s = true ∧ regBit s Reg.HAM_MON_CFG (16 + k) = true ∧
      v.toNat < regFld s (Reg.HAM_MON_THR k) 11 0 ∧ regFld s (Reg.HAM_MON_THR k) 31 30 < 2 ∧
      regFld s Reg.HAM_MON_CFG 3 0 ≤ (mget {} k.val s.ham.supplies).lows + 1)
    ∧ (let s : State :=
      on [] { live with ham := { held := [(1, 1), (1, 1), (1, 1), (1, 1), (1, 1), (1, 1), (1, 1)] } };
      let ini : Ini := .host; let k : Fin 64 := 63; Reaches s ini (Reg.HAM_BK_REG k) ∧ s.ham.held.length < 8)
    ∧ (let s : State := on [] { live with ham := { held := [(63, 5)] } }; let k : Nat := 63; let v : Word := 5;
      let r : List (Nat × Word) := []; hamOn s = true ∧ s.ham.held = (k, v) :: r)
    ∧ (let s : State := on [] { live with ham := { lost := 4, bkValid := false } }; let ini : Ini := .host;
      Reaches s ini Reg.HAM_BK_CTRL)
    ∧ (let s : State := { live with raw := 5 * 10 ^ 9, tim := { st := .free } }; hamOn s = true ∧
      s.tim.st ≠ .unset ∧ s.tim.st ≠ .coarse ∧ timeNow s % (10 ^ 9 * 2 ^ 32) * 32768 < 10 ^ 9 * 2 ^ 32)
    ∧ (let s : State := on [] { live with ham := { onVbak := true, st := .backup } }; s.ham.onVbak = true)
    ∧ (let s : State := on [] { live with ham := { st := .off } }; s.ham.st = .off) := by
  refine ⟨?_, ?_, ?_, ?_, ?_, ?_, ?_, ?_, ?_, ?_⟩ <;> (dsimp only [Reaches, PlainWrite, PlainRead, Accepts, CoreReady] <;> decide +kernel)

theorem witness_SafetyInputs :
    (let s : State := on [(Reg.HAM_SAFE_CTRL 1, 0xFF#32)] { live with ham := { safety := [{}, { }] } };
      let i : Fin 2 := 1; let a : Bool := false; let b : Bool := true; hamOn s = true ∧
      i.val < s.ham.safety.length ∧ ((inDemand s i a b).1 || (inDemand s i a b).2) = true ∧
      (safetyOf s i).now = false)
    ∧ (let s : State :=
      { live with raw := 10 ^ 10, ham := { safety := [{}, { a := true, b := false, apart := some 0 }] } };
      let i : Fin 2 := 1; hamOn s = true ∧ i.val < s.ham.safety.length ∧
      (inDemand s i (safetyOf s i).a (safetyOf s i).b).1 ≠ (inDemand s i (safetyOf s i).a (safetyOf s i).b).2 ∧
      ((safetyOf s i).apart.map (discDue s i)).getD false = true)
    ∧ (let s : State := { live with ham := { safety := [{}, { a := true, b := true, phase := 3 }] } };
      let ini : Ini := .host; let i : Fin 2 := 1; Reaches s ini (Reg.HAM_SAFE_ACK i) ∧ i.val < s.ham.safety.length ∧
      (safetyOf s i).now = false ∧ (safetyOf s i).phase = 3 ∨ ((safetyOf s i).phase = 0 ∧
      (safetyOf s i).demand = true))
    ∧ (let s : State := live; let i : Fin 2 := 1; ((safetyOf s i).apart.map (discDue s i)).getD false = false) := by
  refine ⟨?_, ?_, ?_, ?_⟩ <;> (dsimp only [Reaches, PlainWrite, PlainRead, Accepts, CoreReady] <;> decide +kernel)

theorem witness_RepairAndTest :
    (let s : State := { live with bch := { dramRows := [0x1000000000] } }; let ini : Ini := .host; let v : Word :=
      0x80000000#32; Reaches s ini Reg.BCH_DRAM_CTRL ∧ bit v 31 = true)
    ∧ (let s : State := { live with bch := { dramRows := [0x1000000000], dramRun := [0x1000000000] } };
      let r : Nat := 0x1000000000; let rest : List Nat := []; s.bch.dramRun = r :: rest ∧
      dramSpare s (Config.dramGroup r) ≠ 0)
    ∧ (let s : State := live; let p : Fin 2304 := 2303; testable s p = true ∧ tileDue s p = true ∧ s.bch.tests = [])
    ∧ (let s : State :=
      on [(Reg.BCH_TEST_SCHED, 0x1000000#32)] { live with erg := { insts := [(9, { kind := 7, owner := 1, id := 0, first := 5, rate := 0 })], valid := true } };
      let l : Fin 2176 := 5; regFld s Reg.BCH_TEST_SCHED 31 24 ≠ 0 ∧ tileRuns s l = true ∧ migRoom s l = true ∧
      paceDue s s.bch.rotated l (24 * regFld s Reg.BCH_TEST_SCHED 31 24) = true)
    ∧ (let s : State := live; let ini : Ini := .host; let v : Word := 0x800008FF#32;
      Reaches s ini Reg.BCH_TEST_CTRL ∧ bit v 31 = true ∧ s.bch.tests.any (fun t => t.go) = false ∧
      fld v 11 0 < 2304 ∧ ((instOn s (fld v 11 0)).map fun e => instRuns s e.2).getD false = false)
    ∧ (let s : State :=
      { live with raw := 1000000, erg := { bad := [(2303, 6)] }, bch := { tests := [{ region := none, tiles := [2303] }] } };
      let p : Fin 2304 := 2303; underTest s p = true ∧ testRipe s p = true ∧ mget? p.val s.erg.bad = some 6)
    ∧ (let s : State := live; let ps : BitVec 8 := 4#8; mainPowered s = true ∧ ps.toNat < 5)
    ∧ (let s : State := { live with bch := { tests := [{ region := none, tiles := [2303] }] } }; let p : Fin 2304 :=
      2303; testRipe s p = false)
    ∧ (let s : State := on [(Reg.BCH_TEST_SCHED, 0x100#32)] { live with bch := { checked := [(5, 0)] } };
      let p : Fin 2304 := 5; tileDue s p = false) := by
  refine ⟨?_, ?_, ?_, ?_, ?_, ?_, ?_, ?_, ?_⟩
  · dsimp only [Reaches, PlainWrite, PlainRead, Accepts, CoreReady] <;> decide +kernel
  · dsimp only [Reaches, PlainWrite, PlainRead, Accepts, CoreReady] <;> decide +kernel
  · dsimp only [Reaches, PlainWrite, PlainRead, Accepts, CoreReady] <;> decide +kernel
  · dsimp only [Reaches, PlainWrite, PlainRead, Accepts, CoreReady] <;> decide +kernel
  · dsimp only [Reaches, PlainWrite, PlainRead, Accepts, CoreReady] <;> decide +kernel
  · dsimp only [Reaches, PlainWrite, PlainRead, Accepts, CoreReady] <;> decide +kernel
  · dsimp only [Reaches, PlainWrite, PlainRead, Accepts, CoreReady] <;> decide +kernel
  · dsimp only [Reaches, PlainWrite, PlainRead, Accepts, CoreReady] <;> decide +kernel
  · dsimp only [Reaches, PlainWrite, PlainRead, Accepts, CoreReady] <;> decide +kernel

theorem witness_Migration :
    (let s : State :=
      { live with erg := { insts := [(9, { kind := 7, owner := 1, id := 0, first := 5, rate := 0 })], valid := true } };
      let ini : Ini := .host; let v : Word := 0x80000005#32; let n : Nat := 9; let i : Inst :=
      { kind := 7, owner := 1, id := 0, first := 5, rate := 0 }; Reaches s ini Reg.BCH_MIG_CTRL ∧ bit v 31 = true ∧
      fld v 11 0 ≤ 2175 ∧ instAtTile s (fld v 11 0) = some (n, i) ∧ i.shadow = false ∧ instRuns s i = true ∧
      migRoom s (fld v 11 0) = true)
    ∧ (let s : State :=
      { live with erg := { insts := [(9, { kind := 7, owner := 1, id := 0, first := 5, rate := 0 })], valid := true }, bch := { queue := [⟨2, 5⟩] } };
      let p : Fin 2304 := 538; let q : MigReq := ⟨2, 5⟩; let n : Nat := 9; let i : Inst :=
      { kind := 7, owner := 1, id := 0, first := 5, rate := 0 }; s.bch.mig = none ∧ nextMig s = some q ∧
      regBit s Reg.BCH_MIG_CTRL 31 = false ∧ instAtTile s q.tile = some (n, i) ∧ i.shadow = false ∧
      p.val ∈ freeSpares s (tileArea q.tile))
    ∧ (let s : State :=
      { live with erg := { insts := [(9, { kind := 7, owner := 1, id := 0, first := 5, rate := 0, st := 3, moving := true })], valid := true }, bch := { mig := some { req := ⟨2, 5⟩, inst := 9, target := 538, st := 2, equal := 0 } } };
      let m : MigRun := { req := ⟨2, 5⟩, inst := 9, target := 538, st := 2, equal := 0 }; s.bch.mig = some m ∧
      m.st = 2)
    ∧ (let s : State :=
      on [(Reg.BCH_MIG_CFG, 9#32)] { live with erg := { insts := [(9, { kind := 7, owner := 1, id := 0, first := 5, rate := 0, st := 3, moving := true })], valid := true }, bch := { mig := some { req := ⟨2, 5⟩, inst := 9, target := 538, st := 3, equal := 8 } } };
      let m : MigRun := { req := ⟨2, 5⟩, inst := 9, target := 538, st := 3, equal := 8 }; s.bch.mig = some m ∧
      m.st = 3)
    ∧ (let s : State :=
      { live with erg := { insts := [(9, { kind := 7, owner := 1, id := 0, first := 5, rate := 0, st := 3, moving := true })], valid := true }, bch := { mig := some { req := ⟨2, 5⟩, inst := 9, target := 538, st := 4, equal := 0 } } };
      let m : MigRun := { req := ⟨2, 5⟩, inst := 9, target := 538, st := 4, equal := 0 }; s.bch.mig = some m ∧
      m.st = 4)
    ∧ (let s : State :=
      { live with raw := 10 ^ 12, erg := { insts := [(9, { kind := 7, owner := 1, id := 0, first := 5, rate := 0, st := 3, moving := true })], valid := true }, bch := { mig := some { req := ⟨1, 5⟩, inst := 9, target := 538, st := 4, equal := 0 } } };
      let m : MigRun := { req := ⟨1, 5⟩, inst := 9, target := 538, st := 4, equal := 0 }; s.bch.mig = some m ∧
      (m.st = 3 ∨ m.st = 4) ∧ m.since + regFld s Reg.BCH_MIG_CFG 31 16 * 500000 ≤ s.raw)
    ∧ (let s : State :=
      on [(Reg.BCH_MIG_CFG, 0x10000#32)] { live with erg := { insts := [(9, { kind := 7, owner := 1, id := 0, first := 5, rate := 0, st := 3, moving := true })], valid := true }, bch := { mig := some { req := ⟨1, 5⟩, inst := 9, target := 538, st := 4, equal := 0 } } };
      let m : MigRun := { req := ⟨1, 5⟩, inst := 9, target := 538, st := 4, equal := 0 }; s.bch.mig = some m ∧
      s.raw < m.since + regFld s Reg.BCH_MIG_CFG 31 16 * 500000) := by
  refine ⟨?_, ?_, ?_, ?_, ?_, ?_, ?_⟩
  · dsimp only [Reaches, PlainWrite, PlainRead, Accepts, CoreReady] <;> decide +kernel
  · exact ⟨by decide +kernel, by decide +kernel, by decide +kernel, by decide +kernel, by decide +kernel, spareIs spare538 (by decide +kernel)⟩
  · dsimp only [Reaches, PlainWrite, PlainRead, Accepts, CoreReady] <;> decide +kernel
  · dsimp only [Reaches, PlainWrite, PlainRead, Accepts, CoreReady] <;> decide +kernel
  · dsimp only [Reaches, PlainWrite, PlainRead, Accepts, CoreReady] <;> decide +kernel
  · dsimp only [Reaches, PlainWrite, PlainRead, Accepts, CoreReady] <;> decide +kernel
  · dsimp only [Reaches, PlainWrite, PlainRead, Accepts, CoreReady] <;> decide +kernel

theorem witness_AgingAndVoltage :
    (let s : State := live; let m : List (BitVec 8) := [30#8, 22#8]; mainPowered s = true ∧ m ≠ [])
    ∧ (let s : State := on [(Reg.BCH_AVS_BOUND, 0x3F00#32)] { live with bch := { margin := 22, vid := 39 } };
      mainPowered s = true) := by
  refine ⟨?_, ?_⟩ <;> (dsimp only [Reaches, PlainWrite, PlainRead, Accepts, CoreReady] <;> decide +kernel)

theorem witness_TwoWireBuses :
    (let s : State :=
      on [(Reg.TWB_CTRL 3, 0x80000000#32)] { live with per := { buses := [(3, { free := true })] } };
      let ini : Ini := .host; let n : Fin 4 := 3; let v : Word := 0x80552020#32; Reaches s ini (Reg.TWB_XFER n) ∧
      (twbOf s n).busy = false ∧ regBit s (Reg.TWB_CTRL n) 31 = true ∧ (twbOf s n).free = true ∧
      (twbOf s n).running = false ∧ (twbOf s n).measRun = false ∧
      (n.val ≠ 0 ∨ fld v 22 16 ≠ regFld s Reg.TWB_TGT_CTRL 6 0) ∧ fld v 13 8 ≤ 32 ∧ fld v 5 0 ≤ 32)
    ∧ (let s : State :=
      on [(Reg.TWB_XFER 3, 0x80550102#32)] { live with per := { buses := [(3, { running := true, busy := true })] } };
      let n : Fin 4 := 3; perOn s = true ∧ (twbOf s n).running = true ∧ regBit s (Reg.TWB_XFER n) 30 = false)
    ∧ (let s : State := on [(Reg.TWB_TGT_CTRL, 0x80000000#32)] live; perOn s = true ∧
      regBit s Reg.TWB_TGT_CTRL 31 = true ∧ regBit s Reg.TWB_TGT_STATUS 31 = false)
    ∧ (let s : State := on [(Reg.TWB_TGT_CTRL, 0xA0000100#32)] live; perOn s = true ∧
      regBit s Reg.TWB_TGT_CTRL 31 = true ∧ regBit s Reg.TWB_TGT_CTRL 29 = true)
    ∧ (let s : State := on [(Reg.TWB_TGT_STATUS, 0x80000000#32)] live; let ini : Ini := .host; let v : Word :=
      0x80000000#32; Reaches s ini Reg.TWB_TGT_STATUS ∧ bit v 31 = true)
    ∧ (let s : State := on [] { live with per := { buses := [(0, { free := true })] } }; let ini : Ini := .host;
      Reaches s ini Reg.TWB_TGT_CTRL)
    ∧ (let s : State :=
      on [(Reg.TWB_CTRL 3, 0xC0000000#32), (Reg.TWB_IBR 3, 9#32)] { live with per := { buses := [(3, { free := true })] } };
      let n : Fin 4 := 3; let us : BitVec 16 := 9#16; perOn s = true ∧ regBit s (Reg.TWB_CTRL n) 31 = true ∧
      regBit s (Reg.TWB_CTRL n) 30 = true ∧ (twbOf s n).running = false ∧ (twbOf s n).free = true ∧
      regFld s (Reg.TWB_IBR n) 7 0 ≤ us.toNat)
    ∧ (let s : State :=
      on [(Reg.TWB_TO 3, 0x90000#32)] { live with per := { buses := [(3, { running := true, busy := true })] } };
      let n : Fin 4 := 3; let us : BitVec 32 := 9#32; perOn s = true ∧ regFld s (Reg.TWB_TO n) 31 16 ≠ 0 ∧
      regFld s (Reg.TWB_TO n) 31 16 ≤ us.toNat ∧ (twbOf s n).running = true)
    ∧ (let s : State := on [(Reg.TWB_TO 3, 0x9#32)] { live with per := { buses := [(3, { busy := true })] } };
      let n : Fin 4 := 3; let us : BitVec 32 := 9#32; perOn s = true ∧ regFld s (Reg.TWB_TO n) 15 0 ≠ 0 ∧
      regFld s (Reg.TWB_TO n) 15 0 ≤ us.toNat ∧ (twbOf s n).running = false ∧ (twbOf s n).busy = true)
    ∧ (let s : State :=
      on [(Reg.TWB_CTRL 3, 0x80000000#32)] { live with per := { buses := [(3, { free := true })] } };
      let ini : Ini := .host; let n : Fin 4 := 3; let v : Word := 0x80000001#32; Reaches s ini (Reg.TWB_MEAS n) ∧
      fld v 15 0 ≠ 0 ∧ regBit s (Reg.TWB_CTRL n) 31 = true ∧ (twbOf s n).free = true ∧ (twbOf s n).busy = false ∧
      (twbOf s n).running = false ∧ (twbOf s n).measRun = false)
    ∧ (let s : State :=
      on [(Reg.TWB_MEAS 3, 0x80000001#32)] { live with per := { buses := [(3, { measRun := true, measuring := true })] } };
      let n : Fin 4 := 3; perOn s = true ∧ (twbOf s n).measRun = true)
    ∧ (let s : State := on [(Reg.TWB_CTRL 3, 1#32)] live; let n : Fin 4 := 3; perOn s = true ∧
      (twbOf s n).running = false ∧ (twbOf s n).measRun = false ∧ (twbOf s n).busy = false ∧
      (twbOf s n).measuring = false)
    ∧ (let s : State := on [] { live with ham := { st := .rest, twb0 := some 5 } }; s.ham.st = .rest ∧
      s.ham.twb0 ≠ none) := by
  refine ⟨?_, ?_, ?_, ?_, ?_, ?_, ?_, ?_, ?_, ?_, ?_, ?_, ?_⟩ <;> (dsimp only [Reaches, PlainWrite, PlainRead, Accepts, CoreReady] <;> decide +kernel)

theorem witness_PodEngines :
    (let s : State :=
      on [(Reg.POD_E_CTRL 1 3, 0x7E00000#32), (Reg.POD_STEP 1 252, 0x8001#32), (Reg.POD_STEP 1 253, 0x0#32)] live;
      let ini : Ini := .host; let v : Word := 0x80#32; let b : Fin 2 := 1; let e : Fin 4 := 3;
      Reaches s ini Reg.POD_START ∧ bit v 8 = false ∧ bit v (4 * b + e) = true ∧
      stepBad (stepWord s b (regFld s (Reg.POD_E_CTRL b e) 26 20) 1) = false ∧
      bit (stepWord s b (regFld s (Reg.POD_E_CTRL b e) 26 20) 1) 19 = false)
    ∧ (let s : State := on [(Reg.POD_AT_LO, 5#32)] live; let ini : Ini := .host; let v : Word := 0x1FF#32;
      Reaches s ini Reg.POD_START ∧ bit v 8 = true ∧ fld v 7 0 ≠ 0 ∧
      timeNow s < sint 64 (regWide s Reg.POD_AT_LO Reg.POD_AT_HI) * 2 ^ 32)
    ∧ (let s : State :=
      on [(Reg.POD_E_CTRL 1 3, 0x7E00000#32), (Reg.POD_STEP 1 252, 0x8001#32), (Reg.POD_STEP 1 253, 0x0#32)] { live with raw := 100, per := { podAt := [(0, 0x80), (10 ^ 20, 1)] } };
      let x : Int × Nat := (0, 0x80); let b : Fin 2 := 1; let e : Fin 4 := 3; perOn s = true ∧ x ∈ s.per.podAt ∧
      x.1 ≤ timeNow s ∧ x.2.testBit (4 * b + e) = true ∧
      stepBad (stepWord s b (regFld s (Reg.POD_E_CTRL b e) 26 20) 1) = false ∧
      bit (stepWord s b (regFld s (Reg.POD_E_CTRL b e) 26 20) 1) 19 = false)
    ∧ (let s : State := { live with per := { pods := [(7, { running := true })] } }; let ini : Ini := .host;
      Reaches s ini Reg.POD_STOP)
    ∧ (let s : State :=
      on [(Reg.POD_STEP 1 0, 0x8003#32), (Reg.POD_STEP 1 1, 0x0#32), (Reg.POD_STEP 1 254, 0x8001#32), (Reg.POD_STEP 1 255, 0x0#32)] { live with raw := 10 ^ 9, per := { pods := [(7, { running := true, step := 127 })] } };
      let b : Fin 2 := 1; let e : Fin 4 := 3; perOn s = true ∧ (podOf s b e).running = true ∧
      (podOf s b e).enter = none ∧ (podOf s b e).held = false ∧ (podOf s b e).catchBits.length < 32 ∧
      (∀ k : Fin 4, k ≠ e → (podOf s b k).running = false) ∧ holdEnd s b e ≤ 2 * s.raw ∧
      bit (stepWord s b (podOf s b e).step 1) 18 = false ∧ fld (stepWord s b (podOf s b e).step 1) 17 16 = 0 ∧
      fld (stepWord s b (podOf s b e).step 1) 11 9 = 0 ∧
      stepBad (stepWord s b (((podOf s b e).step + 1) % 128) 1) = false ∧
      bit (stepWord s b (((podOf s b e).step + 1) % 128) 1) 19 = false)
    ∧ (let s : State := { live with per := { pods := [(7, { feed := List.replicate 15 3#32 })] } }; let ini : Ini :=
      .host; let b : Fin 2 := 1; let e : Fin 4 := 3; Reaches s ini (Reg.POD_E_FEED b e) ∧
      (e.val = 0 ∨ (podOf s b (e - 1)).chain = false))
    ∧ (let s : State := { live with per := { pods := [(7, { catchQ := [4#32] })] } }; let ini : Ini := .host;
      let b : Fin 2 := 1; let e : Fin 4 := 3; let w : Word := 4#32; let ws : List Word := [];
      Reaches s ini (Reg.POD_E_CATCH b e) ∧ (podOf s b e).catchQ = w :: ws ∧ blockRuns s b = false)
    ∧ (let s : State := live; let ini : Ini := .host; let b : Fin 2 := 1; Reaches s ini (Reg.POD_CUES b) ∧
      blockRuns s b = false)
    ∧ (let s : State := { live with per := { podAt := [(10 ^ 20, 1)] } }; (∀ x ∈ s.per.podAt, timeNow s < x.1)) := by
  refine ⟨?_, ?_, ?_, ?_, ?_, ?_, ?_, ?_, ?_⟩ <;> (dsimp only [Reaches, PlainWrite, PlainRead, Accepts, CoreReady] <;> decide +kernel)

theorem witness_PinsAndStrobes :
    (let s : State := live; let ini : Ini := .host; Reaches s ini Reg.GPIO_SET)
    ∧ (let s : State := on [(Reg.GPIO_OUT, 0xFFFFFF#32)] live; let ini : Ini := .host; Reaches s ini Reg.GPIO_CLR)
    ∧ (let s : State := on [(Reg.GPIO_RISE, 0x800000#32)] live; let p : Fin 24 := 23; let l : Bool := true;
      perOn s = true ∧ s.per.gpio.testBit p = !l ∧ regBit s Reg.GPIO_OE p = false ∧
      ((safeActions s).testBit 2 && regBit s Reg.HAM_SAFE_GPIO p) = false)
    ∧ (let s : State := on [(Reg.ENC_CTRL 3, 0x80000000#32)] live; let e : Fin 4 := 3; let a : Bool := true;
      let b : Bool := false; let d : Bool := false; perOn s = true ∧ regBit s (Reg.ENC_CTRL e) 31 = true ∧
      encStep (regFld s (Reg.ENC_CTRL e) 25 24) ((nthD 0 e s.per.enc).testBit 0) ((nthD 0 e s.per.enc).testBit 1) a b = .count d)
    ∧ (let s : State := on [(Reg.ENC_CTRL 3, 0xE0000000#32), (Reg.ENC_POS 3, 77#32)] live; let e : Fin 4 := 3;
      let l : Bool := true; perOn s = true ∧ regBit s (Reg.ENC_CTRL e) 31 = true ∧
      regBit s (Reg.ENC_CTRL e) 30 = true ∧ regBit s (Reg.ENC_CTRL e) 29 = l ∧ (nthD 0 e s.per.enc).testBit 2 = !l ∧
      regBit s (Reg.ENC_STATUS e) 31 = false)
    ∧ (let s : State := on [(Reg.ENC_CTRL 3, 0x80000000#32)] live; let ini : Ini := .host; let e : Fin 4 := 3;
      Reaches s ini (Reg.ENC_POS e) ∧ perOn s = true)
    ∧ (let s : State :=
      on [(Reg.STB_CTRL 7, 0xC0000000#32)] { live with raw := 1000, per := { strobes := [(7, { pulses := [⟨5, 0, 10 ^ 18⟩] })] } };
      let k : Fin 8 := 7; let p : StbPulse := ⟨5, 0, 10 ^ 18⟩; perOn s = true ∧ stbBlocked s k = false ∧
      (stbOf s k).pulses = [p] ∧ p.start ≤ timeNow s ∧ timeNow s < p.stop)
    ∧ (let s : State :=
      on [(Reg.STB_CTRL 7, 0xC0000000#32)] { live with raw := 1000, per := { strobes := [(7, { active := [⟨5, 0, 1⟩] })] } };
      let k : Fin 8 := 7; perOn s = true ∧ stbOn (stbOf s k) = true ∧
      (∀ p ∈ (stbOf s k).active, p.stop ≤ timeNow s) ∧ ((stbOf s k).phase = true → phaseOver s k = true))
    ∧ (let s : State :=
      on [(Reg.STB_CTRL 7, 0xC0000000#32), (Reg.STB_PWM 7, 0x100001#32)] { live with raw := 1000, per := { strobes := [(7, { })] } };
      let k : Fin 8 := 7; perOn s = true ∧ regBit s (Reg.STB_CTRL k) 30 = true ∧ stbBlocked s k = false ∧
      0 < regFld s (Reg.STB_PWM k) 9 0 ∧
      ((stbOf s k).since.map fun u => decide (u + regFld s (Reg.STB_PWM k) 31 16 * 500 ≤ s.raw)).getD true = true)
    ∧ (let s : State :=
      on [(Reg.STB_CTRL 7, 0xC0000000#32), (Reg.STB_LIMIT 7, 0x100#32)] { live with raw := 1000, per := { strobes := [(7, { active := [⟨5, 0, 10 ^ 18⟩] })] } };
      let k : Fin 8 := 7; perOn s = true ∧ stbOn (stbOf s k) = true ∧ stbLong s k = true ∧ stbSettled s k = true ∧
      (stbOf s k).measured = false)
    ∧ (let s : State :=
      on [(Reg.STB_CTRL 7, 0xC0000000#32)] { live with raw := 1000, per := { strobes := [(7, { active := [⟨5, 0, 10 ^ 18⟩] })] } };
      let k : Fin 8 := 7; perOn s = true ∧ stbOn (stbOf s k) = true)
    ∧ (let s : State := on [(Reg.STB_CTRL 7, 0xD0000000#32)] live; let ini : Ini := .host; let k : Fin 8 := 7;
      Reaches s ini (Reg.STB_CTRL k))
    ∧ (let s : State := on [(Reg.GPIO_OE, 0xFFFFFF#32)] live; let p : Fin 24 := 23; hamOn s = true ∧
      s.mainReset = false ∧ regBit s Reg.GPIO_OE p = true ∧ regBit s Reg.GPIO_OD p = false)
    ∧ (let s : State :=
      on [(Reg.STB_CTRL 7, 0xC0000000#32), (Reg.STB_PWM 7, 0x100001#32)] { live with raw := 1000, per := { strobes := [(7, { since := some 1000 })] } };
      let k : Fin 8 := 7; let u : Nat := 1000; (stbOf s k).since = some u ∧
      s.raw < u + regFld s (Reg.STB_PWM k) 31 16 * 500)
    ∧ (let s : State := live; let k : Fin 8 := 7; (stbSettled s k = false ∨ (stbOf s k).measured = true)) := by
  refine ⟨?_, ?_, ?_, ?_, ?_, ?_, ?_, ?_, ?_, ?_, ?_, ?_, ?_, ?_, ?_⟩ <;> (dsimp only [Reaches, PlainWrite, PlainRead, Accepts, CoreReady] <;> decide +kernel)

theorem witness_CommandsComplete :
    (let s : State := live; s.pending = [] ∧ ∀ n < 4, (coreOf s n).stores = []) := by decide +kernel

theorem live_safe : live.Safe := ⟨rfl, rfl, rfl, rfl⟩

theorem witness_SafeStep :
    (let s : State := { live with pending := [.gpioSet .host 5#32] }; ∃ t : State, s.Safe ∧ Machine.step s = .next t) :=
  ⟨_, ⟨rfl, rfl, rfl, rfl⟩, rfl⟩

theorem witness_PartFrames :
    (let c : Instr := .fclkStep; let s : State := live; let p : Part := .nzl; ∃ t : State,
      exec c s = .next t ∧ p ∉ touches c) := ⟨_, rfl, by decide +kernel⟩

theorem witness_RegisterFrames :
    (let c : Instr := .dlWindowEnd; let s : State := live; let o : Nat := Reg.GPIO_OUT; ∃ t : State,
      exec c s = .next t ∧ ¬mayChange c o) := ⟨_, rfl, fun h => h⟩

theorem witness_MemoryFrame :
    (let c : Instr := .gpioSet .host 5#32; let s : State := live; let a : Nat := 0x1000; ∃ t : State,
      storesBytes c = false ∧ exec c s = .next t ∧ ¬ringByte s a) :=
  ⟨_, rfl, rfl, by unfold ringByte; decide +kernel⟩

theorem witness_StoredBytes :
    (let c : Instr := .ledgerWrite .host 1#20 0#32; let s : State := live; let a : Nat := 16; ∃ t : State,
      storesBytes c = true ∧ storesAt s c a = false ∧ exec c s = .next t ∧ ¬ringByte s a) :=
  ⟨_, rfl, by decide +kernel, rfl, by unfold ringByte; decide +kernel⟩

end Sys2Proof.Tests
end

section
/-! Unimplemented offsets (R16): the answer and the event of an access to one, in each BAR, and O34 from them. -/
namespace Sys2Proof.Machine

/-! ## What the gateway does with an unimplemented offset -/

/-- The state in which the event of an access to an unimplemented offset is raised: a read has its answer `o`, a write
(`w` holds its data) is dropped, and the gateway has counted the access (R16). -/
def unmappedCounted (w : Option Word) (o : Out) (s : State) : State := { s with
  outs := (if w.isNone then [o] else []) ++ s.outs
  regs := mput Reg.HGW_UNMAPPED (word (satAdd32 (regGet s Reg.HGW_UNMAPPED).toNat 1)) s.regs }

theorem go_countSat (off n : Nat) (s : State) :
    go (countSat off n) s = { s with regs := mput off (word (satAdd32 (regGet s off).toNat n)) s.regs } := rfl

/-- Only a read is answered. -/
theorem go_when_isNone_emit (w : Option Word) (o : Out) (s : State) :
    go (when w.isNone (emit o)) s = { s with outs := (if w.isNone then [o] else []) ++ s.outs } := by
  cases w <;> rfl

/-- A read is answered, then the access is counted and its event raised. -/
theorem go_answer_unmapped (w : Option Word) (o : Out) (bar off data : Nat) (s : State) :
    go (chain [when w.isNone (emit o), unmapped bar off data]) s
      = go (raise 0x0005 bar notice (bar * 2 ^ 32 + off) data) (unmappedCounted w o s) := by
  simp only [unmapped, go_chain_cons, go_chain_nil, go_when_isNone_emit, go_countSat]
  rfl

/-! ## The way of an access to an unimplemented offset -/

/-- With nothing ahead of it a request is performed at once (R342). -/
theorem go_inOrder_of_idle {s : State} (h : gwBusy s = false) (r : HostReq) (k : Eff) :
    go (inOrder r k) s = go k s := by
  simp [inOrder, h]

/-- A BAR0 access of the host does not wait when the gateway is idle, and one of another initiator never does. -/
theorem go_access_of_idle {s : State} {ini : Ini} (h : ini = .host → gwBusy s = false) (off : Nat) (size : Size)
    (w : Option Word) (ones k : Eff) :
    go (access ini off size w ones k) s = go (reach ini off size (w.getD 0#32).toNat ones k) s := by
  unfold access
  by_cases hi : ini = .host
  · simp [hi, go_inOrder_of_idle (h hi)]
  · simp [hi]

/-- An offset of BAR0 at which nothing is implemented: it lies in no region, or in a powered block without a register
there (R16, R421). -/
def Unimplemented (s : State) (off : Nat) : Prop :=
  regionOf off = 0xFF ∨ (blockPowered s (blockOf off) = true ∧ descAt off = none ∧ regionOf off ≠ 0x30)

/-- A whole BAR0 access to an unimplemented offset never gets to a block's effect `k`. -/
theorem go_reach_unimplemented {s : State} {ini : Ini} {off : Nat} (hm : s.mainReset = false)
    (hh : ini = .host → takesRequests s = true) (h : Unimplemented s off) (data : Nat) (ones k : Eff) :
    go (reach ini off .whole data ones k) s = go (chain [ones, unmapped 0 off data]) s := by
  have taken : ¬ (ini = .host ∧ takesRequests s = false) := fun ⟨hi, ht⟩ => by simp [hh hi] at ht
  by_cases hn : regionOf off = 0xFF
  · simp [reach, taken, hm, hn]
  · obtain ⟨hp, hd, hr⟩ := h.resolve_left hn
    simp [reach, taken, hm, hn, hp, hd, hr]

/-- A partner window access to an absent or invalid entry, or past the partner's registers, sends nothing (R338). -/
theorem go_windowAccess_unimplemented {s : State} {p a : Nat} (ht : takesRequests s = true)
    (h : ptAbsent p = true ∨ ptValid s p = false ∨ leAt (partnerOf s p).desc 56 4 ≤ a) (w : Option Word) :
    go (windowAccess p a w) s = go (chain [when w.isNone (emit (.window 2 (0x30000000 + 0x10000 * p + a) allOnes)),
      unmapped 2 (0x30000000 + 0x10000 * p + a) (w.getD 0#32).toNat]) s := by
  have absent : (ptAbsent p || !ptValid s p || decide (leAt (partnerOf s p).desc 56 4 ≤ a)) = true := by
    simpa [or_assoc] using h
  simp only [windowAccess, go_rd, ht, absent, Bool.not_true, Bool.false_eq_true, if_false, if_true]

/-- BAR2 from 0x3000_0000 on is the partner window. -/
theorem bar2Access_partnerWindow {off : Nat} (h : 0x30000000 ≤ off) (w : Option Word) :
    bar2Access off w = windowAccess (off / 0x10000 % 0x1000) (off % 0x10000) w :=
  if_neg (Nat.not_lt.mpr h)

/-- A word of BAR4 outside the MSI-X table and the PBA. -/
theorem go_bar4Access_unimplemented {off : Nat} (h : 0x400 ≤ off) (h0 : off ≠ 0x8000) (h4 : off ≠ 0x8004)
    (w : Option Word) (s : State) :
    go (bar4Access off w) s
      = go (chain [when w.isNone (emit (.window 4 off allOnes)), unmapped 4 off (w.getD 0#32).toNat]) s := by
  simp only [bar4Access, go_rd, Nat.not_lt.mpr h, h0, h4, if_false]

/-- A host access to BAR2 or BAR4 that the endpoint takes and that has nothing ahead of it. -/
theorem go_barAccess_host {s : State} (ht : takesRequests s = true) (hb : gwBusy s = false) (bar off : Nat)
    (w : Option Word) :
    go (barAccess .host bar off w) s = go (if bar = 2 then bar2Access off w else bar4Access off w) s := by
  simp only [barAccess, beq_self_eq_true, go_when_true, go_inOrder_of_idle hb, barNow, go_rd, ht, if_true]

/-- A word-aligned BAR2 offset in the partner window is its entry's base and the offset in the entry. -/
theorem partnerWindow_offset {n : Nat} (h : 0x30000000 ≤ n) (hn : n < 2 ^ 30) :
    0x30000000 + 0x10000 * (n / 0x10000 % 0x1000) + n / 4 * 4 % 0x10000 = n / 4 * 4 := by
  omega

/-! ## UNMAPPED_ACCESS, BAR by BAR -/

/-- In BAR0 it is a whole register access of any initiator. -/
theorem exec_unmappedAccess_bar0 (ini : Ini) (off : BitVec 30) (w : Option Word) (s : State) :
    ∃ k, exec (.unmappedAccess ini 0 off w) s = .next (go (access ini (off.toNat / 4 * 4) .whole w
      (when w.isNone (readOnes ini (off.toNat / 4 * 4))) k) s) := by
  cases w <;> exact ⟨_, rfl⟩

theorem exec_unmappedAccess_bar2 (ini : Ini) (off : BitVec 30) (w : Option Word) (s : State) :
    exec (.unmappedAccess ini 1 off w) s = .next (go (barAccess ini 2 (off.toNat / 4 * 4) w) s) := rfl

theorem exec_unmappedAccess_bar4 (ini : Ini) (off : BitVec 30) (w : Option Word) (s : State) :
    exec (.unmappedAccess ini 2 off w) s = .next (go (barAccess ini 4 (off.toNat / 4 * 4) w) s) := rfl

theorem exec_unmappedAccess_bar0_unimplemented {s : State} {ini : Ini} {off : BitVec 30} (w : Option Word)
    (hm : s.mainReset = false) (hh : ini = .host → takesRequests s = true ∧ gwBusy s = false)
    (h : Unimplemented s (off.toNat / 4 * 4)) :
    exec (.unmappedAccess ini 0 off w) s = .next (go (raise 0x0005 0 notice (off.toNat / 4 * 4) (w.getD 0#32).toNat)
      (unmappedCounted w (.read ini (off.toNat / 4 * 4) allOnes) s)) := by
  obtain ⟨k, hk⟩ := exec_unmappedAccess_bar0 ini off w s
  rw [hk, go_access_of_idle (fun hi => (hh hi).2), go_reach_unimplemented hm (fun hi => (hh hi).1) h, readOnes,
    go_answer_unmapped, Nat.zero_mul, Nat.zero_add]

theorem exec_unmappedAccess_bar2_unimplemented {s : State} {off : BitVec 30} (w : Option Word)
    (ht : takesRequests s = true) (hb : gwBusy s = false) (hw : 0x30000000 ≤ off.toNat)
    (h : ptAbsent (off.toNat / 0x10000 % 0x1000) = true ∨ ptValid s (off.toNat / 0x10000 % 0x1000) = false
      ∨ leAt (partnerOf s (off.toNat / 0x10000 % 0x1000)).desc 56 4 ≤ off.toNat / 4 * 4 % 0x10000) :
    exec (.unmappedAccess .host 1 off w) s
      = .next (go (raise 0x0005 2 notice (2 * 2 ^ 32 + off.toNat / 4 * 4) (w.getD 0#32).toNat)
        (unmappedCounted w (.window 2 (off.toNat / 4 * 4) allOnes) s)) := by
  have inWindow : 0x30000000 ≤ off.toNat / 4 * 4 := by omega
  have entry : off.toNat / 4 * 4 / 0x10000 % 0x1000 = off.toNat / 0x10000 % 0x1000 := by omega
  rw [exec_unmappedAccess_bar2, go_barAccess_host ht hb, if_pos rfl, bar2Access_partnerWindow inWindow, entry,
    go_windowAccess_unimplemented ht h, partnerWindow_offset hw off.isLt, go_answer_unmapped]

theorem exec_unmappedAccess_bar4_unimplemented {s : State} {off : BitVec 30} (w : Option Word)
    (ht : takesRequests s = true) (hb : gwBusy s = false) (h : 0x400 ≤ off.toNat / 4 * 4)
    (h0 : off.toNat / 4 * 4 ≠ 0x8000) (h4 : off.toNat / 4 * 4 ≠ 0x8004) :
    exec (.unmappedAccess .host 2 off w) s
      = .next (go (raise 0x0005 4 notice (4 * 2 ^ 32 + off.toNat / 4 * 4) (w.getD 0#32).toNat)
        (unmappedCounted w (.window 4 (off.toNat / 4 * 4) allOnes) s)) := by
  rw [exec_unmappedAccess_bar4, go_barAccess_host ht hb, if_neg (by decide), go_bar4Access_unimplemented h h0 h4,
    go_answer_unmapped]

/-- Settles O34, BAR by BAR: in each the access ends at the answer of an unimplemented offset. -/
theorem unmappedOffsets : Obligations.UnmappedOffsets := by
  refine ⟨?bar0, ?bar2, ?bar4⟩
  case bar0 =>
    intro s ini off w hm hh h
    exact ⟨_, exec_unmappedAccess_bar0_unimplemented w hm hh h, rfl⟩
  case bar2 =>
    intro s off w ht hb hw h
    exact ⟨_, exec_unmappedAccess_bar2_unimplemented w ht hb hw h, rfl⟩
  case bar4 =>
    intro s off w ht hb h h0 h4
    exact ⟨_, exec_unmappedAccess_bar4_unimplemented w ht hb h h0 h4, rfl⟩

end Sys2Proof.Machine
end

section
/-! Serial-number arithmetic of SEQ values (R381): `seqNewer` by the distance between two values, and O36 from it. -/
namespace Sys2Proof.Machine

/-- The distance that `seqNewer` looks at is the one by which `a` follows `b`. -/
theorem seq_distance_advance {b d : Nat} (hb : b < 2 ^ 32) (hd : d < 2 ^ 32) :
    ((b + d) % 2 ^ 32 + 2 ^ 32 - b) % 2 ^ 32 = d := by
  omega

/-- Every value is reached from `b` by its distance from `b`. -/
theorem seq_advance_distance {a b : Nat} (ha : a < 2 ^ 32) (hb : b < 2 ^ 32) :
    (b + (a + 2 ^ 32 - b) % 2 ^ 32) % 2 ^ 32 = a := by
  omega

theorem seqNewer_iff_distance (a b : Nat) :
    seqNewer a b = true ↔ 1 ≤ (a + 2 ^ 32 - b) % 2 ^ 32 ∧ (a + 2 ^ 32 - b) % 2 ^ 32 < 2 ^ 31 :=
  decide_eq_true_iff

/-- The value `d` steps after `b` is newer than `b` just when `d` is positive and less than half the circle. -/
theorem seqNewer_advance_iff {b d : Nat} (hb : b < 2 ^ 32) (hd : d < 2 ^ 32) :
    seqNewer ((b + d) % 2 ^ 32) b = true ↔ 1 ≤ d ∧ d < 2 ^ 31 := by
  rw [seqNewer_iff_distance, seq_distance_advance hb hd]

/-- Half the circle ahead is not newer. -/
theorem seqNewer_opposite {a b : Nat} (hb : b < 2 ^ 32) (h : (b + 2 ^ 31) % 2 ^ 32 = a) : seqNewer a b = false := by
  rw [← h, Bool.eq_false_iff, ne_eq, seqNewer_advance_iff hb (by decide)]
  exact fun ⟨_, half⟩ => Nat.lt_irrefl _ half

/-- Settles O36: a value is named by its distance from the other, and opposite values are half the circle apart both
ways. -/
theorem serialOrder : Obligations.SerialOrder := by
  refine ⟨fun a b ha hb => ⟨fun newer => ?distance, ?advance⟩, fun a b ha hb opposite => ⟨?ahead, ?behind⟩⟩
  case distance =>
    obtain ⟨pos, half⟩ := (seqNewer_iff_distance a b).mp newer
    exact ⟨_, pos, Nat.le_sub_one_of_lt half, seq_advance_distance ha hb⟩
  case advance =>
    rintro ⟨d, pos, half, rfl⟩
    exact (seqNewer_advance_iff hb (by omega)).mpr ⟨pos, by omega⟩
  case ahead =>
    have back : (b + 2 ^ 31) % 2 ^ 32 = a := by omega
    exact seqNewer_opposite hb back
  case behind => exact seqNewer_opposite ha opposite

end Sys2Proof.Machine
end
